-- ==== Sys2Proof/Word.lean ====
section
/-! DEFINITION. The word types of the model: bytes, 32- and 64-bit words, link headers, flits,
lines, addresses.  Bit 0 is the least significant bit everywhere (R5). -/
namespace Sys2Proof

/-- A byte. -/
abbrev Byte := BitVec 8
/-- A 32-bit register word. -/
abbrev Word32 := BitVec 32
/-- A 64-bit word. -/
abbrev Word64 := BitVec 64
/-- One 16-byte slot of a flit, or a message header (R72). -/
abbrev Slot := BitVec 128
/-- A 256-byte flit (R38); byte `n` holds bits [8n+7:8n]. -/
abbrev Flit := BitVec 2048
/-- The 64 bytes of a line; byte `n` holds bits [8n+7:8n] (R6). -/
abbrev Line := BitVec 512
/-- A 52-bit system physical address. -/
abbrev Addr := BitVec 52
/-- A line address A[51:6]. -/
abbrev LAddr := BitVec 46

end Sys2Proof
end

