-- ==== Sys2Proof/Machine/Bits.lean ====
section
/-! DEFINITION. Bit-field, byte and sparse-table helpers that every block of the model shares. -/
namespace Sys2Proof.Machine

/-- A value packed from fields `(offset, width, value)`; a value too wide for its field is cut. -/
def packNat : List (Nat × Nat × Nat) → Nat
  | [] => 0
  | (off, w, v) :: rest => ((v % 2 ^ w) <<< off) ||| packNat rest

/-- `packNat` as a word of `n` bits. -/
def pack (n : Nat) (fs : List (Nat × Nat × Nat)) : BitVec n := BitVec.ofNat n (packNat fs)

/-- Bits [off + w - 1 : off] of a natural number. -/
def bitsOf (x off w : Nat) : Nat := (x >>> off) % 2 ^ w

/-- 1 for true, 0 for false. -/
def b2n (b : Bool) : Nat := if b then 1 else 0

/-- Addition that saturates at `2^w - 1` (every counter the tables call saturating). -/
def satAdd (w : Nat) (x n : Nat) : Nat := min (2 ^ w - 1) (x + n)

/-- The exclusive-OR of bits `i, i + step, i + 2*step, …` of `x`, `n` of them. -/
def xorStep (x : Nat) (step : Nat) : Nat → Nat → Bool
  | _, 0 => false
  | i, n + 1 => (x.testBit i) ^^ xorStep x step (i + step) n

/-- Replace bits [off + w - 1 : off] of `x` by `v`. -/
def setBits (x off w v : Nat) : Nat :=
  x - (bitsOf x off w <<< off) + ((v % 2 ^ w) <<< off)

/-- Set bit `i` of `x` to `b`. -/
def putBit (x i : Nat) (b : Bool) : Nat := setBits x i 1 (b2n b)

/-- The number of one bits among bits 0 to `n - 1`. -/
def popCount (x : Nat) : Nat → Nat
  | 0 => 0
  | n + 1 => popCount x n + b2n (x.testBit n)

/-- The numbers of the bits that are set among bits 0 to `n - 1`, rising. -/
def onesOf (x n : Nat) : List Nat := (List.range n).filter (fun i => x.testBit i)

/-- Byte `i` of a natural number. -/
def byteOf (x i : Nat) : Nat := bitsOf x (8 * i) 8

/-- The little-endian value of a list of bytes (R6). -/
def leNat : List Nat → Nat
  | [] => 0
  | b :: bs => b % 256 + 256 * leNat bs

/-- `n` bytes of `x`, least significant first (R6). -/
def leBytes (x : Nat) : Nat → List Nat
  | 0 => []
  | n + 1 => x % 256 :: leBytes (x / 256) n

/-- The mask of a line's bits that a 64-bit byte enable selects. -/
def enMask (be : Nat) : Nat → Nat
  | 0 => 0
  | n + 1 => enMask be n ||| (if be.testBit n then 255 <<< (8 * n) else 0)

/-- `old` with the bytes that `be` enables taken from `new` (R86). -/
def mergeLine (old new : Line) (be : BitVec 64) : Line :=
  let m : Line := BitVec.ofNat 512 (enMask be.toNat 64)
  (old &&& ~~~m) ||| (new &&& m)

/-- `k n`, with `n` evaluated to a numeral first, so that long computations stay shallow. -/
def forced {α : Type} (n : Nat) (k : Nat → α) : α :=
  match n with
  | 0 => k 0
  | m + 1 => k (m + 1)

/-! ## Sparse tables: lists of key and value with strictly rising keys. -/

/-- A sparse table keyed by natural numbers. -/
abbrev Tab (α : Type) := List (Nat × α)

/-- The entry of key `k`, if it is listed. -/
def Tab.find {α : Type} (t : Tab α) (k : Nat) : Option α :=
  match t with
  | [] => none
  | (j, v) :: rest => if j = k then some v else Tab.find rest k

/-- The entry of key `k`, or `d` where it is not listed. -/
def Tab.get {α : Type} (t : Tab α) (d : α) (k : Nat) : α := (Tab.find t k).getD d

/-- List `v` under key `k`, replacing what was there. -/
def Tab.set {α : Type} (t : Tab α) (k : Nat) (v : α) : Tab α :=
  match t with
  | [] => [(k, v)]
  | (j, w) :: rest =>
    if k < j then (k, v) :: (j, w) :: rest
    else if k = j then (k, v) :: rest
    else (j, w) :: Tab.set rest k v

/-- Remove key `k`. -/
def Tab.erase {α : Type} (t : Tab α) (k : Nat) : Tab α :=
  t.filter (fun p => p.1 ≠ k)

/-- List `v` under `k`, or remove the key where `v` is the default `d`. -/
def Tab.put {α : Type} [DecidableEq α] (d : α) (t : Tab α) (k : Nat) (v : α) : Tab α :=
  if v = d then Tab.erase t k else Tab.set t k v

/-- Every key is below `n`-th place's bound and the keys rise strictly. -/
def Tab.rising {α : Type} : Tab α → Bool
  | [] => true
  | [_] => true
  | (i, _) :: (j, w) :: rest => decide (i < j) && Tab.rising ((j, w) :: rest)

/-- The canonical form over a default: rising keys and no entry equal to the default. -/
def Tab.wf {α : Type} [DecidableEq α] (d : α) (t : Tab α) : Bool :=
  Tab.rising t && t.all (fun p => p.2 ≠ d)

/-! ## Vectors read and written by a natural number. -/

/-- Entry `i` of a vector, or `d` past its end. -/
def vget {α : Type} {n : Nat} (v : Vector α n) (d : α) (i : Nat) : α := (v[i]?).getD d

/-- Entry `i` replaced; nothing past the end. -/
def vset {α : Type} {n : Nat} (v : Vector α n) (i : Nat) (x : α) : Vector α n :=
  v.setIfInBounds i x

/-- Entry `i` changed by `f`; nothing past the end. -/
def vmod {α : Type} {n : Nat} (v : Vector α n) (i : Nat) (f : α → α) : Vector α n :=
  match v[i]? with
  | none => v
  | some x => v.setIfInBounds i (f x)

/-- Remove the first entry that satisfies `p`. -/
def dropFirst {α : Type} (p : α → Bool) : List α → List α
  | [] => []
  | x :: xs => if p x then xs else x :: dropFirst p xs

/-- Change the first entry that satisfies `p`. -/
def modFirst {α : Type} (p : α → Bool) (f : α → α) : List α → List α
  | [] => []
  | x :: xs => if p x then f x :: xs else x :: modFirst p f xs

/-- Change every entry that satisfies `p`. -/
def modAll {α : Type} (p : α → Bool) (f : α → α) (l : List α) : List α :=
  l.map (fun x => if p x then f x else x)

/-- Insert `x` unless it is listed (a list used as a set). -/
def addOnce {α : Type} [BEq α] (x : α) (l : List α) : List α :=
  if l.contains x then l else l ++ [x]

end Sys2Proof.Machine
end

