-- ==== Sys2Proof/Machine/Address.lean ====
section
/-! DEFINITION. The applied configuration (every RWE register, as the words that the last epoch
wrote) with its field readers, and the address arithmetic of chapters 1, 6, 10 and 13. -/
namespace Sys2Proof.Machine

/-- The six words of a region entry (Table 6.4). -/
structure RgnWords where
  attr : Word32
  baseL : Word32
  baseH : Word32
  limitL : Word32
  limitH : Word32
  back : Word32
  deriving DecidableEq, Repr

/-- A region entry of zeros. -/
def RgnWords.zero : RgnWords := ⟨0, 0, 0, 0, 0, 0⟩

/-- Every configuration register that an epoch writes (R331, R444). -/
structure Cfg where
  /-- WLP_n_CFG (Table 2.13). -/
  wlp : Vector Word32 16
  /-- TWN_CFG (Table 13.11). -/
  twn : Word32
  /-- HOM_s_COH (Table 4.12). -/
  hom : Vector Word32 8
  /-- TAG_s_CFG (Table 6.8). -/
  tag : Vector Word32 8
  /-- TAG_PART_p (Table 6.9). -/
  part : Vector Word32 16
  /-- TAG_RGN_n (Table 6.4). -/
  rgn : Vector RgnWords 64
  /-- ORD_CFG (Table 8.8). -/
  ord : Word32
  /-- PFU_CFG (Table 7.4). -/
  pfu : Word32
  /-- HRW_CFG (Table 9.9). -/
  hrw : Word32
  /-- HRW_APERM_a (Table 9.13). -/
  aperm : Vector Word32 32
  /-- GLN_CFG (Table 11.15). -/
  gln : Word32
  deriving DecidableEq, Repr

/-- The reset values of the configuration tables. -/
def Cfg.reset : Cfg :=
  { wlp := Vector.replicate 16 (pack 32 [(0, 1, 1), (4, 1, 1), (16, 16, 175)])
    twn := pack 32 [(1, 7, 20), (8, 8, 50), (16, 8, 200), (24, 1, 1), (25, 1, 1)]
    hom := Vector.replicate 8 (pack 32 [(0, 10, 125), (16, 10, 20)])
    tag := Vector.replicate 8 (pack 32 [(4, 2, 3), (6, 1, 1), (16, 8, 20)])
    part := Vector.replicate 16 (pack 32 [(0, 10, 0x3FF)])
    rgn := Vector.replicate 64 RgnWords.zero
    ord := pack 32 [(0, 1, 1), (1, 1, 1)]
    pfu := pack 32 [(0, 1, 1), (1, 3, 2), (4, 3, 4), (8, 8, 96), (16, 8, 160), (24, 8, 192)]
    hrw := pack 32 [(0, 8, 64), (8, 5, 16), (13, 1, 1)]
    aperm := Vector.replicate 32 (pack 32 [(0, 16, 0x09EE)])
    gln := pack 32 [(0, 1, 1), (1, 8, 12), (9, 8, 24), (17, 5, 8)] }

/-- WLP_n_CFG of port `n`. -/
def Cfg.wlpWord (c : Cfg) (n : Nat) : Nat := (vget c.wlp 0 n).toNat
/-- PORT_EN. -/
def Cfg.portEn (c : Cfg) (n : Nat) : Bool := (c.wlpWord n).testBit 0
/-- SPLIT. -/
def Cfg.split (c : Cfg) (n : Nat) : Bool := (c.wlpWord n).testBit 1
/-- MAX_RATE; the reserved code 11b acts as the reset value (R508). -/
def Cfg.maxRate (c : Cfg) (n : Nat) : BitVec 2 :=
  let r := bitsOf (c.wlpWord n) 2 2
  if r = 3 then 0 else BitVec.ofNat 2 r
/-- ALLOW_DEGRADE. -/
def Cfg.allowDegrade (c : Cfg) (n : Nat) : Bool := (c.wlpWord n).testBit 4
/-- TWIN_EN. -/
def Cfg.twinEn (c : Cfg) : Bool := c.twn.toNat.testBit 0
/-- AUTO_REJOIN. -/
def Cfg.autoRejoin (c : Cfg) : Bool := c.twn.toNat.testBit 24
/-- ALLOW_DEGRADE of the twin link. -/
def Cfg.twinDegrade (c : Cfg) : Bool := c.twn.toNat.testBit 25
/-- HOLD_TIME in units of 4 ns: 0 disables the hold, values above 1,000 act as 1,000. -/
def Cfg.holdTime (c : Cfg) (s : Nat) : Nat := min 1000 (bitsOf (vget c.hom 0 s).toNat 0 10)
/-- CACHE_EN of slice `s`. -/
def Cfg.cacheEn (c : Cfg) (s : Nat) : Bool := (vget c.tag 0 s).toNat.testBit 0
/-- SPEC_RD of slice `s`. -/
def Cfg.specRd (c : Cfg) (s : Nat) : Bool := (vget c.tag 0 s).toNat.testBit 6
/-- ALLOC_WAIT of slice `s`. -/
def Cfg.allocWait (c : Cfg) (s : Nat) : Nat := bitsOf (vget c.tag 0 s).toNat 16 8
/-- The Cober partition size Z in GiB; reserved codes act as the reset value (R508). -/
def Cfg.coberGib (c : Cfg) : Nat :=
  match bitsOf (vget c.tag 0 0).toNat 1 3 with
  | 1 => 1 | 2 => 2 | 3 => 4 | 4 => 8 | _ => 0
/-- The Cober ways W. -/
def Cfg.coberWays (c : Cfg) : Nat := 2 <<< bitsOf (vget c.tag 0 0).toNat 4 2
/-- WAYMASK of partition `p`. -/
def Cfg.wayMask (c : Cfg) (p : Nat) : Nat := bitsOf (vget c.part 0 p).toNat 0 10
/-- MERGE_EN. -/
def Cfg.mergeEn (c : Cfg) : Bool := c.ord.toNat.testBit 0
/-- FWD_EN. -/
def Cfg.fwdEn (c : Cfg) : Bool := c.ord.toNat.testBit 1
/-- PF_EN. -/
def Cfg.pfEn (c : Cfg) : Bool := c.pfu.toNat.testBit 0
/-- NSB_DEGREE. -/
def Cfg.nsbDegree (c : Cfg) : Nat := bitsOf c.pfu.toNat 1 3
/-- STRIDE_DEGREE. -/
def Cfg.strideDegree (c : Cfg) : Nat := bitsOf c.pfu.toNat 4 3
/-- ACC_LO. -/
def Cfg.accLo (c : Cfg) : Nat := bitsOf c.pfu.toNat 8 8
/-- ACC_HI. -/
def Cfg.accHi (c : Cfg) : Nat := bitsOf c.pfu.toNat 16 8
/-- DDR_LIMIT. -/
def Cfg.ddrLimit (c : Cfg) : Nat := bitsOf c.pfu.toNat 24 8
/-- LINES_INFLIGHT; 0 acts as 1. -/
def Cfg.linesInflight (c : Cfg) : Nat := max 1 (bitsOf c.hrw.toNat 0 8)
/-- ACTIVE_MAX; 0 acts as 1 and values above 16 act as 16. -/
def Cfg.activeMax (c : Cfg) : Nat := min 16 (max 1 (bitsOf c.hrw.toNat 8 5))
/-- AGENT_EN. -/
def Cfg.agentEn (c : Cfg) : Bool := c.hrw.toNat.testBit 13
/-- PATROL_EN. -/
def Cfg.patrolEn (c : Cfg) : Bool := c.gln.toNat.testBit 0
/-- CE_LIMIT; 0 acts as 1. -/
def Cfg.ceLimit (c : Cfg) : Nat := max 1 (bitsOf c.gln.toNat 17 5)

/-! ## Regions (R178, R179) -/

/-- Region types of Table 6.4. -/
inductive RType where
  | wb | wt | wa | ucn | dev
  deriving DecidableEq, Repr

/-- The TYPE code of Table 6.4. -/
def RType.code : RType → Nat
  | .wb => 0 | .wt => 1 | .wa => 2 | .ucn => 3 | .dev => 4

/-- A decoded region entry. -/
structure Region where
  idx : Nat
  typ : RType
  line : Bool
  meter : Bool
  part : Nat
  tenant : Nat
  base : Nat
  limit : Nat
  back : Nat
  deriving DecidableEq, Repr

/-- The entry's EN bit. -/
def RgnWords.en (w : RgnWords) : Bool := w.attr.toNat.testBit 0
/-- First page, A[51:12]. -/
def RgnWords.base (w : RgnWords) : Nat := w.baseL.toNat + (bitsOf w.baseH.toNat 0 8 <<< 32)
/-- Last page, A[51:12]. -/
def RgnWords.limit (w : RgnWords) : Nat := w.limitL.toNat + (bitsOf w.limitH.toNat 0 8 <<< 32)
/-- TYPE; reserved codes act as the reset value WB (R508). -/
def RgnWords.rtype (w : RgnWords) : RType :=
  match bitsOf w.attr.toNat 1 3 with
  | 1 => .wt | 2 => .wa | 3 => .ucn | 4 => .dev | _ => .wb

/-- Entry `n` read as a region. -/
def RgnWords.region (w : RgnWords) (n : Nat) : Region :=
  let a := w.attr.toNat
  { idx := n, typ := w.rtype, line := a.testBit 4, meter := a.testBit 5, part := bitsOf a 8 4,
    tenant := bitsOf a 12 8, base := w.base, limit := w.limit, back := bitsOf w.back.toNat 0 31 }

/-- The page number A[51:12] lies in the enabled entry. -/
def RgnWords.covers (w : RgnWords) (page : Nat) : Bool :=
  w.en && decide (w.base ≤ page) && decide (page ≤ w.limit)

/-- The first region from entry `n` on that holds a page (R178). -/
def findRegion (page : Nat) : List RgnWords → Nat → Option Region
  | [], _ => none
  | w :: ws, n => if w.covers page then some (w.region n) else findRegion page ws (n + 1)

/-- The region that maps the page A[51:12] (R178). -/
def Cfg.regionOfPage (c : Cfg) (page : Nat) : Option Region := findRegion page c.rgn.toList 0

/-- The region that maps a line address. -/
def Cfg.regionOf (c : Cfg) (la : LAddr) : Option Region := c.regionOfPage (la.toNat / 64)

/-- The backing line number B[42:6] of a line in its region (R179). -/
def Region.backLine (r : Region) (la : LAddr) : Nat :=
  ((r.back * 64 + la.toNat % 2 ^ 37 + 2 ^ 37) - (r.base * 64) % 2 ^ 37) % 2 ^ 37

/-- WB, WT and WA regions are cacheable (R117). -/
def RType.cacheable : RType → Bool
  | .wb | .wt | .wa => true
  | _ => false

/-! ## Home slice, sets and channels -/

/-- SLICE of a line address (R14). -/
def sliceOf (la : LAddr) : Nat :=
  let p := la.toNat / 64
  b2n (xorStep p 3 0 14) + 2 * b2n (xorStep p 3 1 13) + 4 * b2n (xorStep p 3 2 13)

/-- H, the parity of A[51:12] (R28). -/
def parityH (la : LAddr) : Bool := xorStep (la.toNat / 64) 1 0 40

/-- SET (R158). -/
def setOf (la : LAddr) : Nat :=
  let p := la.toNat / 64
  (sliceOf la <<< 18) + ((bitsOf p 0 18) ^^^ (bitsOf p 18 18) ^^^ (bitsOf p 36 4))

/-- TAG = A[51:30] (R158). -/
def tagOf (la : LAddr) : Nat := bitsOf la.toNat 24 22
/-- SUB = A[11:6] (R158). -/
def subOf (la : LAddr) : Nat := la.toNat % 64

/-- The page A[51:12] of the sector with this TAG in this set: the set index and the tag together
determine it (R159). -/
def pageOfTag (set tag : Nat) : Nat :=
  let hi := tag * 2 ^ 18
  let low := (bitsOf set 0 18) ^^^ (bitsOf tag 0 18) ^^^ (bitsOf tag 18 4)
  hi + low

/-- A line address from its page and sub-block. -/
def lineOfPage (page sub : Nat) : LAddr := BitVec.ofNat 46 (page * 64 + sub)

/-- The code-word number CA/64 of sub-block `k` of way `w` of set `s` (R159). -/
def subWord (s w k : Nat) : Nat := (10 * s + w) * 64 + k
/-- The code-word number of the tag-store word that holds way `w` of set `s` (R159). -/
def tagWord (s w : Nat) : Nat := (0x1400000000 + (10 * s + w) * 32) / 64
/-- The HBM channel of a code word (R156). -/
def hbmChan (word : Nat) : Nat := (bitsOf word 0 6) ^^^ (bitsOf word 6 6)

/-- The location word LW of an HBM code word (R266, R295). -/
def hbmLoc (word : Nat) : Nat :=
  let l := word / 64
  packNat [(0, 6, hbmChan word), (6, 2, bitsOf l 23 2), (8, 1, bitsOf l 0 1), (9, 2, bitsOf l 1 2),
    (11, 2, bitsOf l 3 2), (13, 4, bitsOf l 5 4), (17, 14, bitsOf l 9 14)]

/-- The row key of an HBM word: (CH, SID, PC, BG, BA, ROW) (R310). -/
def hbmRow (word : Nat) : Nat :=
  let w := hbmLoc word
  bitsOf w 0 13 + (bitsOf w 17 14 <<< 13)

/-- The backing page index G of a backing line (R273). -/
def backPage (line : Nat) : Nat := line / 64
/-- The DDR5 channel of a backing line (R273). -/
def ddrChan (line : Nat) : Nat := 4 * (line / 64 % 3) + line / 64 % 4
/-- The local page of a backing line (R273). -/
def localPage (line : Nat) : Nat := line / 64 / 12
/-- The channel line LB of a backing line (R273). -/
def ddrLB (line : Nat) : Nat := 64 * localPage line + line % 64
/-- The backing page of channel `c` and local page `p` (R273, inverted). -/
def pageOfLocal (c p : Nat) : Nat :=
  12 * p + ((List.range 12).find? (fun g => 4 * (g % 3) + g % 4 = c)).getD 0

/-- ROW, BG, BA, SC, COL and RNK of a channel line with `r` rank bits (R274). -/
structure DdrPlace where
  sc : Nat
  bg : Nat
  ba : Nat
  col : Nat
  rnk : Nat
  row : Nat
  deriving DecidableEq, Repr

/-- The DRAM place of a channel line (R274). -/
def ddrPlace (r lb : Nat) : DdrPlace :=
  let row := lb / 2 ^ (13 + r)
  { sc := lb % 2, bg := (bitsOf lb 2 3) ^^^ (bitsOf row 0 3),
    ba := (bitsOf lb 5 2) ^^^ (bitsOf row 3 2), col := bitsOf lb 1 1 + 2 * bitsOf lb 7 6,
    rnk := bitsOf lb 13 r, row := row }

/-- The row key of a DDR5 word: (c, SC, RNK, BG, BA, ROW) (R310). -/
def ddrRow (r line : Nat) : Nat :=
  let p := ddrPlace r (ddrLB line)
  packNat [(0, 4, ddrChan line), (4, 1, p.sc), (5, 4, p.rnk), (9, 3, p.bg), (12, 2, p.ba),
    (14, 24, p.row)]

/-- The zero-map word of a backing page, numbered over all channels: channel × 262,144 plus
local page / 512 (R279). -/
def mapWord (page : Nat) : Nat :=
  (4 * (page % 3) + page % 4) * 262144 + page / 12 / 512

/-- The pages of a zero-map word (R279). -/
def mapPages (w : Nat) : List Nat :=
  (List.range 512).map (fun j => pageOfLocal (w / 262144) (w % 262144 * 512 + j))

/-- The HBM code word of a zero-map word, primary copy (R279). -/
def mapPrimary (w : Nat) : Nat := 0x1428000000 / 64 + (w / 262144) * 0x40000 + w % 262144
/-- The HBM code word of a zero-map word, mirror copy (R279). -/
def mapMirror (w : Nat) : Nat :=
  0x1434000000 / 64 + (w / 262144) * 0x40000 + ((w % 262144) ^^^ 0x800)

/-- log₂ of a positive number. -/
def log2 (n : Nat) : Nat := Nat.log2 n

/-- m of R184 for the Cober partition. -/
def Cfg.coberM (c : Cfg) : Nat := log2 (c.coberGib * 2 ^ 30 / (512 * c.coberWays))
/-- CSETX of a line (R184). -/
def Cfg.csetx (c : Cfg) (la : LAddr) : Nat :=
  sliceOf la * 2 ^ c.coberM + bitsOf la.toNat 0 c.coberM
/-- CTAG of a line (R184). -/
def Cfg.ctag (c : Cfg) (la : LAddr) : Nat := la.toNat / 2 ^ c.coberM
/-- The code-word number of the data of way `w` of Cober set `x` (R184). -/
def Cfg.coberWord (c : Cfg) (x w : Nat) : Nat :=
  (0x1800000000 - c.coberGib * 2 ^ 30) / 64 + (x * c.coberWays + w)
/-- The code-word number of the line tag of way `w` of Cober set `x` (R184). -/
def Cfg.coberTagWord (c : Cfg) (x w : Nat) : Nat :=
  (0x1800000000 - 9 * (c.coberGib * 2 ^ 30) / 8 + (x * c.coberWays + w) * 8) / 64

end Sys2Proof.Machine
end

