-- ==== Sys2Proof/Machine/Code.lean ====
section
/-! DEFINITION. The Reed–Solomon code of chapter 11: arithmetic over GF(2⁸), the symbol places of
Table 11.1, and the decoding order of Table 11.2.  The code is linear, so what a read decodes to
depends only on the error pattern and on the stored poison marker. -/
namespace Sys2Proof.Machine

/-- An error pattern over one code word: `flip` over the stored bytes (data bytes 0 to 63 in the
low 512 bits, check bytes above them), `loc` over the virtual location or address symbols. -/
structure ErrPat where
  flip : BitVec 640
  loc : BitVec 40
  deriving DecidableEq, Repr

/-- No error. -/
def ErrPat.none : ErrPat := ⟨0, 0⟩

/-- Multiplication over GF(2⁸) with field polynomial 0x11D, from the top bit of `b` down. -/
def gfMulN : Nat → Nat → Nat → Nat → Nat
  | 0, _, _, acc => acc
  | n + 1, a, b, acc =>
    let d := acc * 2
    let d := if d.testBit 8 then d ^^^ 0x11D else d
    gfMulN n a b (if b.testBit n then d ^^^ a else d)

/-- Multiplication over GF(2⁸). -/
def gfMul (a b : Nat) : Nat := gfMulN 8 a b 0

/-- α to the power `n`. -/
def gfExp : Nat → Nat
  | 0 => 1
  | n + 1 => gfMul (gfExp n) 2

/-- α to the power `n`, reduced modulo 255. -/
def alpha (n : Nat) : Nat := gfExp (n % 255)

/-- `a` to the power `n`. -/
def gfPow (a : Nat) : Nat → Nat
  | 0 => 1
  | n + 1 => gfMul (gfPow a n) a

/-- The inverse of a non-zero element. -/
def gfInv (a : Nat) : Nat := gfPow a 254

/-- Powers of the data bytes, the virtual symbols, PM and the check bytes (Table 11.1). -/
structure Layout where
  nVirt : Nat
  nChk : Nat
  deriving DecidableEq, Repr

/-- The HBM layout. -/
def hbmLayout : Layout := ⟨4, 8⟩
/-- The DDR5 layout. -/
def ddrLayout : Layout := ⟨5, 16⟩

/-- The power of PM. -/
def Layout.pm (l : Layout) : Nat := l.nChk
/-- The power of virtual symbol `j`. -/
def Layout.virt (l : Layout) (j : Nat) : Nat := l.nChk + l.nVirt - j
/-- The power of data byte `i`. -/
def Layout.dat (l : Layout) (i : Nat) : Nat := l.nChk + l.nVirt + 64 - i
/-- The power of check byte `j`. -/
def Layout.chk (l : Layout) (j : Nat) : Nat := l.nChk - 1 - j

/-- The power of stored symbol `i`: data bytes 0 to 63, then check bytes. -/
def Layout.stored (l : Layout) (i : Nat) : Nat := if i < 64 then l.dat i else l.chk (i - 64)

/-- The non-zero error symbols of a pattern as (power, value); `dpm` is the difference between the
stored poison marker and the one supposed. -/
def Layout.errors (l : Layout) (e : ErrPat) (dpm : Nat) : List (Nat × Nat) :=
  (((List.range (64 + l.nChk)).map (fun i => (l.stored i, byteOf e.flip.toNat i)))
    ++ ((List.range l.nVirt).map (fun j => (l.virt j, byteOf e.loc.toNat j)))
    ++ [(l.pm, dpm)]).filter (fun p => p.2 ≠ 0)

/-- Syndrome `j` of an error list. -/
def syndrome (es : List (Nat × Nat)) (j : Nat) : Nat :=
  es.foldl (fun acc p => acc ^^^ gfMul p.2 (alpha (j * p.1))) 0

/-- The syndromes 0 to n - 1. -/
def syndromes (es : List (Nat × Nat)) (n : Nat) : List Nat :=
  (List.range n).map (syndrome es)

/-- Every syndrome is zero. -/
def allZero (s : List Nat) : Bool := s.all (fun x => x = 0)

/-- The single symbol among `powers` that explains the syndromes, with its value. -/
def singleAt (s : List Nat) (powers : List Nat) : Option (Nat × Nat) :=
  let v := s.headD 0
  if v = 0 then none
  else (powers.find? (fun p => s.zipIdx.all (fun q => q.1 = gfMul v (alpha (q.2 * p))))).map
    (fun p => (p, v))

/-- The product of (1 + X x) over the locators, as coefficients from degree 0. -/
def locatorPoly (xs : List Nat) : List Nat :=
  xs.foldl (fun g x =>
    (List.zipWith (· ^^^ ·) (g ++ [0]) (0 :: g.map (fun c => gfMul c x)))) [1]

/-- Coefficient `j` of the product of two polynomials. -/
def convAt (a b : List Nat) (j : Nat) : Nat :=
  (List.range (j + 1)).foldl (fun acc i => acc ^^^ gfMul (a.getD i 0) (b.getD (j - i) 0)) 0

/-- A polynomial at a point. -/
def polyEval (p : List Nat) (x : Nat) : Nat := p.foldr (fun c acc => c ^^^ gfMul acc x) 0

/-- The stored powers of DRAM `d`'s device group (R297). -/
def devPowers (d : Nat) : List Nat :=
  (List.range 8).map (fun k => ddrLayout.stored (8 * d + k))

/-- The errors of one device group that explain sixteen syndromes: the locator polynomial must
annihilate them, and the values follow by Forney's formula. -/
def devErrors (s : List Nat) (d : Nat) : Option (List (Nat × Nat)) :=
  let xs := (devPowers d).map alpha
  let g := locatorPoly xs
  if (List.range 8).all (fun j => convAt s g (j + 8) = 0) then
    let om := (List.range 8).map (convAt s g)
    some ((devPowers d).zip (xs.map (fun x =>
      let xi := gfInv x
      let den := (xs.filter (fun y => y ≠ x)).foldl (fun acc y => gfMul acc (1 ^^^ gfMul y xi)) 1
      gfMul (polyEval om xi) (gfInv den))))
  else none

/-- The first device group that explains the syndromes. -/
def findDev (s : List Nat) : Nat → Option (Nat × List (Nat × Nat))
  | 0 => none
  | n + 1 =>
    match findDev s n with
    | some r => some r
    | none => (devErrors s n).map (fun es => (n, es))

/-- What a read decodes to (Table 11.2). -/
inductive DecKind where
  | good | poisoned | poisonedCorr | correctable | mismatch | uncorrectable
  deriving DecidableEq, Repr

/-- The outcome of decoding: class, data returned, the failing stored symbol or DRAM, and the
failing virtual symbol with its error value. -/
structure Dec where
  kind : DecKind
  data : Line
  sym : Nat
  altIdx : Nat
  altVal : Nat
  deriving DecidableEq, Repr

/-- Exclusive-OR of corrections `(power, value)` into the data bytes. -/
def fixData (l : Layout) (d : Line) (es : List (Nat × Nat)) : Line :=
  d ^^^ BitVec.ofNat 512 ((List.range 64).foldl (fun acc i =>
    match es.find? (fun p => p.1 = l.dat i) with
    | some p => acc ||| (p.2 <<< (8 * i))
    | none => acc) 0)

/-- One stored error under a supposed marker: the failing symbol or DRAM and the corrections. -/
def oneStored (ddr : Bool) (s : List Nat) : Option (Nat × List (Nat × Nat)) :=
  if ddr then findDev s 10
  else
    (singleAt s ((List.range 72).map hbmLayout.stored)).map (fun p =>
      (((List.range 72).find? (fun i => hbmLayout.stored i = p.1)).getD 0, [p]))

/-- The first failing stored symbol of a pattern, or its DRAM (Table 11.12). -/
def firstStored (ddr : Bool) (l : Layout) (e : ErrPat) : Nat :=
  match (List.range (64 + l.nChk)).find? (fun i => byteOf e.flip.toNat i ≠ 0) with
  | some i => if ddr then i / 8 else i
  | none => 0

/-- Decode a word stored with data `d` and marker `pm`, read back with error pattern `e`
(Table 11.2). -/
def decodeWord (ddr : Bool) (d : Line) (pm : Bool) (e : ErrPat) : Dec :=
  if e = ErrPat.none then ⟨if pm then .poisoned else .good, d, 0, 0, 0⟩
  else
    let l := if ddr then ddrLayout else hbmLayout
    let read : Line := d ^^^ e.flip.extractLsb' 0 512
    let s0 := syndromes (l.errors e (if pm then 0x5A else 0)) l.nChk
    let s5 := syndromes (l.errors e (if pm then 0 else 0x5A)) l.nChk
    if allZero s0 then ⟨.good, read, 0, 0, 0⟩
    else if allZero s5 then ⟨.poisoned, read, 0, 0, 0⟩
    else match oneStored ddr s5 with
      | some (sy, es) => ⟨.poisonedCorr, fixData l read es, sy, 0, 0⟩
      | none => match oneStored ddr s0 with
        | some (sy, es) => ⟨.correctable, fixData l read es, sy, 0, 0⟩
        | none => match singleAt s0 ((List.range l.nVirt).map l.virt) with
          | some p =>
            ⟨.mismatch, read, 0,
              ((List.range l.nVirt).find? (fun j => l.virt j = p.1)).getD 0, p.2⟩
          | none => ⟨.uncorrectable, read, firstStored ddr l e, 0, 0⟩

end Sys2Proof.Machine
end

