-- ==== Sys2Proof/Machine/Msg.lean ====
section
/-! DEFINITION. The Waisan messages (chapter 3): opcodes, classes, lengths, the headers of
Tables 3.2 to 3.15 as field readers over the 128-bit header slot, and builders of what the
device sends. -/
namespace Sys2Proof.Machine

/-- The messages of Table 3.1. -/
inductive Op where
  | rdShared | rdOwn | rdOnce | upgrade | wrInvFull | wrPartial | rdUncached | wrUncached
  | ldResv | stCond | atomic | cBar | resvClear | svcReq | wbDirty | wbOwned | evictClean
  | snpShared | snpOwn | snpInv | snpFwdShared | snpFwdOwn
  | compAck | rspI | rspS | rspFwd | rspWbCrossed | comp | retry
  | compData | dataFwd | dataHome | evtIrq
  deriving DecidableEq, Repr

/-- The opcode column of Table 3.1. -/
def Op.code : Op → Nat
  | .rdShared => 0x01 | .rdOwn => 0x02 | .rdOnce => 0x03 | .upgrade => 0x04
  | .wrInvFull => 0x05 | .wrPartial => 0x06 | .rdUncached => 0x08 | .wrUncached => 0x09
  | .ldResv => 0x0A | .stCond => 0x0B | .atomic => 0x0C | .cBar => 0x0D | .resvClear => 0x0E
  | .svcReq => 0x0F | .wbDirty => 0x10 | .wbOwned => 0x11 | .evictClean => 0x12
  | .snpShared => 0x18 | .snpOwn => 0x19 | .snpInv => 0x1A | .snpFwdShared => 0x1B
  | .snpFwdOwn => 0x1C | .compAck => 0x20 | .rspI => 0x21 | .rspS => 0x22 | .rspFwd => 0x23
  | .rspWbCrossed => 0x24 | .comp => 0x28 | .retry => 0x29 | .compData => 0x30
  | .dataFwd => 0x31 | .dataHome => 0x32 | .evtIrq => 0x38

/-- Every message of Table 3.1. -/
def Op.all : List Op :=
  [.rdShared, .rdOwn, .rdOnce, .upgrade, .wrInvFull, .wrPartial, .rdUncached, .wrUncached,
   .ldResv, .stCond, .atomic, .cBar, .resvClear, .svcReq, .wbDirty, .wbOwned, .evictClean,
   .snpShared, .snpOwn, .snpInv, .snpFwdShared, .snpFwdOwn, .compAck, .rspI, .rspS, .rspFwd,
   .rspWbCrossed, .comp, .retry, .compData, .dataFwd, .dataHome, .evtIrq]

/-- The message an opcode names; every other 6-bit opcode is reserved (R71). -/
def Op.ofCode (n : Nat) : Option Op := Op.all.find? (fun o => o.code == n)

/-- Credit class codes of Table 2.4. -/
def clsREQ : Nat := 1
/-- Credit class EVC. -/
def clsEVC : Nat := 2
/-- Credit class RSP. -/
def clsRSP : Nat := 3
/-- Credit class DAT. -/
def clsDAT : Nat := 4
/-- Credit class SNP. -/
def clsSNP : Nat := 5
/-- Credit class EVT. -/
def clsEVT : Nat := 6

/-- The class column of Table 3.1. -/
def Op.cls : Op → Nat
  | .rdShared | .rdOwn | .rdOnce | .upgrade | .wrInvFull | .wrPartial | .rdUncached
  | .wrUncached | .ldResv | .stCond | .atomic | .cBar | .resvClear | .svcReq => clsREQ
  | .wbDirty | .wbOwned | .evictClean => clsEVC
  | .snpShared | .snpOwn | .snpInv | .snpFwdShared | .snpFwdOwn => clsSNP
  | .compAck | .rspI | .rspS | .rspFwd | .rspWbCrossed | .comp | .retry => clsRSP
  | .compData | .dataFwd | .dataHome => clsDAT
  | .evtIrq => clsEVT

/-- The length column of Table 3.1, header slot included. -/
def Op.slots : Op → Nat
  | .wrInvFull | .wrUncached | .svcReq | .wbDirty | .wbOwned | .compData | .dataFwd
  | .dataHome => 5
  | .wrPartial => 6
  | .stCond | .atomic => 2
  | _ => 1

/-- The direction column of Table 3.1: the agent may send this message. -/
def Op.fromAgent : Op → Bool
  | .snpShared | .snpOwn | .snpInv | .snpFwdShared | .snpFwdOwn | .comp | .retry
  | .compData | .dataHome | .evtIrq => false
  | _ => true

/-- A message: its header slot and its payload slots. -/
structure Msg where
  hdr : Slot
  pay : List Slot
  deriving DecidableEq, Repr

/-! ## Fields common to every header -/

/-- OPCODE, bits [5:0] of every header (R72). -/
def hOp (h : Slot) : Nat := bitsOf h.toNat 0 6
/-- TXID, bits [17:6] (R74). -/
def hTxid (h : Slot) : Nat := bitsOf h.toNat 6 12

/-! ## Line header (Table 3.2) -/

/-- LADDR. -/
def lnLaddr (h : Slot) : LAddr := h.extractLsb' 18 46
/-- RSEQ. -/
def lnRseq (h : Slot) : Word32 := h.extractLsb' 64 32
/-- CSET. -/
def lnCset (h : Slot) : Nat := bitsOf h.toNat 96 14
/-- CWAY. -/
def lnCway (h : Slot) : Nat := bitsOf h.toNat 110 4
/-- CRIT. -/
def lnCrit (h : Slot) : Nat := bitsOf h.toNat 114 2
/-- STREAM. -/
def lnStream (h : Slot) : Nat := bitsOf h.toNat 116 3
/-- POISON. -/
def lnPoison (h : Slot) : Bool := h.toNat.testBit 119
/-- TENANT. -/
def lnTenant (h : Slot) : Nat := bitsOf h.toNat 120 8

/-! ## Uncached header (Table 3.3) -/

/-- ADDR. -/
def unAddr (h : Slot) : Addr := h.extractLsb' 18 52
/-- RSEQ. -/
def unRseq (h : Slot) : Word32 := h.extractLsb' 70 32
/-- LEN. -/
def unLen (h : Slot) : Nat := bitsOf h.toNat 102 7
/-- ATOP. -/
def unAtop (h : Slot) : Nat := bitsOf h.toNat 109 4
/-- POISON. -/
def unPoison (h : Slot) : Bool := h.toNat.testBit 113
/-- TENANT. -/
def unTenant (h : Slot) : Nat := bitsOf h.toNat 114 8

/-! ## Agent response header (Table 3.8) -/

/-- HTAG of a response or a data header. -/
def hHtag (h : Slot) : Nat := bitsOf h.toNat 18 15
/-- KEPT of an agent response. -/
def rsKept (h : Slot) : Nat := bitsOf h.toNat 33 3
/-- ATT of an agent response. -/
def rsAtt (h : Slot) : Bool := h.toNat.testBit 36
/-- LOCMIS of an agent response. -/
def rsLocmis (h : Slot) : Bool := h.toNat.testBit 37
/-- LADDR of an agent response. -/
def rsLaddr (h : Slot) : LAddr := h.extractLsb' 38 46

/-! ## Data header (Table 3.13) -/

/-- STATE of a data header. -/
def dtState (h : Slot) : Nat := bitsOf h.toNat 33 3
/-- POISON of a data header. -/
def dtPoison (h : Slot) : Bool := h.toNat.testBit 36
/-- WAIT of a data header. -/
def dtWait (h : Slot) : Bool := h.toNat.testBit 37
/-- CRIT of a data header. -/
def dtCrit (h : Slot) : Nat := bitsOf h.toNat 38 2
/-- TENANT of a data header. -/
def dtTenant (h : Slot) : Nat := bitsOf h.toNat 40 8
/-- LADDR of a data header. -/
def dtLaddr (h : Slot) : LAddr := h.extractLsb' 48 46
/-- AGENT of a data header (R97). -/
def dtAgent (h : Slot) : Nat := bitsOf h.toNat 94 6

/-- A data header with AGENT replaced by the owner's number (R97); its reserved bits leave as zero (R9). -/
def dtSetAgent (h : Slot) (a : Nat) : Slot := BitVec.ofNat 128 (setBits h.toNat 94 6 a % 2 ^ 100)

/-- The opcodes that use the Line header (R78). -/
def Op.isLine : Op → Bool
  | .rdShared | .rdOwn | .rdOnce | .upgrade | .wrInvFull | .wrPartial
  | .wbDirty | .wbOwned | .evictClean => true
  | _ => false

/-- The line a request names: LADDR, or A[51:6] of ADDR. -/
def reqLaddr (o : Op) (h : Slot) : LAddr :=
  if o.isLine then lnLaddr h else (unAddr h).extractLsb' 6 46

/-- The RSEQ a request carries, by its header format. -/
def reqRseq (o : Op) (h : Slot) : Word32 := if o.isLine then lnRseq h else unRseq h

/-- The TENANT a request carries (R100). -/
def reqTenant (o : Op) (h : Slot) : Nat := if o.isLine then lnTenant h else unTenant h

/-- The POISON a request carries. -/
def reqPoison (o : Op) (h : Slot) : Bool := if o.isLine then lnPoison h else unPoison h

/-- The CRIT of a request: its field, or ADDR[5:4] where the header has none (R85). -/
def reqCrit (o : Op) (h : Slot) : Nat :=
  if o.isLine then lnCrit h else bitsOf (unAddr h).toNat 4 2

/-! ## Line state (Table 3.9) -/

/-- Line states of Table 3.9. -/
inductive LSt where
  | i | s | e | o | m
  deriving DecidableEq, Repr

/-- The code of Table 3.9. -/
def LSt.code : LSt → Nat
  | .i => 0 | .s => 1 | .e => 2 | .o => 3 | .m => 4

/-- The state of a code; the others are reserved. -/
def LSt.ofCode : Nat → Option LSt
  | 0 => some .i | 1 => some .s | 2 => some .e | 3 => some .o | 4 => some .m
  | _ => none

/-- RESULT codes of Comp (Table 3.10). -/
inductive Res where
  | ok | fail | address | proto
  deriving DecidableEq, Repr

/-- The code of a RESULT. -/
def Res.code : Res → Nat
  | .ok => 0 | .fail => 1 | .address => 2 | .proto => 3

/-! ## Payloads (R85) -/

/-- The four data slots of a line in the order that CRIT `c` gives. -/
def dataSlots (d : Line) (c : Nat) : List Slot :=
  (List.range 4).map (fun k => d.extractLsb' (128 * ((c + k) % 4)) 128)

/-- The line that four data slots carry, with the chunk `c` in slot 1. -/
def lineOfSlots (sl : List Slot) (c : Nat) : Line :=
  BitVec.ofNat 512
    ((sl.take 4).zipIdx.foldl (fun acc p => acc ||| (p.1.toNat <<< (128 * ((c + p.2) % 4)))) 0)

/-- Byte enables of a WrPartial: bytes 0 to 7 of its payload slot 1 (R86). -/
def byteEnOf (sl : List Slot) : BitVec 64 := (sl.headD 0#128).extractLsb' 0 64

/-- The byte enables of an uncached access of `len` bytes at offset `off`. -/
def spanEn (off len : Nat) : BitVec 64 := BitVec.ofNat 64 ((2 ^ len - 1) <<< off)

/-! ## What the device sends -/

/-- A Comp (Table 3.10). -/
def mkComp (txid htag : Nat) (st : LSt) (poison : Bool) (r : Res) (value : Nat) : Msg :=
  { hdr := pack 128 [(0, 6, 0x28), (6, 12, txid), (18, 15, htag), (33, 3, st.code),
      (36, 1, b2n poison), (37, 3, r.code), (64, 64, value)], pay := [] }

/-- A Retry (Table 3.11). -/
def mkRetry (txid reason delay : Nat) (rseq : Word32) : Msg :=
  { hdr := pack 128 [(0, 6, 0x29), (6, 12, txid), (18, 4, reason), (22, 10, delay),
      (32, 32, rseq.toNat)], pay := [] }

/-- A data message (Table 3.13) with its data slots in CRIT order. -/
def mkData (op : Op) (txid htag : Nat) (st : LSt) (poison wait : Bool) (crit tenant : Nat)
    (la : LAddr) (agent : Nat) (d : Line) : Msg :=
  { hdr := pack 128 [(0, 6, op.code), (6, 12, txid), (18, 15, htag), (33, 3, st.code),
      (36, 1, b2n poison), (37, 1, b2n wait), (38, 2, crit), (40, 8, tenant),
      (48, 46, la.toNat), (94, 6, agent)],
    pay := dataSlots d crit }

/-- A snoop (Table 3.6). -/
def mkSnoop (op : Op) (reqTxid htag reqAgent : Nat) (att wait : Bool) (crit tenant : Nat)
    (la : LAddr) (cset cway : Nat) : Msg :=
  { hdr := pack 128 [(0, 6, op.code), (6, 12, reqTxid), (18, 15, htag), (33, 5, reqAgent),
      (38, 1, b2n att), (39, 1, b2n wait), (40, 2, crit), (42, 8, tenant),
      (50, 46, la.toNat), (96, 14, cset), (110, 4, cway)], pay := [] }

/-- An EvtIrq (Table 3.15). -/
def mkEvtIrq (source count : Nat) : Msg :=
  { hdr := pack 128 [(0, 6, 0x38), (6, 8, source), (14, 12, count)], pay := [] }

/-- The atomic's new value (Table 3.4) on `len` bytes, and whether it is written;
none where ATOP is reserved. -/
def atomicOp (atop len old operand cmp : Nat) : Option (Nat × Bool) :=
  let w := 8 * len
  let sgn (x : Nat) : Int := if x < 2 ^ (w - 1) then (x : Int) else (x : Int) - (2 ^ w : Nat)
  match atop with
  | 0 => some ((old + operand) % 2 ^ w, true)
  | 1 => some (old &&& operand, true)
  | 2 => some (old ||| operand, true)
  | 3 => some (old ^^^ operand, true)
  | 4 => some (operand, true)
  | 5 => if old = cmp then some (operand, true) else some (old, false)
  | 6 => some (if sgn old < sgn operand then operand else old, true)
  | 7 => some (if sgn operand < sgn old then operand else old, true)
  | 8 => some (max old operand, true)
  | 9 => some (min old operand, true)
  | _ => none

/-- The constraints of R83 on an uncached header. -/
def uncachedFieldsOk (o : Op) (h : Slot) : Bool :=
  let len := unLen h
  let ad := (unAddr h).toNat
  let pow2 := len = 1 || len = 2 || len = 4 || len = 8
  let atopOk := o = .atomic || unAtop h = 0
  atopOk && (match o with
    | .rdUncached | .wrUncached => 1 ≤ len && len ≤ 64 && ad % 64 + len ≤ 64
    | .ldResv | .stCond => pow2 && ad % len = 0
    | .atomic => pow2 && ad % len = 0 && unAtop h ≤ 9
    | .cBar | .resvClear => ad = 0 && len = 0
    | .svcReq => ad = 0 && len = 64
    | _ => true)

end Sys2Proof.Machine
end

