-- ==== Sys2Proof/Machine/Link.lean ====
section
/-! DEFINITION. One Waisan link (chapter 2): states, codeword pairs, flits, credits,
acknowledgement and replay, training, and the error registers of one half port.  The twin link
uses the same machinery (R347).  Every function here is local to one link; what concerns the rest
of the device leaves as a list of `LinkFx`. -/
namespace Sys2Proof.Machine

/-- Link states (Table 2.8). -/
inductive LinkState where
  | disabled | detect | polling | configure | declare | active | recovery | fenced
  deriving DecidableEq, Repr

/-- The code column of Table 2.8. -/
def LinkState.code : LinkState → Nat
  | .disabled => 0 | .detect => 1 | .polling => 2 | .configure => 3 | .declare => 4
  | .active => 5 | .recovery => 6 | .fenced => 7

/-- What a link-layer step means for the rest of the device. -/
inductive LinkFx where
  /-- Event source 2n: entry of Active, Recovery, Fenced or Disabled (R70). -/
  | stateEvent
  /-- Event source 2n + 1: a lasting or protocol error, or a TRANSIENT multiple (R70). -/
  | errEvent
  /-- The link was fenced: the agent is treated as dead (R60). -/
  | fenced
  /-- The port reset of this link begins (R61). -/
  | portReset
  /-- The link entered Active from Declare or from retraining. -/
  | activated
  /-- The link left Active for Detect or Disabled other than through Recovery (R145). -/
  | left
  deriving DecidableEq, Repr

/-- Fixed differences between a port link and the twin link (R347, R348). -/
structure LinkKind where
  twin : Bool
  /-- Flits the replay buffer holds (R51, R347). -/
  window : Nat
  deriving DecidableEq, Repr

/-- A port link. -/
def portKind : LinkKind := { twin := false, window := 512 }
/-- The twin link. -/
def twinKind : LinkKind := { twin := true, window := 1024 }

/-- The error and protocol-error counters of one link (Tables 2.15, 3.16). -/
structure LinkErr where
  transient : BitVec 16
  lasting : BitVec 8
  fecUncorr : BitVec 8
  firstOp : BitVec 6
  firstWhy : BitVec 4
  firstValid : Bool
  count : BitVec 8
  tenantMis : BitVec 8
  deriving DecidableEq, Repr

/-- All link error fields zero. -/
def LinkErr.zero : LinkErr := ⟨0, 0, 0, 0, 0, false, 0, 0⟩

/-- One link: its training state, its receive side, its transmit side and its declaration. -/
structure Link where
  st : LinkState
  rate : BitVec 2
  width : BitVec 2
  /-- The state a retraining link returns to after Configure (R57); none in first training. -/
  resume : Option LinkState
  pairExp : BitVec 8
  pairBad : Nat
  pairGood : Nat
  resets : Nat
  stopSeq : Bool
  rxNext : BitVec 12
  nak : Bool
  part : Option (List Slot × Nat)
  rxq : List Msg
  rxOcc : Vector Nat 8
  rxCap : Vector Nat 8
  owed : Vector Nat 8
  txNext : BitVec 12
  ackIn : BitVec 12
  replayOf : Option (BitVec 12)
  /-- The awaited flit, received bad twice, is classified already (Table 2.6). -/
  rxJudged : Bool
  /-- The replayed flit whose fault is already classified as lasting (Table 2.6). -/
  txJudged : Option (BitVec 12)
  replay : List (BitVec 12 × Flit)
  credit : Vector Nat 8
  grant : Vector Nat 8
  crOver : Bool
  afterRec : Bool
  withhold : Bool
  txq : List Msg
  wire : List Flit
  fails : Nat
  refusals : Nat
  held : Option Line
  decl : Option Line
  slot : Option Nat
  live : List Nat
  /-- TXIDs of the REQ messages that hold a port request tracker (R26, R62). -/
  trk : List Nat
  replies : List Line
  err : LinkErr
  deriving DecidableEq, Repr

/-- A link as port reset leaves it, in state `st`: STATE Detect or Disabled, every counter 0,
FSEQ 0 and ACKSEQ 4,095. -/
def Link.init (st : LinkState) : Link :=
  { st := st, rate := 0, width := 0, resume := none, pairExp := 0, pairBad := 0, pairGood := 0,
    resets := 0, stopSeq := false, rxNext := 0, nak := false, part := none, rxq := [],
    rxOcc := Vector.replicate 8 0, rxCap := Vector.replicate 8 0, owed := Vector.replicate 8 0,
    txNext := 0, ackIn := 4095#12, replayOf := none, rxJudged := false, txJudged := none, replay := [],
    credit := Vector.replicate 8 0, grant := Vector.replicate 8 0, crOver := false,
    afterRec := false, withhold := false, txq := [], wire := [], fails := 0, refusals := 0,
    held := none, decl := none, slot := none, live := [], trk := [], replies := [], err := LinkErr.zero }

/-! ## Saturating counters -/

/-- A saturating field increased by `n`. -/
def bvSat {w : Nat} (x : BitVec w) (n : Nat) : BitVec w :=
  BitVec.ofNat w (satAdd w x.toNat n)

/-! ## CRC-64 (R40) -/

/-- One bit of the ECMA-182 division, most significant bit first. -/
def crcBit (c : Nat) (b : Bool) : Nat :=
  let d := (c * 2) % 2 ^ 64
  if (c.testBit 63) ^^ b then d ^^^ 0x42F0E1EBA9EA3693 else d

/-- The eight bits of byte `x`, most significant first. -/
def crcByte (c : Nat) (x : Nat) : Nat :=
  (List.range 8).foldl (fun c i => crcBit c (x.testBit (7 - i))) c

/-- The CRC over `n` bytes of `x`, byte 0 first. -/
def crcBytes : Nat → Nat → Nat → Nat
  | 0, _, c => c
  | n + 1, x, c =>
    forced (crcByte c (x % 256)) (fun c => forced (x / 256) (fun y => crcBytes n y c))

/-- The CRC-64 of bytes 0 to 247 of a flit (R40). -/
def flitCrc (f : Flit) : BitVec 64 :=
  BitVec.ofNat 64 (crcBytes 248 f.toNat (2 ^ 64 - 1) ^^^ (2 ^ 64 - 1))

/-- The flit's CRC-64 is right. -/
def flitGood (f : Flit) : Bool := f.extractLsb' 1984 64 = flitCrc f

/-! ## Flit fields (R38, Table 2.3) -/

/-- FTYPE. -/
def flType (f : Flit) : Nat := bitsOf f.toNat 0 4
/-- FSEQ. -/
def flSeq (f : Flit) : BitVec 12 := f.extractLsb' 4 12
/-- ACKSEQ. -/
def flAck (f : Flit) : BitVec 12 := f.extractLsb' 16 12
/-- NAK. -/
def flNak (f : Flit) : Bool := f.toNat.testBit 28
/-- SLOT_START. -/
def flStart (f : Flit) (i : Nat) : Bool := f.toNat.testBit (29 + i)
/-- Slot `i`. -/
def flSlot (f : Flit) (i : Nat) : Slot := f.extractLsb' (64 + 128 * i) 128
/-- CR0_CLASS, CR0_COUNT, CR1_CLASS and CR1_COUNT as two returns. -/
def flCredits (f : Flit) : List (Nat × Nat) :=
  [(bitsOf f.toNat 44 3, bitsOf f.toNat 47 7), (bitsOf f.toNat 54 3, bitsOf f.toNat 57 7)]
/-- SLOT_START, CR0_CLASS and CR1_CLASS are zero, as a NULL flit has them (R41).
DESIGN CHOICE (log entry 91): `these fields` of R41 are the three header fields it names; the slots
of a NULL flit are not looked at. -/
def nullClean (f : Flit) : Bool :=
  bitsOf f.toNat 29 15 = 0 && bitsOf f.toNat 44 3 = 0 && bitsOf f.toNat 54 3 = 0
/-- Every link-header field but FTYPE and every slot is zero (R61). -/
def resetClean (f : Flit) : Bool := bitsOf f.toNat 4 1980 = 0

/-- A flit built from its header fields and slots, with its CRC-64. -/
def mkFlit (ftype fseq ackseq : Nat) (nak : Bool) (starts : Nat) (cr : List (Nat × Nat))
    (slots : List Slot) : Flit :=
  let c0 := cr.headD (0, 0)
  let c1 := (cr.drop 1).headD (0, 0)
  let body := packNat [(0, 4, ftype), (4, 12, fseq), (16, 12, ackseq), (28, 1, b2n nak),
      (29, 15, starts), (44, 3, c0.1), (47, 7, c0.2), (54, 3, c1.1), (57, 7, c1.2)]
    ||| (slots.zipIdx.foldl (fun acc p => acc ||| (p.1.toNat <<< (64 + 128 * p.2))) 0)
  let f : Flit := BitVec.ofNat 2048 body
  BitVec.ofNat 2048 (setBits f.toNat 1984 64 (flitCrc f).toNat)

/-- A flit sent again: ACKSEQ, NAK and the CRC-64 renewed, every other bit as it was (R53). -/
def refreshFlit (f : Flit) (ack : BitVec 12) (nak : Bool) : Flit :=
  let g : Flit := BitVec.ofNat 2048 (setBits (setBits f.toNat 16 12 ack.toNat) 28 1 (b2n nak))
  BitVec.ofNat 2048 (setBits g.toNat 1984 64 (flitCrc g).toNat)

/-! ## Declaration fields (Table 2.11) -/

/-- A little-endian field of the 64-byte declaration. -/
def dclField (d : Line) (byte n : Nat) : Nat := bitsOf d.toNat (8 * byte) (8 * n)
/-- KIND. -/
def dclKind (d : Line) : Nat := dclField d 1 1
/-- SETS_LOG2. -/
def dclSets (d : Line) : Nat := dclField d 2 1
/-- WAYS. -/
def dclWays (d : Line) : Nat := dclField d 3 1
/-- MAX_OUTSTANDING. -/
def dclMaxOut (d : Line) : Nat := dclField d 4 2
/-- AGENT_UID. -/
def dclUid (d : Line) : Nat := dclField d 8 8
/-- KIND is one of the two caching kinds (Table 2.10). -/
def dclCaching (d : Line) : Bool := dclKind d = 0x01 || dclKind d = 0x02

/-- Initial credits the device grants (Table 2.5), by class code, on a ×8 or ×4 link. -/
def devGrant (x4 : Bool) : Vector Nat 8 :=
  if x4 then #v[0, 1024, 1280, 512, 1280, 0, 0, 0] else #v[0, 2048, 2560, 1024, 2560, 0, 0, 0]

/-- Initial credits a twin device grants its partner (R348). -/
def twinGrant : Vector Nat 8 := #v[0, 4096, 256, 256, 0, 256, 0, 0]

/-- The credits an agent granted in its declaration, by class code. -/
def declGrant (d : Line) : Vector Nat 8 :=
  #v[0, 0, 0, dclField d 18 2, dclField d 20 2, dclField d 16 2, dclField d 22 2, 0]

/-- The first failing status of Table 2.12 for a declaration (R63); 0 when it is accepted.
`slots` counts the caching slots held, `trackers` is the link's tracker count. -/
def declStatus (d : Line) (trackers slots : Nat) (portEn : Bool) : Nat :=
  let caching := dclCaching d
  let kindOk := caching || dclKind d = 0x10 || dclKind d = 0x11
  if ¬ (dclField d 0 1 = 1 && kindOk) then 1
  else if ¬ (if caching then 6 ≤ dclSets d && dclSets d ≤ 14 && 1 ≤ dclWays d && dclWays d ≤ 16
      else dclSets d = 0 && dclWays d = 0) then 2
  else if ¬ (1 ≤ dclMaxOut d && dclMaxOut d ≤ trackers) then 3
  else if ¬ (64 ≤ dclField d 18 2 && 320 ≤ dclField d 20 2 && 4 ≤ dclField d 22 2
      && (¬ caching || 64 ≤ dclField d 16 2)) then 4
  else if caching && 16 ≤ slots then 5
  else if ¬ portEn then 6
  else 0

/-- The device reply (Table 2.12). -/
def declReply (status agent slot trackers : Nat) (cr : Vector Nat 8) (epoch role link uid : Nat) :
    Line :=
  pack 512 [(0, 8, 1), (8, 8, status), (16, 8, agent), (24, 8, slot), (32, 16, trackers),
    (64, 16, vget cr 0 clsREQ), (80, 16, vget cr 0 clsEVC), (96, 16, vget cr 0 clsRSP),
    (112, 16, vget cr 0 clsDAT), (128, 32, epoch), (160, 8, role), (168, 8, link),
    (176, 64, uid)]

/-! ## States and counters -/

/-- Enter a state; entering Active, Recovery, Fenced or Disabled raises source 2n (R70). -/
def Link.enter (l : Link) (st : LinkState) : Link × List LinkFx :=
  let ev := st = .active || st = .recovery || st = .fenced || st = .disabled
  ({ l with st := st, pairBad := 0, pairGood := 0 }, if ev then [.stateEvent] else [])

/-- Count a transient error; source 2n + 1 at each multiple of 1,024 (R54, R70). -/
def Link.countTransient (l : Link) : Link × List LinkFx :=
  let t := bvSat l.err.transient 1
  ({ l with err := { l.err with transient := t } },
   if t.toNat % 1024 = 0 && t ≠ l.err.transient then [.errEvent] else [])

/-- Enter Recovery from Active or Declare, keeping sequence numbers, credits and replay (R57). -/
def Link.recover (l : Link) : Link × List LinkFx :=
  let r := { l with resume := some (l.resume.getD l.st), afterRec := l.crOver }
  r.enter .recovery

/-- Count a lasting error, raise source 2n + 1 and enter Recovery (Table 2.6). -/
def Link.lastingError (l : Link) : Link × List LinkFx :=
  let l := { l with err := { l.err with lasting := bvSat l.err.lasting 1 } }
  let (l, fx) := l.recover
  (l, .errEvent :: fx)

/-- Count a protocol error and capture the first (R104, Table 3.16). -/
def Link.perr (l : Link) (op why : Nat) : Link :=
  let e := l.err
  let e := { e with count := bvSat e.count 1 }
  { l with err := if e.firstValid then e else
      { e with firstOp := BitVec.ofNat 6 op, firstWhy := BitVec.ofNat 4 why, firstValid := true } }

/-- Fence the link: flits stop and replay buffers are discarded (R60). -/
def Link.fence (l : Link) : Link × List LinkFx :=
  if l.st = .fenced then (l, [])
  else
    let l := { l with replay := [], replayOf := none, txq := [], part := none, resume := none }
    let (l, fx) := l.enter .fenced
    (l, fx ++ [.fenced])

/-- A protocol error that fences the link: capture, source 2n + 1, fence (R46, R73, R74). -/
def Link.perrFence (l : Link) (op why : Nat) : Link × List LinkFx :=
  let (l, fx) := (l.perr op why).fence
  (l, .errEvent :: fx)

/-! ## Transmit side -/

/-- The ACKSEQ the device sends: the last SEQ flit received in order. -/
def Link.ackOut (l : Link) : BitVec 12 := l.rxNext - 1

/-- The class code of a twin-link message by the low four bits of its first slot (Table 13.1): a record has its RTYPE
there.  DESIGN CHOICE (log entry 52): 13, 14 and 15 mark the ACK, HB and QRY classes. -/
def twinClass (h : Slot) : Nat :=
  let r := bitsOf h.toNat 0 4
  if r = 0 then 0 else if r ≤ 12 then 1 else if r = 13 then 2 else if r = 14 then 3 else 5

/-- The class of a message as the transmitter counts it. -/
def Msg.cls (twin : Bool) (m : Msg) : Nat :=
  if twin then twinClass m.hdr
  else match Op.ofCode (hOp m.hdr) with
    | some o => o.cls
    | none => 0

/-- Slots of a message. -/
def Msg.slots (m : Msg) : Nat := 1 + m.pay.length

/-- The link's port request trackers: 2,048 on a half of a split port, 4,096 otherwise (R62). -/
def Link.trackers (l : Link) : Nat := if l.width = 1 then 2048 else 4096

/-- Every port request tracker of the link is taken (R26). -/
def Link.full (l : Link) : Bool := decide (l.trackers ≤ l.trk.length)

/-- Up to two classes whose freed slots are still to be returned; REQ is left out while the
device withholds it, and while the port request trackers are full (R48, R218). -/
def Link.dueReturns (l : Link) : List (Nat × Nat) :=
  (((List.range 7).filter (fun c => 0 < vget l.owed 0 c && ¬ (c = clsREQ && (l.withhold || l.full)))).map
    (fun c => (c, min 127 (vget l.owed 0 c)))).take 2

/-- Send one SEQ flit carrying `m` (or none) and the credit returns due. -/
def Link.sendSeq (l : Link) (m : Option Msg) (twin : Bool) : Link :=
  let cr := l.dueReturns
  let slots := match m with | none => [] | some m => m.hdr :: m.pay
  let f := mkFlit 1 l.txNext.toNat l.ackOut.toNat l.nak (if m.isSome then 1 else 0) cr slots
  let owed := cr.foldl (fun o p => vset o p.1 (vget o 0 p.1 - p.2)) l.owed
  let credit := match m with
    | none => l.credit
    | some m => vmod l.credit (m.cls twin) (· - m.slots)
  { l with txNext := l.txNext + 1, replay := l.replay ++ [(l.txNext, f)], owed := owed,
           credit := credit, wire := l.wire ++ [f] }

/-- The first queued message of each class that its credits let begin (R45, R46). -/
def Link.nextMsg (l : Link) (twin : Bool) : Option Msg :=
  let rec go : List Nat → List Msg → Option Msg
    | _, [] => none
    | blocked, m :: ms =>
      let c := m.cls twin
      if blocked.contains c then go blocked ms
      else if m.slots ≤ vget l.credit 0 c then some m
      else go (c :: blocked) ms
  go [] l.txq

/-- Send what credits and the replay window allow (R46, R51). -/
def Link.pumpN (k : LinkKind) : Nat → Link → Link
  | 0, l => l
  | n + 1, l =>
    if l.st ≠ .active then l
    else if k.window ≤ (l.txNext - l.ackIn).toNat then l
    else match l.nextMsg k.twin with
      | some m =>
        Link.pumpN k n ({ l with txq := dropFirst (· == m) l.txq }.sendSeq (some m) k.twin)
      | none => if l.dueReturns = [] then l else Link.pumpN k n (l.sendSeq none k.twin)

/-- Send everything that may be sent now. -/
def Link.pump (k : LinkKind) (l : Link) : Link := Link.pumpN k (l.txq.length + 64) l

/-- Queue a message for the partner and send what may be sent. -/
def Link.send (k : LinkKind) (l : Link) (m : Msg) : Link :=
  if l.st = .fenced then l else Link.pump k { l with txq := l.txq ++ [m] }

/-- Send the replay buffer again in order from ACKSEQ + 1. -/
def Link.resend (l : Link) : Link :=
  { l with wire := l.wire ++ l.replay.map (fun p => refreshFlit p.2 l.ackOut l.nak) }

/-- Replay the buffer after a NAK or a timeout: the first flit's fault is now to be classified (R53). -/
def Link.replayAll (l : Link) : Link := { l.resend with replayOf := some (l.ackIn + 1) }

/-- Take the ACKSEQ and NAK of a good flit: covered flits leave the replay buffer, a covered
replayed flit was transient, a NAK starts a replay (R51, R53, R54).  While the link does not carry
SEQ flits the replay that a NAK asks for is the one after Recovery.
DESIGN CHOICE (log entry 91): the receiver sets NAK in every flit until the awaited one arrives
(R52), so a NAK that repeats the ACKSEQ of an outstanding replay starts no further replay. -/
def Link.takeAck (l : Link) (ack : BitVec 12) (nak : Bool) : Link × List LinkFx :=
  let inFlight := (l.txNext - 1 - l.ackIn).toNat
  let adv := (ack - l.ackIn).toNat
  if inFlight < adv then (l, [])
  else
    let covered := match l.replayOf with
      | some n => decide (0 < adv) && decide ((n - l.ackIn).toNat ≤ adv)
      | none => false
    let l := { l with ackIn := ack, replay := l.replay.drop adv }
    let judged := l.txJudged = l.replayOf
    let (l, fx) := if covered then
        let l := { l with replayOf := none, txJudged := none }
        if judged then (l, []) else l.countTransient
      else (l, [])
    if nak && l.st = .active && l.replay ≠ [] && l.replayOf ≠ some (ack + 1) then (l.replayAll, fx) else (l, fx)

/-! ## Receive side -/

/-- What a slot that begins a message says: its class and length, or the protocol error. -/
def msgShape (twin : Bool) (h : Slot) : Option (Nat × Nat) :=
  if twin then
    let c := twinClass h
    if c = 0 then none
    else if c = 1 then some (c, 1 + bitsOf h.toNat 32 1 + bitsOf h.toNat 33 1 + 4 * bitsOf h.toNat 34 1)
    else some (c, 1)
  else match Op.ofCode (hOp h) with
    | some o => if o.fromAgent then some (o.cls, o.slots) else none
    | none => none

/-- A CompAck with TXID `x`. -/
def Msg.isAck (m : Msg) (x : Nat) : Bool := hOp m.hdr = Op.compAck.code && hTxid m.hdr = x

/-- TXID `x` is live on the link: a message with it is answered by no completing message, or the CompAck
that its agent owes has not been received (R74). -/
def Link.isLive (l : Link) (x : Nat) : Bool :=
  decide ((l.rxq.filter (fun m => m.isAck x)).length < l.live.count x)

/-- Deliver a whole message to the crossbar queues; a REQ or EVC message that reuses a live TXID
fences the link (R45, R74). -/
def Link.deliver (l : Link) (twin : Bool) (sl : List Slot) : Link × List LinkFx :=
  let m : Msg := { hdr := sl.headD 0, pay := sl.drop 1 }
  let c := m.cls twin
  let req := ¬ twin && (c = clsREQ || c = clsEVC)
  let t := hTxid m.hdr
  if req && l.isLive t then l.perrFence (hOp m.hdr) 3
  else ({ l with rxq := l.rxq ++ [m], live := if req then l.live ++ [t] else l.live }, [])

/-- Process slot `i` of an accepted SEQ flit (R43, R44, R46, R73).
DESIGN CHOICE (log entry 91): on a length mismatch FIRST_OP takes the opcode of the message that was
interrupted, not of the slot that begins early. -/
def Link.takeSlot (l : Link) (twin : Bool) (start : Bool) (s : Slot) : Link × List LinkFx :=
  match l.part with
  | some (got, need) =>
    if start then l.perrFence (hOp (got.headD 0)) 2
    else if got.length + 1 = need then
      Link.deliver { l with part := none } twin (got ++ [s])
    else ({ l with part := some (got ++ [s], need) }, [])
  | none =>
    if ¬ start then (l, [])
    else match msgShape twin s with
      | none => l.perrFence (hOp s) 1
      | some (c, n) =>
        if vget l.rxCap 0 c < vget l.rxOcc 0 c + n then l.perrFence (hOp s) 9
        else
          let l := { l with rxOcc := vmod l.rxOcc c (· + n) }
          if n = 1 then l.deliver twin [s] else ({ l with part := some ([s], n) }, [])

/-- Process slots `i` to 14 of an accepted SEQ flit, stopping when the link is fenced. -/
def Link.takeSlots (twin : Bool) (f : Flit) : Nat → Link → Link × List LinkFx
  | 0, l => (l, [])
  | n + 1, l =>
    if l.st = .fenced then (l, [])
    else
      let i := 14 - n
      let (l, fx) := l.takeSlot twin (flStart f i) (flSlot f i)
      let (l, fx') := Link.takeSlots twin f n l
      (l, fx ++ fx')

/-- One credit return (R46); a return beyond the initial grant takes the link to Recovery and
restores the grants, and fences the port when it recurs on the first SEQ flit after it (R50).
The reserved class 111b is ignored (R9).
DESIGN CHOICE (log entry 91): the initial grant of a class in which the agent grants the device no
credits is 0, so every return that names such a class is a return beyond it. -/
def Link.takeCredit (l : Link) (c n : Nat) : Link × List LinkFx :=
  if c = 0 || c = 7 || l.st ≠ .active then (l, [])
  else if vget l.credit 0 c + n ≤ vget l.grant 0 c then
    ({ l with credit := vmod l.credit c (· + n) }, [])
  else if l.afterRec then l.fence
  else
    ({ l with credit := l.grant, crOver := true } : Link).recover

/-- The values a link takes on entry to Active at the end of training (Table 2.9 step 6). -/
def Link.freshActive (l : Link) (cap grant : Vector Nat 8) : Link :=
  { l with rxNext := 0, nak := false, part := none, rxq := [], txq := [], rxOcc := Vector.replicate 8 0,
           rxCap := cap, owed := Vector.replicate 8 0, txNext := 0, ackIn := 4095#12,
           replayOf := none, rxJudged := false, txJudged := none, replay := [], credit := grant,
           grant := grant, crOver := false, afterRec := false, live := [], trk := [], fails := 0, refusals := 0, stopSeq := false,
           resume := none }

/-- A good SEQ flit in Active: accepted in FSEQ order, else discarded with its ACKSEQ, NAK and credit
returns; one that lies ahead of the expected flit sets NAK (R52). -/
def Link.takeSeq (l : Link) (k : LinkKind) (f : Flit) : Link × List LinkFx :=
  if l.stopSeq then (l, [])
  else if flSeq f = l.rxNext then
    let (l, fx0) := if l.nak && ¬ l.rxJudged then ({ l with nak := false } : Link).countTransient else (l, [])
    let l := { l with rxNext := l.rxNext + 1, nak := false, rxJudged := false }
    let (l, fx1) := l.takeAck (flAck f) (flNak f)
    let (l, fx2) := match flCredits f with
      | [a, b] =>
        let (l, x) := l.takeCredit a.1 a.2
        let (l, y) := l.takeCredit b.1 b.2
        (l, x ++ y)
      | _ => (l, [])
    let l := if l.st = .active then { l with afterRec := false, crOver := false } else l
    let (l, fx3) := Link.takeSlots k.twin f 15 l
    (l, fx0 ++ fx1 ++ fx2 ++ fx3)
  else
    let ahead := decide ((flSeq f - l.rxNext).toNat < 2048)
    ({ l with nak := l.nak || ahead }, [])

/-- A flit that fails its CRC-64 or lies in an uncorrectable pair: NAK is set; when it reads as
the replay of the flit awaited, the fault is lasting (R52, R54).
DESIGN CHOICE (log entry 91): what type a bad flit had cannot be known, so any bad flit is taken for
a SEQ flit and sets NAK. -/
def Link.takeBad (l : Link) (f : Flit) : Link × List LinkFx :=
  if l.st ≠ .active || l.stopSeq then ({ l with resets := 0 }, [])
  else if l.nak && flType f = 1 && flSeq f = l.rxNext then
    ({ l with resets := 0, rxJudged := true } : Link).lastingError
  else ({ l with nak := true, resets := 0 }, [])

/-- The link is in a state in which the device takes RESET flits (R61). -/
def Link.takesReset (l : Link) : Bool :=
  l.st = .active || l.st = .recovery || l.st = .configure || l.st = .declare || l.st = .fenced

/-- A NULL flit's ACKSEQ and NAK are taken: in Active, and while the link trains again with its state
kept (R41, Table 2.8). -/
def Link.takesNull (l : Link) : Bool :=
  l.st = .active || (l.resume = some .active && (l.st = .recovery || l.st = .configure))

/-- One flit of a received pair; `cap` and `grant` are the credits a link entering Active takes.
DESIGN CHOICE (log entry 91): a malformed RESET flit is discarded as if it had not come, so it
does not break a run of RESET flits (R61). -/
def Link.takeFlit (k : LinkKind) (cap grant : Vector Nat 8) (bad : Bool) (f : Flit) (l : Link) :
    Link × List LinkFx :=
  if bad || ¬ flitGood f then l.takeBad f
  else if flType f = 2 then
    if l.takesReset && resetClean f && ¬ k.twin then
      if l.resets + 1 = 4 then ({ l with resets := 0, stopSeq := true }, [.portReset])
      else ({ l with resets := l.resets + 1 }, [])
    else (l, [])
  else
    let l := { l with resets := 0 }
    if flType f = 0 then
      if nullClean f && l.takesNull then l.takeAck (flAck f) (flNak f) else (l, [])
    else if flType f = 1 then
      if l.st = .declare && l.decl.isSome && flSeq f = 0 && ¬ l.stopSeq then
        let (l, fx) := (l.freshActive cap grant).enter .active
        let (l, fx') := l.takeSeq k f
        (l, fx ++ [.activated] ++ fx')
      else if l.st = .active then l.takeSeq k f
      else (l, [])
    else (l, [])

/-- The flits of a pair in order. -/
def Link.takeFlits (k : LinkKind) (cap grant : Vector Nat 8) (bad : Bool) :
    List Flit → Link → Link × List LinkFx
  | [], l => (l, [])
  | f :: fs, l =>
    let (l, fx) := Link.takeFlit k cap grant bad f l
    if fx.contains .portReset then (l, fx)
    else
      let (l, fx') := Link.takeFlits k cap grant bad fs l
      (l, fx ++ fx')

/-- The link returns to the state it left: transmission and replay resume at ACKSEQ + 1 (R54, R57).
DESIGN CHOICE (log entry 91): a link that entered Recovery from Declare returns to Declare. -/
def Link.resumeTo (k : LinkKind) (l : Link) (r : LinkState) : Link × List LinkFx :=
  let (l, fx) := ({ l with resume := none } : Link).enter r
  if r = .active then (Link.pump k l.resend, fx ++ [.activated]) else (l, fx)

/-- The pair header: MARKER and PAIR_CNT against the expected values; after 8 wrong decoded pairs
alignment is lost and the link enters Recovery (R36); 16 pairs with MARKER right end Configure
(Table 2.9 step 3, R57). -/
def Link.takeHeader (k : LinkKind) (l : Link) (bad : Bool) (hdr : BitVec 40) : Link × List LinkFx :=
  let marker := hdr.extractLsb' 0 16 = 0x5AC3#16
  let cnt : BitVec 8 := hdr.extractLsb' 16 8
  if l.st = .configure then
    if bad || ¬ marker then ({ l with pairGood := 0 }, [])
    else if l.pairGood + 1 < 16 then ({ l with pairGood := l.pairGood + 1, pairExp := cnt + 1 }, [])
    else
      let l := { l with pairExp := cnt + 1 }
      match l.resume with
      | some r => l.resumeTo k r
      | none => l.enter .declare
  else if bad then ({ l with pairExp := l.pairExp + 1 }, [])
  else if marker && cnt = l.pairExp then ({ l with pairExp := l.pairExp + 1, pairBad := 0 }, [])
  else if l.pairBad + 1 < 8 then
    ({ l with pairExp := l.pairExp + 1, pairBad := l.pairBad + 1 }, [])
  else if l.st = .active || l.st = .declare then
    ({ l with pairExp := cnt + 1 } : Link).recover
  else ({ l with pairExp := cnt + 1, pairBad := 0 }, [])

/-- A NULL flit with the present ACKSEQ and NAK (R42). -/
def Link.nullFlit (l : Link) : Flit := mkFlit 0 0 l.ackOut.toNat l.nak 0 [] []

/-- A NULL flit leaves. -/
def Link.sendNull (l : Link) : Link := { l with wire := l.wire ++ [l.nullFlit] }

/-- The device's reply to a declaration leaves in slots 0 to 3 of a TRAIN flit (Table 2.9 step 5). -/
def Link.sendReply (l : Link) (r : Line) : Link :=
  { l with replies := l.replies ++ [r],
           wire := l.wire ++ [mkFlit 3 0 l.ackOut.toNat l.nak 0 [] (dataSlots r 0)] }

/-- The link carries codeword pairs that the device receives. -/
def Link.receives (l : Link) : Bool :=
  l.st = .configure || l.st = .declare || l.st = .active || l.st = .recovery || l.st = .fenced

/-- A codeword pair with `errA` and `errB` symbol errors in its codewords (R36): up to 15 in each
are corrected; otherwise all five flits fail. -/
def Link.takePair (k : LinkKind) (cap grant : Vector Nat 8) (l : Link) (errA errB : Nat)
    (hdr : BitVec 40) (flits : List Flit) : Link × List LinkFx :=
  if ¬ l.receives then (l, [])
  else
    let bad := decide (15 < errA) || decide (15 < errB)
    let l := if bad then
        { l with err := { l.err with fecUncorr := bvSat l.err.fecUncorr 1 } } else l
    let (l, fx) := if l.st = .fenced then (l, []) else Link.takeHeader k l bad hdr
    let (l, fx') := Link.takeFlits k cap grant bad flits l
    let l := if l.st = .active then (Link.pump k l).sendNull else l
    (l, fx ++ fx')

/-- A message leaves the receive buffer: its slots are freed and owed to the partner (R46). -/
def Link.consume (l : Link) (twin : Bool) (h : Slot) : Link :=
  match l.rxq.find? (fun m => m.hdr = h) with
  | none => l
  | some m =>
    { l with rxq := dropFirst (fun m => m.hdr = h) l.rxq,
             rxOcc := vmod l.rxOcc (m.cls twin) (· - m.slots),
             owed := vmod l.owed (m.cls twin) (· + m.slots) }

/-- The messages of class `c` in the receive buffer, oldest first (R45). -/
def Link.ofClass (l : Link) (c : Nat) : List Msg := l.rxq.filter (fun m => m.cls false = c)

/-- The messages that leave the receive buffer when the one with header `h` is delivered: it and those
of its class that came before it (R45). -/
def Link.upTo (l : Link) (c : Nat) (h : Slot) : List Msg :=
  let q := l.ofClass c
  q.take ((q.findIdx (fun m => m.hdr = h)) + 1)

/-! ## Training and recovery -/

/-- A link starts Detect afresh. -/
def Link.toDetect (l : Link) : Link × List LinkFx :=
  ({ l with resume := none, decl := none, held := none, rate := 0 } : Link).enter .detect

/-- A third consecutive Configure or Declare failure disables the link, with its event; an
earlier one returns it to Detect (R56). -/
def Link.trainFail (l : Link) : Link × List LinkFx :=
  if l.fails + 1 < 3 then
    let (l, fx) := ({ l with fails := l.fails + 1 } : Link).toDetect
    (l, fx)
  else ({ l with fails := 0, decl := none, held := none, resume := none } : Link).enter .disabled

/-- Polling exceeded its limit: the next lower rate, or Detect after 28 Gbit/s (R56); a link that
was retraining with its state kept has no lower rate to fall to and is fenced (R57). -/
def Link.pollFail (l : Link) : Link × List LinkFx :=
  if l.st ≠ .polling then (l, [])
  else if l.rate.toNat < 2 then ({ l with rate := l.rate + 1 }, [])
  else if l.resume.isSome then l.fence
  else l.toDetect

/-- Halve the device's credits for a link degraded to ×4 (R59). -/
def Link.halveCredits (l : Link) : Link := { l with rxCap := devGrant true }

/-- Recovery exceeded 8 µs (R57, R59): retrain ×4 on the healthy half, or at the next lower rate,
or fence.  `faults` are the lanes found faulty. -/
def Link.recoveryFail (l : Link) (allowDegrade split : Bool) (faults : BitVec 8) :
    Link × List LinkFx :=
  if l.st ≠ .recovery then (l, [])
  else if ¬ allowDegrade then l.fence
  else
    let low := faults.extractLsb' 0 4
    let high := faults.extractLsb' 4 4
    if split && faults ≠ 0 then l.fence
    else if ¬ split && l.width = 0 && low ≠ 0 && high = 0 then
      ({ l.halveCredits with width := 3 } : Link).enter .polling
    else if ¬ split && l.width = 0 && low = 0 && high ≠ 0 then
      ({ l.halveCredits with width := 2 } : Link).enter .polling
    else if l.rate.toNat < 2 then ({ l with rate := l.rate + 1 } : Link).enter .polling
    else l.fence

/-- Recovery ended (R57): back to the state the link left, and transmission resumes at
ACKSEQ + 1. -/
def Link.recoveryDone (k : LinkKind) (l : Link) : Link × List LinkFx :=
  if l.st ≠ .recovery then (l, [])
  else l.resumeTo k (l.resume.getD .active)

/-- ACKSEQ did not advance for REPLAY_TIMEOUT (R53, R54): replay as for a NAK; when the flit was
already being replayed, its first replay failed too and the fault is lasting. -/
def Link.replayTimeout (l : Link) : Link × List LinkFx :=
  if l.st ≠ .active || l.replay = [] then (l, [])
  else if l.replayOf = some (l.ackIn + 1) then
    ({ l with txJudged := l.replayOf } : Link).lastingError
  else (l.replayAll, [])

/-- Detect ended: training moves to Polling at the highest rate offered (Table 2.9). -/
def Link.laneDetect (l : Link) (maxRate : BitVec 2) (width : BitVec 2) : Link × List LinkFx :=
  if l.st ≠ .detect then (l, [])
  else ({ l with rate := maxRate, width := width } : Link).enter .polling

/-- Polling ended: Configure begins (Table 2.9). -/
def Link.pollDone (l : Link) : Link × List LinkFx :=
  if l.st ≠ .polling then (l, []) else l.enter .configure

end Sys2Proof.Machine
end

