-- ==== Sys2Proof/Machine/FabTypes.lean ====
section
/-! DEFINITION. The state of the fabric: home slices, Granary, caches, memories and their queues,
ordering units, prefetch units, Harrow, integrity and Gleaner, twin link, taps.  Plain data only. -/
namespace Sys2Proof.Machine

/-! ## Memories and caches -/

/-- A stored code word: its 64 data bytes and its poison marker PM (R296). -/
structure CWord where
  data : Line
  pm : Bool
  deriving DecidableEq, Repr

/-- A good word of zeros. -/
def CWord.zero : CWord := ⟨0, false⟩

/-- A sector with SV = 1 (Table 6.2). -/
structure Sector where
  valid : BitVec 64
  dirty : BitVec 64
  poison : BitVec 64
  tag : BitVec 22
  rrpv : BitVec 2
  lock : Bool
  stby : Bool
  tenant : BitVec 8
  deriving DecidableEq, Repr

/-- A tag-cache entry: the set, way and TAG it holds, TCD and TCR (Table 6.2).  Its SV is whether the sector
store still has that way. -/
structure TcEntry where
  set : Nat
  way : Nat
  tag : Nat
  tcd : Bool
  tcr : Bool
  deriving DecidableEq, Repr

/-- A Cober line tag (Table 6.7). -/
structure CLine where
  ctag : BitVec 32
  v : Bool
  d : Bool
  p : Bool
  lock : Bool
  tenant : BitVec 8
  deriving DecidableEq, Repr

/-- A Granary entry word (Table 5.2) with its array fault mark (R152). -/
structure GEntry where
  la : LAddr
  st : LSt
  deriving DecidableEq, Repr

/-- Who is served by a queued memory access. -/
inductive Owner where
  /-- Nobody waits: a fill, scrub, tag or map update. -/
  | none
  /-- The demand read or the end-point write of a tracker. -/
  | txn (slice idx : Nat)
  /-- A write-through of a line stored dirty: DIRTY clears when it is accepted (Table 6.6). -/
  | through (la : LAddr)
  /-- A speculative backing read of a tracker (R164). -/
  | spec (slice idx : Nat)
  /-- A tag-store or Cober line-tag read of a tracker (R163, R185). -/
  | tags (slice idx : Nat)
  /-- A zero-map word read of a tracker (R280). -/
  | map (slice idx : Nat)
  /-- A zero-map word read of a prefetch (R280). -/
  | pmap (slice : Nat) (la : LAddr)
  /-- A prefetch's backing read (R202). -/
  | prefetch (slice : Nat) (la : LAddr)
  /-- The DDR5 no-byte merge of a scrub (R313). -/
  | scrub
  /-- One of the 64 writes of a page fill; the tracker and backing page (R282). -/
  | fill (slice idx : Nat)
  /-- A Gleaner patrol read (R314). -/
  | patrol
  deriving DecidableEq, Repr

/-- An entry of a channel queue (R192, R276): a read or write of one 64-byte word. -/
structure MemReq where
  word : Nat
  write : Bool
  cls : Nat
  aged : Bool
  acc : Bool
  again : Bool
  data : Line
  be : BitVec 64
  pois : Bool
  who : Owner
  deriving DecidableEq, Repr

/-! ## Home transactions -/

/-- What a Harrow line request does (Table 9.4, Table 9.3). -/
inductive HAct where
  | clean (scope : Bool)
  | inval
  | flush
  | invalNowb (scope : Bool)
  | write
  | read
  | atomic (entry : Nat)
  | reclaim
  | lock
  | unlock
  deriving DecidableEq, Repr

/-- Who a home transaction works for. -/
inductive Who where
  /-- An agent's request or eviction; `ord` is its write-buffer entry, where it has one. -/
  | agent (a : Nat) (ord : Option Nat)
  /-- Line `k` of the Harrow descriptor with this ticket. -/
  | harrow (ticket k : Nat)
  /-- A Gleaner line request (R315), with the lasting fault that the patrol found where it found one. -/
  | gleaner (found : Option Dec)
  /-- The departure walk of a caching slot (R146). -/
  | walk (slot loc : Nat)
  /-- A displacement reclaim for a location (R142). -/
  | reclaim (agent loc : Nat)
  /-- A victim-eviction operation of a sector way or Cober way (R174). -/
  | victim (key sub : Nat)
  /-- A reconcile transaction of the failover (R367). -/
  | reconcile (agent : Nat) (rseq : Word32)
  deriving DecidableEq, Repr

/-- The kinds of home work. -/
inductive TOp where
  | req (o : Op)
  | harrow (h : HAct)
  | correct
  | walk
  | reclaim
  | victim
  | reconcile
  /-- A marker: the clear of a reservation that an ordering unit sends to a slice (R232, R234). -/
  | resvClear
  deriving DecidableEq, Repr

/-- One snoop that a tracker sent (R112, R126). -/
structure Snoop where
  agent : Nat
  op : Op
  att : Bool
  wait : Bool
  cset : Nat
  cway : Nat
  /-- The response: its message, KEPT and LOCMIS. -/
  resp : Option (Op × Nat × Bool)
  dataIn : Option (Line × Bool)
  done : Bool
  deriving DecidableEq, Repr

/-- How a write reaches the home copy (Table 6.6). -/
inductive WKind where
  | full | part | wb | coh | harrow
  deriving DecidableEq, Repr

/-- One step of a transaction's program; a step that cannot proceed blocks the tracker. -/
inductive Micro where
  /-- Take the line's blocked flag in acceptance order (R109, R110). -/
  | line
  /-- Look up the Granary and choose the row of Table 4.3; waits out holds (R113) and rebuilds. -/
  | look
  /-- Log an INTENT and await its acknowledgement in twin mode. -/
  | intent
  /-- Send snoops (agent, opcode, WAIT). -/
  | snoop (l : List (Nat × Op × Bool))
  /-- Await every snoop's answer. -/
  | snoops
  /-- Write the requester's Granary entry (R139, R141). -/
  | record (st : LSt)
  /-- Await the side program. -/
  | join
  /-- Look up the tag. -/
  | tag
  /-- Allocate where the policy says so, for a write or a read. -/
  | alloc (w : Bool)
  /-- Load the sector's entry into the tag cache: a newly allocated one, or one found since (R163, R166). -/
  | tcload (new : Bool)
  /-- Take the request's own bytes as the write to perform. -/
  | loadReq
  /-- Grant again after a forward that its owner did not serve: the U row of Table 4.3, or the
  state given (R128). -/
  | regrant (st : Option LSt)
  /-- Obtain the line's data from the home copy. -/
  | fetch
  /-- Await the data asked for by `fetch`. -/
  | data
  /-- Merge the fetched word with the write's bytes (Table 11.4). -/
  | merge
  /-- Compute an atomic or decide a StCond (R235, R236). -/
  | compute
  /-- Store the write by Table 6.6. -/
  | store (k : WKind)
  /-- Await the write's end point. -/
  | endPoint
  /-- Take the fetched data as a whole-line write, poisoned. -/
  | poisonGot
  /-- Take returned owner data as a whole-line write. -/
  | takeData (d : Line) (p : Bool)
  /-- Hand a log record to the twin link and await it in twin mode (R24, R356). -/
  | log
  /-- The same, where the request has written the home copy (Table 13.5, GRANT). -/
  | logData
  /-- Send DataHome (R98). -/
  | dataHome
  /-- Send CompData with this state. -/
  | compData (st : LSt)
  /-- Send Comp. -/
  | comp (st : LSt) (r : Res)
  /-- Await the requester's CompAck. -/
  | ack
  /-- Act on the walked entry: the home copy is poisoned where it was E, M or O, then the entry goes. -/
  | walkRemove
  /-- Unlink and remove the entry at a location, where it is still the line's (R146). -/
  | unlink (loc : Nat)
  /-- A held eviction: waits for the agent's answer to the outstanding snoop (R112). -/
  | held
  /-- Apply an eviction by Table 4.4. -/
  | evict
  /-- Act on a Harrow line's cached copy after its snoops. -/
  | hline
  /-- The Gleaner's act on the line (R315). -/
  | gline
  /-- Read a victim's sub-block for eviction. -/
  | vread
  /-- Write the fetched word to backing memory. -/
  | vwrite
  /-- Clear the sub-block's VALID, DIRTY and POISON. -/
  | clearSub
  /-- Clear DIRTY of the sub-block. -/
  | cleanSub
  /-- Consult the page's zero-map word (R280). -/
  | mapq
  /-- Issue the backing read, or take a speculative or promoted one. -/
  | bread
  /-- Place a write in the DDR5 queue, filling a marked page first (R282). -/
  | bwrite (through : Bool)
  /-- Log a WRITE record and await it in twin mode (R21, R303). -/
  | logWrite
  /-- Rewrite the stored word poisoned with its data as read (R302). -/
  | rewrite (d : Line)
  /-- Write a corrected word back for the Gleaner (R315). -/
  | mend (word : Nat) (d : Line)
  /-- Await the page fill (R282). -/
  | fillWait (through : Bool)
  /-- Place the further aligned parts of an unaligned write, one in each slice cycle (R228). -/
  | parts (l : List (Nat × Nat))
  deriving DecidableEq, Repr

/-- What the tag lookup of a transaction found. -/
inductive TagRes where
  /-- Not looked up. -/
  | unknown
  /-- A sector way: key 10 S + W. -/
  | sector (key : Nat)
  /-- A Cober way: key CSETX × 16 + w. -/
  | cober (key : Nat)
  /-- Absent. -/
  | absent
  /-- Absent in a set with a tag-lost way: reads are poisoned, writes bypass (R316). -/
  | lost
  /-- The line is not cached at all: UCN, DEV, or CACHE_EN = 0. -/
  | uncached
  deriving DecidableEq, Repr

/-- A home tracker (R109) and the program that its request runs. -/
structure Txn where
  slice : Nat
  idx : Nat
  seq : Nat
  who : Who
  op : TOp
  hdr : Slot
  la : LAddr
  rgn : Option Region
  data : Line
  be : BitVec 64
  pois : Bool
  opnd : Slot
  blk : Bool
  todo : List Micro
  side : List Micro
  snoops : List Snoop
  /-- Data obtained: bytes, poison, and whether backing memory supplied them. -/
  got : Option (Line × Bool × Bool)
  /-- The pending fetch: waits for memory. -/
  asked : Bool
  tagr : TagRes
  /-- The tag-store read: 0 not asked, 1 asked, 2 returned and waiting for a tag-cache way,
  3 as 2 with the wait counted (R166). -/
  tagStage : Nat
  noalloc : Bool
  allocating : Bool
  /-- A speculative read: none, asked for, or returned. -/
  spec : Option (Option (Line × Bool))
  /-- The page's zero-map word is awaited (R280). -/
  mapAsked : Bool
  /-- The write being performed. -/
  wd : Line
  wbe : BitVec 64
  wpo : Bool
  wend : Bool
  txids : List Nat
  errSeen : Bool
  pfHit : Bool
  dead : Bool
  result : Res
  value : Nat
  grant : LSt
  servePois : Bool
  ackIn : Bool
  ackDue : Bool
  gate : Option (Nat × Nat)
  fwd : Bool
  dup : Bool
  /-- A read of it succeeded on its re-read (R301). -/
  retried : Bool
  /-- When its record reached the bank of an occupied location, in acceptance numbers (R141). -/
  bankAt : Nat
  deriving DecidableEq, Repr

/-- A message at a slice arbiter (R111): the slice cycles it has waited, its class (0 eviction,
1 agent, 2 Harrow, 3 Gleaner), port, half and content. -/
structure Arr where
  cyc : Nat
  cls : Nat
  port : Nat
  half : Nat
  who : Who
  op : TOp
  hdr : Slot
  la : LAddr
  data : Line
  be : BitVec 64
  pois : Bool
  opnd : Slot
  txids : List Nat
  deriving DecidableEq, Repr

/-- The counters of HOM_s_CSTAT (Table 4.13). -/
structure HomStat where
  snpTransient : BitVec 16
  dead : BitVec 4
  holdEvict : BitVec 8
  fault : BitVec 4
  /-- Holds ended by overflow, modulo 256: each 256th raises source 42 + 3s (R132). -/
  overflows : BitVec 8
  deriving DecidableEq, Repr

/-- A hold of R113: the line, the agent it protects; oldest expiry first. -/
structure Hold where
  slice : Nat
  la : LAddr
  agent : Nat
  deriving DecidableEq, Repr

/-- The registers of one Granary bank (Tables 5.9 to 5.11). -/
structure GrnBank where
  locmis : BitVec 8
  locMis : BitVec 8
  displaceTo : BitVec 8
  corr : BitVec 8
  transient : BitVec 16
  lasting : BitVec 4
  rebuild : Bool
  taintSet : Bool
  capLoc : BitVec 22
  capKind : BitVec 2
  capValid : Bool
  deriving DecidableEq, Repr

/-- How the second read of a Granary word ends (R149): good, good after the correction of a single-bit error,
or bad. -/
inductive GRead where
  | good | corrected | bad
  deriving DecidableEq, Repr

/-- A caching slot (Table 5.12): the agent that holds it and the walk's next row. -/
structure CSlot where
  agent : Option Nat
  walk : Option Nat
  deriving DecidableEq, Repr

/-- The Granary (chapter 5).  `order` lists the recorded locations in link order: the chain of a
bucket is the part of it whose lines hash to that bucket (R136). -/
structure Granary where
  entries : Tab GEntry
  order : List Nat
  taint : List (Nat × BitVec 18)
  key : Word64
  banks : Vector GrnBank 8
  slots : Vector CSlot 16
  /-- Words asked of the partner (R151). -/
  queries : List Nat
  deriving DecidableEq, Repr

/-- Per-slice tag-pipeline, zero-map and prefetch counters (Tables 6.10, 7.6 to 7.8, 10.8). -/
structure SliceStat where
  noalloc : BitVec 16
  pinWait : BitVec 16
  issued : BitVec 16
  dropped : BitVec 16
  used : BitVec 16
  late : BitVec 16
  cancelled : BitVec 16
  specDiscard : BitVec 16
  zeroReads : BitVec 16
  pageFills : BitVec 12
  lost : BitVec 3
  lostSet : Bool
  deriving DecidableEq, Repr

/-- The caches: sectored store, tag cache, Cober partition, lost lists (chapter 6, R316). -/
structure Cache where
  sectors : Tab Sector
  tc : Tab TcEntry
  cober : Tab CLine
  plru : Tab (BitVec 16)
  /-- Tag-lost ways: (set, way), and (Cober set + 2^21, way). -/
  lostList : List (Nat × Nat)
  deriving DecidableEq, Repr

/-- The memories, the zero-map and the channel queues (chapters 7 and 10). -/
structure Mem where
  hbm : Tab CWord
  ddr : Tab CWord
  /-- Backing pages that are not marked in the zero-map. -/
  unmarked : Tab Unit
  /-- Map words whose summary bit is 0, keyed slice × 2^22 + word (R280). -/
  sumClear : Tab Unit
  /-- Map words cached by each slice, least recently used first (R280). -/
  mapCache : Vector (List Nat) 8
  /-- Lost map words (R284). -/
  lostWords : List Nat
  /-- Map copies found bad: (word, mirror). -/
  mapBad : List (Nat × Bool)
  hq : List MemReq
  dq : List MemReq
  /-- Open DDR5 rows, as row keys of R310 (R277). -/
  openRows : List Nat
  /-- HBM rows kept open because another queued access hits them, as row keys of R310 (R277). -/
  hbmRows : List Nat
  /-- Refreshes postponed: (HBM bank key or DDR5 bank key + 2^20, count) (R268, R272). -/
  refresh : Tab Nat
  /-- r of R274 and the common population. -/
  rbits : Nat
  /-- Bytes read and written per controller tap 0 to 9 in the present segment (R385). -/
  tapBytes : Vector (Nat × Nat) 10
  deriving DecidableEq, Repr

/-! ## Ordering units -/

/-- Kinds of items in an ordering unit (Table 8.2). -/
inductive OKind where
  | entry | read | ldresv | cbar | resvClear
  deriving DecidableEq, Repr

/-- An item held by an ordering unit: a write-buffer entry, a waiting read or a marker. -/
structure OItem where
  id : Nat
  kind : OKind
  op : Op
  hdr : Slot
  la : LAddr
  data : Line
  be : BitVec 64
  pois : Bool
  tenant : Nat
  opnd : Slot
  /-- TXIDs whose Comps leave at the end point (merged writes keep theirs, R221). -/
  txids : List Nat
  typ : RType
  /-- Entries that a waiting read or LdResv overlaps (R222, R223). -/
  waits : List Nat
  inBuf : Bool
  released : Bool
  endp : Bool
  deriving DecidableEq, Repr

/-- One agent's ordering unit (R217, Tables 8.9, 8.10). -/
structure Ord where
  items : List OItem
  nextId : Nat
  lastSlice : Option Nat
  /-- Entries freed by their tokens but short of their end point (R226). -/
  short : List Nat
  /-- Tokens and end-point notices on their way back. -/
  tokens : List Nat
  notices : List Nat
  orphaning : Bool
  /-- Orphaned writes have been completed since the departure (R240). -/
  orphaned : Bool
  /-- The granule of the agent's last LdResv: its slice holds the reservation (R232). -/
  resvAt : Option LAddr
  stcFail : BitVec 8
  orphan : BitVec 8
  merged : BitVec 16
  forwarded : BitVec 16
  deriving DecidableEq, Repr

/-- An empty ordering unit. -/
def Ord.init : Ord :=
  { items := [], nextId := 0, lastSlice := none, short := [], tokens := [], notices := [],
    orphaning := false, orphaned := false, resvAt := none, stcFail := 0, orphan := 0, merged := 0, forwarded := 0 }

/-! ## Prefetch -/

/-- A queued or issued prefetch of a line (R199 to R203). -/
structure Pf where
  slice : Nat
  la : LAddr
  agent : Nat
  issued : Bool
  cancelled : Bool
  promoted : Bool
  key : Option (Bool × Nat)
  /-- It waits for its page's zero-map word (R280). -/
  mapAsked : Bool
  deriving DecidableEq, Repr

/-- A prefetch-record entry (R204). -/
structure PfRec where
  slice : Nat
  la : LAddr
  agent : Nat
  shadow : Bool
  deriving DecidableEq, Repr

/-- A stream of a PFU (R206); `key` is (agent, STREAM) or (agent, 8 + A[51:22]). -/
structure Stream where
  pfu : Nat
  agent : Nat
  key : Nat
  last : Int
  stride : Int
  conf : Nat
  next : Int
  deriving DecidableEq, Repr

/-- A training record on the ring (R206). -/
structure Train where
  agent : Nat
  stream : Nat
  la : LAddr
  deriving DecidableEq, Repr

/-- The prefetch unit (chapter 7). -/
structure Pfu where
  mode : BitVec 32
  queue : List Pf
  record : List PfRec
  /-- Per agent: resolved and used counts (R205). -/
  counts : Vector (Nat × Nat) 32
  streams : List Stream
  training : List Train
  targets : List (Nat × LAddr)
  /-- Resolutions on their way to PFU 0: (agent, used). -/
  reports : List (Nat × Bool)
  stopped : Bool
  /-- Issue stops while a slice die is above 105 °C (R528). -/
  throttled : Bool
  deriving DecidableEq, Repr

/-! ## Harrow -/

/-- A descriptor in a queue (Tables 9.1, 9.2) with its progress and completion counts. -/
structure Desc where
  ticket : Nat
  /-- 0 to 15 host, 16 BMC, 17 + a agent, 49 and 50 internal. -/
  queue : Nat
  raw : Line
  running : Bool
  /-- Issue has stopped: 1 aborted, 2 cut short by a drain. -/
  stop : Nat
  /-- Next line of the first pass, counted as a line address or along the range. -/
  pos : Nat
  /-- Next line of the second pass: destination lines, or BATCH entries. -/
  wpos : Nat
  /-- Next line of the third pass: source lines of a MOVE. -/
  mpos : Nat
  /-- Pages marked so far, counted along the range. -/
  marked : Nat
  nextK : Nat
  /-- Line requests issued and not answered: (number, pass, line). -/
  flight : List (Nat × Nat × Nat)
  /-- Read data awaiting use: (line, data, poison). -/
  reads : List (Nat × Line × Bool)
  /-- Line writes that are ready: (line, data, byte enables, poison). -/
  wq : List (Nat × Line × BitVec 64 × Bool)
  locked : List Nat
  notLocked : Nat
  lockedCnt : Nat
  result : Nat
  poisoned : Nat
  transient : Nat
  progress : Nat
  status : Nat
  /-- The completion record is being written. -/
  recording : Bool
  /-- Accepted by the partner: a mirror copy (R260). -/
  mirror : Bool
  partnerDone : Bool
  /-- Ended: its completion record waits for the acknowledgement of its HRW record (Table 13.5). -/
  ending : Bool
  /-- Line requests that took effect on either device of a pair, as their progress marks name them (R260). -/
  marks : List Nat
  /-- Taken over: the lines that the other device left are still to be gone through (R260). -/
  rescan : Bool
  /-- The record that its acceptance word or completion record waits for. -/
  gate : Option (Nat × Nat)
  /-- The TXID whose Comp is owed at acceptance. -/
  owed : Option Nat
  deriving DecidableEq, Repr

/-- An answer of a slice to a Harrow line (R247). -/
structure HAns where
  ticket : Nat
  k : Nat
  data : Line
  pois : Bool
  wrote : Bool
  locked : Option Nat
  lockRes : Nat
  transient : Bool
  fail : Bool
  value : Nat
  deriving DecidableEq, Repr

/-- The Harrow (chapter 9). -/
structure Harrow where
  descs : List Desc
  nextTicket : Nat
  /-- Ended descriptors kept for HARROW_QUERY and the Steward. -/
  ended : List Desc
  /-- SvcReqs released to the Harrow that wait for a slot: (agent, entry, TXID, descriptor). -/
  waiting : List (Nat × Nat × Nat × Line)
  ring : List (Nat × Line)
  ringSeq : Nat
  /-- Completion records that wait for a place among the ring's 256 (R249). -/
  ringLate : List Line
  rr : Nat
  answers : List HAns
  paused : Bool
  /-- Step 2 of a drain has come: cut descriptors end (R259). -/
  cutting : Bool
  poisoned : BitVec 16
  aborted : BitVec 8
  refused : BitVec 8
  deriving DecidableEq, Repr

/-! ## Integrity -/

/-- A correctable-error table entry (Table 11.5) with its row and nomination mark. -/
structure CeEntry where
  loc : Nat
  sym : Nat
  count : Nat
  first : Nat
  last : Nat
  row : Nat
  rank : Nat
  nominated : Bool
  deriving DecidableEq, Repr

/-- The counters and table of one integrity block (Tables 11.5, 11.17, 11.18). -/
structure GlnBlk where
  corr : BitVec 16
  transient : BitVec 8
  lasting : BitVec 8
  ceOvf : BitVec 16
  table : List CeEntry
  deriving DecidableEq, Repr

/-- An error-log entry (Tables 11.12, 11.13). -/
structure Elog where
  block : BitVec 4
  kind : BitVec 4
  gleaner : Bool
  twin : Bool
  altIdx : BitVec 3
  sym : BitVec 7
  valid : Bool
  loc : BitVec 48
  altVal : BitVec 8
  tenant : BitVec 8
  time : BitVec 32
  deriving DecidableEq, Repr

/-- An empty error-log entry. -/
def Elog.zero : Elog := ⟨0, 0, false, false, 0, 0, false, 0, 0, 0, 0⟩

/-- A repair candidate or record (R319): block 0 to 9 with its row and a word of it, or block 10
with the LOC of an on-die row. -/
structure Repair where
  block : Nat
  row : Nat
  loc : Nat
  /-- The DRAM that failed in a DDR5 row; 10 where none is named. -/
  dram : Nat
  /-- 0 passed to the Steward, 1 pending, 2 applied, 3 refused, 4 applied by hPPR. -/
  state : Nat
  epoch : Nat
  deriving DecidableEq, Repr

/-- Integrity and Gleaner (chapter 11). -/
structure Gln where
  blks : Vector GlnBlk 10
  refetch : BitVec 12
  poisoned : BitVec 12
  poisonWr : BitVec 8
  hbmPasses : BitVec 16
  ddrPasses : BitVec 16
  elog : Vector Elog 16
  elogNext : BitVec 4
  overrun : Bool
  /-- Log entries not yet journalled by the Steward (R321). -/
  elogOut : List Elog
  fuses : List Word32
  repairs : List Repair
  faulty : List (Nat × Nat × Nat)
  /-- Patrol positions: per slice along its HBM pass, per channel the next backing line. -/
  hbmPos : Vector Nat 8
  ddrPos : Vector Nat 12
  /-- Patrol reads that are to be read once more, and the Gleaner's stop (R317). -/
  stopped : Bool
  storeUnusable : List Nat
  deriving DecidableEq, Repr

/-! ## Twin -/

/-- The transaction slot of a record (Table 13.7). -/
structure TxSlot where
  htag : Nat
  opcode : Nat
  st : LSt
  res : Res
  dup : Bool
  value : Nat
  deriving DecidableEq, Repr

/-- The Granary-change slot of a record (Table 13.7). -/
structure Gch where
  remove : Nat
  toS : Nat
  pend : Nat
  write : Option (Nat × LSt × Nat × Nat)
  deriving DecidableEq, Repr

/-- No Granary change. -/
def Gch.none : Gch := ⟨0, 0, 0, Option.none⟩

/-- A log record (Tables 13.5 to 13.7). -/
structure TRec where
  rtype : Nat
  src : Nat
  lseq : Nat
  la : LAddr
  agent : Nat
  rseq : Word32
  tenant : Nat
  txn : Option TxSlot
  gch : Option Gch
  data : Option (Line × Bool)
  deriving DecidableEq, Repr

/-- A deduplication entry (R361). -/
structure Dedup where
  rseq : Word32
  opcode : Nat
  st : LSt
  res : Res
  dup : Bool
  value : Nat
  htag : Nat
  la : LAddr
  opn : Bool
  /-- A transaction still in progress on this device. -/
  live : Bool
  /-- The grant of an Upgrade whose agent's copy had been removed: CompData, not Comp (Table 3.14). -/
  full : Bool
  deriving DecidableEq, Repr

/-- Pair states (Table 13.3). -/
inductive PairState where
  | single | hello | resync | paired | failover | survivor | waiting | isolated
  deriving DecidableEq, Repr

/-- The code of Table 13.3. -/
def PairState.code : PairState → Nat
  | .single => 0 | .hello => 1 | .resync => 2 | .paired => 3 | .failover => 4 | .survivor => 5
  | .waiting => 6 | .isolated => 7

/-- What a hello carries (R353, Table 13.4). -/
structure Hello where
  uid : Word64
  digest : BitVec 384
  fwMajor : Nat
  fwMinor : Nat
  fwPatch : Nat
  capGib : Nat
  epoch : Nat
  survived : Bool
  time : Word64
  strap : Bool
  witness : BitVec 2
  /-- It has taken a power-on or device reset since it last held PAIRED (R371). -/
  resetSince : Bool
  deriving DecidableEq, Repr

/-- Twin pairing (chapter 13). -/
structure Twin where
  pair : PairState
  role : BitVec 2
  witness : BitVec 2
  strap : Bool
  disagree : Bool
  disCode : BitVec 4
  timeStep : Bool
  dedupHits : BitVec 16
  failovers : BitVec 8
  voided : BitVec 8
  percent : BitVec 7
  full : Bool
  /-- Records sent and not acknowledged, and the next LSEQ of each SRC. -/
  outstanding : List TRec
  /-- Records that wait for one of the 4,096 outstanding ones to be acknowledged, oldest first (R357). -/
  late : List TRec
  lseq : Vector Nat 10
  /-- Partner records logged and not applied, and the next LSEQ expected of each SRC. -/
  backlog : List TRec
  expect : Vector Nat 10
  dedup : Tab Dedup
  dups : Tab (Slot × Line)
  /-- Open transactions of the partner that await resolution (R367). -/
  opens : List TRec
  /-- Agents of the partner: (AGENT_UID, agent number, caching slot, sets, ways). -/
  agentMap : List (Word64 × Nat × Nat × Nat × Nat)
  resyncMap : List Nat
  tracking : Bool
  /-- The partner was lost and its failover step of Table 13.8. -/
  step : Nat
  /-- This device is the rejoiner of a resynchronisation. -/
  rejoiner : Bool
  partner : Option Hello
  /-- A hello of the partner has arrived since it was last lost (R462). -/
  heard : Bool
  lastGood : Word64
  /-- Messages sent on the HB and QRY classes, oldest first: (kind, payload). -/
  sentCtl : List (Nat × Nat)
  survived : Bool
  powerSince : Bool
  epochAtFail : Nat
  /-- Misdirected requests (R29). -/
  misdirected : Nat
  /-- Parts of step 7 of Table 13.8 still running: the resend window and the STBY walk. -/
  resendOpen : Bool
  stbyWalk : Bool
  /-- A joint drain is due (R353, R372). -/
  wantDrain : Bool
  /-- Resynchronisation copy items sent (R370). -/
  sentCopy : List TRec
  deriving DecidableEq, Repr

/-! ## Taps -/

/-- A frame of a tap (R386). -/
structure Frame where
  tap : Nat
  seq : Nat
  endT : Nat
  epoch : Nat
  /-- Non-zero counts (tenant, Q1, Q2, Q3); for controllers (0, read, written, 0). -/
  counts : List (Nat × Nat × Nat × Nat)
  /-- Changed absolute occupancy (tenant, bytes). -/
  occ : List (Nat × Nat)
  full : Bool
  reset : Bool
  deriving DecidableEq, Repr

/-- The main-die taps (R383 to R386). -/
structure Taps where
  /-- Counts of the present segment, keyed slice × 256 + tenant. -/
  q : Tab (Nat × Nat × Nat)
  /-- Occupancy last reported, keyed slice × 256 + tenant. -/
  sent : Tab Nat
  seq : Vector Nat 18
  frames : List Frame
  needReset : Bool
  deriving DecidableEq, Repr

/-! ## The fabric -/

/-- A message or signal that left the device other than on a Waisan link. -/
inductive Out where
  | msix (addr : Word64) (data : Word32)
  | pme
  | smbalert (low : Bool)
  | thermtrip
  | oasisWake (low : Bool)
  deriving DecidableEq, Repr

/-- Everything between the agents' pins and the memories. -/
structure Fabric where
  links : Vector Link 32
  tlink : Link
  laneFault : Vector (BitVec 8) 16
  arr : List Arr
  prio : Vector Nat 8
  txns : List Txn
  nextSeq : Nat
  holds : List Hold
  homStat : Vector HomStat 8
  /-- Reservations, one entry per slice and agent (slice × 32 + agent): granule and the acceptance number of the
  LdResv (R232, R235). -/
  resv : Vector (Option (LAddr × Nat)) 256
  gran : Granary
  cache : Cache
  sstat : Vector SliceStat 8
  mem : Mem
  ord : Vector Ord 32
  pfu : Pfu
  hrw : Harrow
  gln : Gln
  twin : Twin
  taps : Taps
  /-- REQ messages held in the ports during a drain: (agent, header, payload) (R328). -/
  portHeld : List (Nat × Msg)
  draining : Bool
  /-- The device takes agent requests (R286). -/
  accepting : Bool
  epoch : Nat
  uid : Word64
  /-- Device time in µs (R512). -/
  time : Word64
  /-- Events on their way to the controller: (source, 0 pulse, 1 assert, 2 deassert) (R476). -/
  raised : List (Nat × Nat)
  /-- Agents whose target's counts are to be discarded (R488). -/
  agentDrops : List Nat
  /-- Every slice arbiter accepts at most one request in every two slice cycles (R528). -/
  slow : Bool
  /-- Records handed to the Steward's journal: type, key, value. -/
  jreq : List (Nat × Nat × Nat)
  deriving DecidableEq, Repr

/-! ## Values at reset -/

/-- Zero counters of a slice. -/
def SliceStat.zero : SliceStat := ⟨0, 0, 0, 0, 0, 0, 0, 0, 0, 0, 0, false⟩
/-- Zero counters of a home slice. -/
def HomStat.zero : HomStat := ⟨0, 0, 0, 0, 0⟩
/-- A Granary bank at reset. -/
def GrnBank.zero : GrnBank := ⟨0, 0, 0, 0, 0, 0, false, false, 0, 0, false⟩
/-- An integrity block at reset. -/
def GlnBlk.zero : GlnBlk := ⟨0, 0, 0, 0, []⟩

/-- The Granary with no entry recorded. -/
def Granary.init (key : Word64) : Granary :=
  { entries := [], order := [], taint := [], key := key, banks := Vector.replicate 8 GrnBank.zero,
    slots := Vector.replicate 16 ⟨none, none⟩, queries := [] }

/-- Empty caches. -/
def Cache.init : Cache := ⟨[], [], [], [], []⟩

/-- Memories with nothing listed: every page marked, every summary bit set (R285, R286). -/
def Mem.init : Mem :=
  { hbm := [], ddr := [], unmarked := [], sumClear := [], mapCache := Vector.replicate 8 [],
    lostWords := [], mapBad := [], hq := [], dq := [], openRows := [], hbmRows := [],
    refresh := [], rbits := 0, tapBytes := Vector.replicate 10 (0, 0) }

/-- The prefetch unit at reset. -/
def Pfu.init : Pfu :=
  { mode := 0, queue := [], record := [], counts := Vector.replicate 32 (0, 0), streams := [],
    training := [], targets := [], reports := [], stopped := false, throttled := false }

/-- The Harrow at reset. -/
def Harrow.init : Harrow :=
  { descs := [], nextTicket := 0, ended := [], waiting := [], ring := [], ringSeq := 0, ringLate := [], rr := 0, answers := [],
    paused := false, cutting := false, poisoned := 0, aborted := 0, refused := 0 }

/-- Integrity at reset with the field fuses given. -/
def Gln.init (fuses : List Word32) : Gln :=
  { blks := Vector.replicate 10 GlnBlk.zero, refetch := 0, poisoned := 0, poisonWr := 0,
    hbmPasses := 0, ddrPasses := 0, elog := Vector.replicate 16 Elog.zero, elogNext := 0,
    overrun := false, elogOut := [], fuses := fuses, repairs := [], faulty := [], hbmPos := Vector.replicate 8 0,
    ddrPos := Vector.replicate 12 0, stopped := false, storeUnusable := [] }

/-- Pairing state at reset. -/
def Twin.init : Twin :=
  { pair := .single, role := 0, witness := 0, strap := false, disagree := false, disCode := 0,
    timeStep := false, dedupHits := 0, failovers := 0, voided := 0, percent := 0, full := false,
    outstanding := [], late := [], lseq := Vector.replicate 10 0, backlog := [],
    expect := Vector.replicate 10 0, dedup := [], dups := [], opens := [], agentMap := [],
    resyncMap := [], tracking := false, step := 0, rejoiner := false, partner := none, heard := false,
    lastGood := 0, sentCtl := [], survived := false, powerSince := true, epochAtFail := 0,
    misdirected := 0, resendOpen := false, stbyWalk := false, wantDrain := false, sentCopy := [] }

/-- The taps at reset: each slice tap owes its reset frame (R386). -/
def Taps.init : Taps :=
  { q := [], sent := [], seq := Vector.replicate 18 0, frames := [], needReset := true }

/-- The fabric right after power-on reset: half-port 0 of each port in Detect, half-port 1 in
Disabled (Table 2.14). -/
def Fabric.init (key : Word64) (fuses : List Word32) : Fabric :=
  { links := Vector.ofFn (fun i : Fin 32 =>
      Link.init (if i.val % 2 = 0 then LinkState.detect else LinkState.disabled))
    tlink := Link.init .disabled
    laneFault := Vector.replicate 16 0
    arr := [], prio := Vector.replicate 8 0, txns := [], nextSeq := 1, holds := [],
    homStat := Vector.replicate 8 HomStat.zero, resv := Vector.replicate 256 none,
    gran := Granary.init key, cache := Cache.init, sstat := Vector.replicate 8 SliceStat.zero,
    mem := Mem.init, ord := Vector.replicate 32 Ord.init, pfu := Pfu.init, hrw := Harrow.init,
    gln := Gln.init fuses, twin := Twin.init, taps := Taps.init, portHeld := [],
    draining := false, accepting := false, epoch := 0, uid := 0, time := 0, raised := [], agentDrops := [], slow := false, jreq := [] }

end Sys2Proof.Machine
end

