-- ==== Sys2Proof/Config.lean ====
section
/-! DEFINITION. Free values of the model: constants without a body, so that no proof and no test
can see what they are.  Each stands for something that the spec leaves open, and each has its
log entry. -/
namespace Sys2Proof.Config

/-- The keyed hash of R136 over a line address; the spec gives no function (log entry 12). -/
opaque granaryHash : Word64 → LAddr → BitVec 18

/-- The 64-bit key drawn at the n-th power-on (R136, log entry 12). -/
opaque granaryKey : Nat → Word64

/-- SHA-384 over a byte string, taken from FIPS 180-4 by name only (log entry 13). -/
opaque sha384 : List Nat → BitVec 384

/-- The Weighbridge's key pair generated at seal: the public key's x and y (R394, log entry 14). -/
opaque wgbPublicKey : Nat → BitVec 384 × BitVec 384

/-- An ECDSA signature (r, s) of a digest under the Weighbridge's key; the count separates
signatures of one digest (R394, log entry 14). -/
opaque wgbSign : Nat → BitVec 384 → BitVec 384 × BitVec 384

/-- ECDSA verification over P-384 of FIPS 186-5, named by the spec without its definition: key,
digest, signature (R408, log entry 15). -/
opaque ecdsaVerify : BitVec 768 → BitVec 384 → BitVec 768 → Bool

/-- Bytes 63:16 of an audit record by its KIND and what it concerns: the spec gives neither the bytes of
the Steward port's commands nor the detail of the Weighbridge's own events (R399, log entry 16). -/
opaque auditDetail : Nat → Nat → BitVec 384

/-- The SMBus buffer offset after a Write Word beyond 8,191, the last that Table 15.11 allows (R431, log
entry 17). -/
opaque smbusOffset : Nat → Nat

end Sys2Proof.Config
end

