-- ==== Sys2Proof/Machine/Wgb.lean ====
section
/-! DEFINITION. The Weighbridge (chapter 14): metering time, taps' frames, intervals, integrator,
checkpoints, journal, seal, readouts and the audit trail. -/
namespace Sys2Proof.Machine

/-- A 64-byte record. -/
abbrev Rec64 := BitVec 512

/-- Quantities Q1 to Q4 of a tenant. -/
abbrev Quant := Nat × Nat × Nat × Nat

/-- An interval that is open, or that has ended and is not closed (R387, R388). -/
structure Interval where
  ino : Nat
  start : Nat
  stop : Nat
  flags : Nat
  epoch : Nat
  /-- Q1 to Q3 by tenant. -/
  q : Tab (Nat × Nat × Nat)
  /-- Occupancy times ticks by tenant (R389). -/
  q4 : Tab Nat
  /-- Taps whose frame for the last segment has arrived. -/
  seen : List Nat
  deriving DecidableEq, Repr

/-- A committed block or summary of a group (R392, R393). -/
structure Block where
  group : Nat
  summary : Bool
  flags : Nat
  ino : Nat
  lastIno : Nat
  start : Nat
  stop : Nat
  epoch : Nat
  counts : List (Nat × Quant)
  gapcnt : Nat
  chain : BitVec 256
  /-- The CHAIN value over the last merged block, in a summary's link record. -/
  link : BitVec 256
  deriving DecidableEq, Repr

/-- An audit record (R399). -/
structure Audit where
  kind : Nat
  source : Nat
  cnt : Nat
  t : Nat
  detail : BitVec 384
  deriving DecidableEq, Repr

/-- A checkpoint (R390). -/
structure Checkpoint where
  t : Nat
  cur : Interval
  occ : Tab Nat
  cum : Tab Quant
  taps : Vector Nat 18
  deriving DecidableEq, Repr

/-- The Weighbridge. -/
structure Wgb where
  powered : Bool
  tcxoOk : Bool
  sealed : Bool
  sealEn : Bool
  pfail : Bool
  t : Nat
  len : Nat
  cur : Interval
  closing : List Interval
  short : Option Nat
  segStart : Nat
  /-- Occupancy that the present segment integrates, by tenant (R389). -/
  occSeg : Tab Nat
  /-- Latest slice counts, keyed slice × 256 + tenant. -/
  occ : Tab Nat
  cum : Tab Quant
  tapSeq : Vector Nat 18
  ctl : Vector (Nat × Nat) 10
  tapTransient : BitVec 8
  tapFaults : Nat
  ticks : Nat
  checkpoint : Option Checkpoint
  ring : List Checkpoint
  blocks : List Block
  gaps : Tab Nat
  audit : List Audit
  auditCnt : Nat
  /-- SEGSEQ of the current segment of the audit area and of the interval area (R391). -/
  auditSeg : Nat
  blockSeg : Nat
  serial : Word64
  patch : List Nat
  sealDate : Word64
  officer : BitVec 192
  tested : Bool
  signs : Nat
  /-- What the last readout or command returned: its status and records. -/
  answer : Option (Nat × List Rec64)
  raised : List (Nat × Nat)
  deriving DecidableEq, Repr

/-- An interval that starts at T with a number. -/
def Interval.new (ino start stop : Nat) : Interval :=
  { ino := ino, start := start, stop := stop, flags := 0, epoch := 0, q := [], q4 := [], seen := [] }

/-- An unsealed Weighbridge just powered for the first time. -/
def Wgb.init : Wgb :=
  { powered := true, tcxoOk := true, sealed := false, sealEn := false, pfail := false, t := 0, len := 0,
    cur := Interval.new 0 0 0, closing := [], short := none, segStart := 0, occSeg := [], occ := [],
    cum := [], tapSeq := Vector.replicate 18 0, ctl := Vector.replicate 10 (0, 0), tapTransient := 0,
    tapFaults := 0, ticks := 0, checkpoint := none, ring := [], blocks := [], gaps := [], audit := [],
    auditCnt := 0, auditSeg := 0, blockSeg := 0, serial := 0, patch := [], sealDate := 0, officer := 0, tested := false, signs := 0,
    answer := none, raised := [] }

/-! ## Helpers -/

/-- Raise a Weighbridge event. -/
def Wgb.raise (w : Wgb) (n : Nat) : Wgb := { w with raised := w.raised ++ [(n, 0)] }

/-- The next regular boundary after T; 0 while L is unset (R387). -/
def Wgb.nextBoundary (w : Wgb) (t : Nat) : Nat :=
  if w.len = 0 then 0 else (t / (w.len * 10 ^ 7) + 1) * (w.len * 10 ^ 7)

/-- Set a mark of Table 14.5 in the open interval. -/
def Wgb.mark (w : Wgb) (bit : Nat) : Wgb := { w with cur := { w.cur with flags := putBit w.cur.flags bit true } }

/-- Records of KIND `k` that an audit record stands for: itself, or those merged into it. -/
def Audit.stands (a : Audit) (k : Nat) : Nat :=
  if a.kind = 0 then bitsOf a.detail.toNat (32 * (k - 1)) 32 else if a.kind = k then 1 else 0

/-- The oldest half of a full audit area merged into one record that counts each KIND. -/
def mergeAudit (l : List Audit) : List Audit :=
  let old := l.take 2048
  let tally := (List.range 8).map (fun k => (32 * k, 32, old.foldl (fun n a => n + a.stands (k + 1)) 0))
  match old.getLast? with
  | none => l
  | some a => { kind := 0, source := 2, cnt := a.cnt, t := a.t, detail := pack 384 tally } :: l.drop 2048

/-- Write an audit record; a refused command raises AUDIT_CNT and source 198 (R399). -/
def Wgb.record (w : Wgb) (kind source : Nat) (detail : BitVec 384) : Wgb :=
  let n := if kind = 1 then satAdd 32 w.auditCnt 1 else w.auditCnt
  let full := decide (4095 ≤ w.audit.length)
  let l := if full then mergeAudit w.audit else w.audit
  let w := { w with auditSeg := w.auditSeg + b2n full }
  let a : Audit := { kind := kind, source := source, cnt := n, t := w.t, detail := detail }
  let w' := { w with auditCnt := n, audit := l ++ [a] }
  if w.auditCnt < n then w'.raise 198 else w'

/-- An audit record as 64 bytes. -/
def Audit.rec64 (a : Audit) : Rec64 :=
  pack 512 [(0, 8, 0x41), (8, 8, a.kind), (16, 16, a.source), (32, 32, a.cnt), (64, 64, a.t),
    (128, 384, a.detail.toNat)]

/-- The bytes of records, in order. -/
def recBytes (l : List Rec64) : List Nat := l.flatMap (fun r => leBytes r.toNat 64)

/-- The first 32 bytes of a digest over records. -/
def chainOf (l : List Rec64) : BitVec 256 := (Config.sha384 (recBytes l)).extractLsb' 0 256

/-- PATCH: the first 16 bytes of the SHA-384 of the patch area. -/
def Wgb.patchId (w : Wgb) : Nat := bitsOf (Config.sha384 w.patch).toNat 0 128

/-- The parameter record, RTYPE 0x11 (Table 14.8). -/
def Wgb.params (w : Wgb) : Rec64 :=
  pack 512 [(0, 8, 0x11), (16, 16, w.len), (64, 64, w.serial.toNat),
    (128, 64, if w.sealed then w.sealDate.toNat else 0), (192, 128, w.patchId),
    (320, 192, if w.sealed then w.officer.toNat else 0)]

/-- The public-key records, RTYPE 0x12; zero before seal. -/
def Wgb.keyRecs (w : Wgb) : List Rec64 :=
  let k := Config.wgbPublicKey w.serial.toNat
  let v := fun (x : BitVec 384) => if w.sealed then x.toNat else 0
  [pack 512 [(0, 8, 0x12), (8, 8, 0), (128, 384, v k.1)],
   pack 512 [(0, 8, 0x12), (8, 8, 1), (128, 384, v k.2)]]

/-- The two signature records over a digest; zero while unsealed (R394, R395). -/
def Wgb.signRecs (w : Wgb) (digest : BitVec 384) : List Rec64 :=
  if ¬ w.sealed then [0, 0]
  else
    let s := Config.wgbSign w.signs digest
    [pack 512 [(0, 8, 0x24), (8, 8, 0), (128, 384, s.1.toNat)],
     pack 512 [(0, 8, 0x24), (8, 8, 1), (128, 384, s.2.toNat)]]

/-! ## Blocks (R392, R393) -/

/-- The records of a block or summary, signatures apart. -/
def Block.recs (b : Block) : List Rec64 :=
  let tmask := b.counts.foldl (fun m c => m ||| 2 ^ (c.1 % 16)) 0
  let hdr : Rec64 := pack 512 [(0, 8, if b.summary then 0x23 else 0x21), (8, 8, b.group),
    (16, 16, b.flags), (32, 32, b.ino), (64, 64, b.start), (128, 64, b.stop), (192, 32, b.epoch),
    (224, 16, tmask), (240, 16, b.gapcnt), (256, 256, b.chain.toNat)]
  let slot := fun (c : Nat × Quant) =>
    packNat [(0, 64, c.2.1), (64, 64, c.2.2.1), (128, 64, c.2.2.2.1), (192, 64, c.2.2.2.2)]
  let pairs := (List.range ((b.counts.length + 1) / 2)).map (fun i =>
    (pack 512 [(0, 256, match b.counts[2 * i]? with | some c => slot c | none => 0),
      (256, 256, match b.counts[2 * i + 1]? with | some c => slot c | none => 0)] : Rec64))
  let link : List Rec64 := if b.summary then [pack 512 [(0, 8, 0x25), (256, 256, b.link.toNat)]] else []
  hdr :: pairs ++ link

/-- Records that a block takes in the journal. -/
def Block.size (b : Block) : Nat := 1 + (b.counts.length + 1) / 2 + (if b.summary then 3 else 0)

/-- Records that the interval area holds. -/
def usedRecs (l : List Block) : Nat := l.foldl (fun n b => n + b.size) 0

/-- Sum two tables of quantities. -/
def addCounts (a b : List (Nat × Quant)) : List (Nat × Quant) :=
  b.foldl (fun acc c =>
    let old := Tab.get acc (0, 0, 0, 0) c.1
    Tab.set acc c.1 (old.1 + c.2.1, old.2.1 + c.2.2.1, old.2.2.1 + c.2.2.2.1, old.2.2.2 + c.2.2.2.2)) a

/-- Merge the blocks of a group, older first, into one summary. -/
def mergeBlocks (l : List Block) : List Block :=
  match l, l.getLast? with
  | first :: _ :: _, some last =>
    [{ group := first.group, summary := true, flags := l.foldl (fun n b => n ||| b.flags) 0,
       ino := first.ino, lastIno := last.lastIno, start := first.start, stop := last.stop,
       epoch := last.epoch, counts := l.foldl (fun acc b => addCounts acc b.counts) [],
       gapcnt := min 65535 (l.foldl (fun n b => n + (if b.summary then b.gapcnt else 1)) 0),
       chain := first.chain, link := chainOf last.recs }]
  | _, _ => l

/-- Compaction of the interval area: in each group, what lies before the 4,096 newest blocks becomes
a summary. -/
def compactBlocks (l : List Block) : List Block :=
  (List.range 16).foldl (fun acc g =>
    let mine := l.filter (fun b => b.group = g)
    acc ++ mergeBlocks (mine.take (mine.length - 4096)) ++ mine.drop (mine.length - 4096)) []

/-- JFULL: some group has blocks left unwritten since its last one. -/
def Wgb.jfull (w : Wgb) : Bool := w.gaps.any (fun p => 0 < p.2)

/-- The CHAIN of a group's next block. -/
def Wgb.chain (w : Wgb) (g : Nat) : BitVec 256 :=
  match (w.blocks.filter (fun b => b.group = g)).getLast? with
  | some b => if b.summary then b.link else chainOf b.recs
  | none => chainOf (w.params :: w.keyRecs)

/-- Write one group's block, compacting first where the area is full, or leave it unwritten
(R393). -/
def Wgb.writeBlock (w : Wgb) (b : Block) : Wgb :=
  let gap := Tab.get w.gaps 0 b.group
  let flags := putBit b.flags 7 (0 < gap)
  let b := { b with flags := flags, gapcnt := min 65535 gap, chain := w.chain b.group }
  let fits := fun (l : List Block) => decide (usedRecs l + b.size ≤ 98280)
  let was := w.jfull
  let l := if fits w.blocks then w.blocks else compactBlocks w.blocks
  let w := { w with blocks := l, blockSeg := if fits w.blocks then w.blockSeg else w.blockSeg + 1 }
  let w := if fits l then { w with blocks := l ++ [b], gaps := Tab.erase w.gaps b.group }
    else ({ w with gaps := Tab.set w.gaps b.group (gap + 1) }).record 5 2 (Config.auditDetail 5 (b.group))
  if was == w.jfull then w else w.raise 195

/-! ## Segments and intervals (R386 to R390) -/

/-- Occupancy per tenant as the sum of the latest slice counts. -/
def Wgb.occNow (w : Wgb) : Tab Nat :=
  w.occ.foldl (fun acc p => let k := p.1 % 256; Tab.put 0 acc k (Tab.get acc 0 k + p.2)) []

/-- The present segment ends: its occupancy is integrated and the next one starts. -/
def Wgb.segmentEnd (w : Wgb) (t : Nat) : Wgb :=
  let d := t - w.segStart
  let q4 := w.occSeg.foldl (fun acc p => Tab.put 0 acc p.1 (Tab.get acc 0 p.1 + p.2 * d)) w.cur.q4
  { w with t := t, segStart := t, cur := { w.cur with q4 := q4 }, occSeg := w.occNow }

/-- The open interval ends at T and the next one starts. -/
def Wgb.intervalEnd (w : Wgb) (short : Bool) : Wgb :=
  let flags := if w.sealed then w.cur.flags else putBit w.cur.flags 6 true
  let flags := if short then putBit flags 0 true else flags
  { w with closing := w.closing ++ [{ w.cur with stop := w.t, flags := flags }],
           cur := Interval.new ((w.cur.ino + 1) % 2 ^ 32) w.t (w.nextBoundary w.t) }

/-- The checkpoint of this instant. -/
def Wgb.snapshot (w : Wgb) : Checkpoint :=
  { t := w.t, cur := w.cur, occ := w.occ, cum := w.cum, taps := w.tapSeq }

/-- A checkpoint enters the ring, which keeps 56. -/
def Wgb.toRing (w : Wgb) (c : Checkpoint) : Wgb := { w with ring := (w.ring ++ [c]).drop (w.ring.length + 1 - 56) }

/-- T reaches the announced short boundary (R387). -/
def Wgb.shortBoundary (w : Wgb) : Wgb :=
  match w.short with
  | none => w
  | some tc =>
    let w := ({ w with short := none }).segmentEnd (max w.t tc)
    let regular := w.len ≠ 0 && w.t % (w.len * 10 ^ 7) = 0
    let w := w.intervalEnd (¬ regular)
    if regular then w else w.record 7 2 (Config.auditDetail 7 ((w.cur.ino - 1)))

/-- The next 1 ms tick of T: the segment ends, an interval that has reached its boundary ends, and a
checkpoint is formed, every 1,000th entering the ring. -/
def Wgb.tick (w : Wgb) : Wgb :=
  let next := (w.t / 10000 + 1) * 10000
  let w := match w.short with
    | some tc => if tc < next then w.shortBoundary else w
    | none => w
  let w := w.segmentEnd next
  let w := if w.cur.stop ≠ 0 && w.cur.stop ≤ w.t then
      (if w.short = some w.t then { w with short := none } else w).intervalEnd false
    else w
  let c := w.snapshot
  let w := { w with ticks := w.ticks + 1, checkpoint := some c }
  if w.ticks % 1000 = 0 then w.toRing c else w

/-- Add a frame's counts to an interval. -/
def Interval.add (i : Interval) (fr : Frame) : Interval :=
  let q := fr.counts.foldl (fun (acc : Tab (Nat × Nat × Nat)) c =>
    let old := Tab.get acc (0, 0, 0) c.1
    Tab.set acc c.1 (old.1 + c.2.1, old.2.1 + c.2.2.1, old.2.2 + c.2.2.2)) i.q
  { i with q := q, epoch := fr.epoch }

/-- A lasting tap loss (R386). -/
def Wgb.tapLoss (w : Wgb) (tap : Nat) : Wgb := ((w.mark 3).record 4 2 (Config.auditDetail 4 (tap))).raise 196

/-- A tap's frame arrives; the flags say which of its two copies failed their CRC-32.  A frame that arrives during a
time fault is discarded, and is not missing (R380).  The slice counts that a frame brings hold from the start of the
present segment (R389). -/
def Wgb.frame (w : Wgb) (fr : Frame) (bad1 bad2 : Bool) : Wgb :=
  if ¬ w.powered then w
  else if ¬ w.tcxoOk then { w with tapSeq := vset w.tapSeq fr.tap ((fr.seq + 1) % 2 ^ 32) }
  else
    let w := if bad1 && ¬ bad2 then
        let n := w.tapFaults + 1
        let w := { w with tapTransient := BitVec.ofNat 8 (satAdd 8 w.tapTransient.toNat 1), tapFaults := n }
        if n % 1024 = 0 then w.raise 196 else w
      else w
    let next := { w with tapSeq := vset w.tapSeq fr.tap ((fr.seq + 1) % 2 ^ 32) }
    if bad1 && bad2 then next.tapLoss fr.tap
    else
      let missing := ¬ fr.reset && vget w.tapSeq 0 fr.tap ≠ fr.seq
      let w := if missing then next.tapLoss fr.tap else next
      let w := if fr.reset && fr.tap < 8 then
          let w := { w with occ := w.occ.filter (fun p => p.1 / 256 ≠ fr.tap) }
          (w.mark 4).record 6 2 (Config.auditDetail 6 (fr.tap))
        else w
      if 8 ≤ fr.tap then
        let c := fr.counts.headD (0, 0, 0, 0)
        let w := { w with ctl := vmod w.ctl (fr.tap - 8) (fun p => (p.1 + c.2.1, p.2 + c.2.2.1)) }
        let done := w.closing.map (fun i => if i.stop = fr.endT then { i with seen := addOnce fr.tap i.seen } else i)
        { w with closing := done }
      else
        let occ := fr.occ.foldl (fun acc p => Tab.put 0 acc (fr.tap * 256 + p.1) p.2)
          (if fr.full then w.occ.filter (fun p => p.1 / 256 ≠ fr.tap) else w.occ)
        let w := { w with occ := occ }
        let w := { w with occSeg := w.occNow }
        match w.closing.find? (fun i => decide (fr.endT ≤ i.stop)) with
        | some i =>
          let i' := i.add fr
          let i' := if i.stop = fr.endT then { i' with seen := addOnce fr.tap i'.seen } else i'
          { w with closing := modFirst (fun (x : Interval) => x.ino = i.ino) (fun _ => i') w.closing }
        | none => { w with cur := w.cur.add fr }

/-- The quantities of an ended interval, Q4 in whole byte·ms (R389). -/
def Interval.counts (i : Interval) : List (Nat × Quant) :=
  (List.range 256).filterMap (fun t =>
    let q := Tab.get i.q (0, 0, 0) t
    let o := Tab.get i.q4 0 t / 10000
    if q = (0, 0, 0) && o = 0 then none else some (t, (q.1, q.2.1, q.2.2, o)))

/-- An interval closes: its counts join the cumulative registers and its blocks are written (R388, R392). -/
def Wgb.commit (w : Wgb) (i : Interval) : Wgb :=
  let cs := i.counts
  let w := { w with cum := addCounts w.cum cs }
  let w := (List.range 16).foldl (fun w g =>
    let mine := cs.filter (fun c => c.1 / 16 = g)
    if mine = [] then w
    else w.writeBlock { group := g, summary := false, flags := i.flags, ino := i.ino, lastIno := i.ino,
                        start := i.start, stop := i.stop, epoch := i.epoch, counts := mine,
                        gapcnt := 0, chain := 0, link := 0 }) w
  let w := w.raise 192
  if i.flags.testBit 0 then w.raise 193 else w

/-- The oldest ended interval closes: every frame is in, or 10 ms have passed (R388). -/
def Wgb.close (w : Wgb) (late : Bool) : Wgb :=
  match w.closing with
  | [] => w
  | i :: rest =>
    let missing := (List.range 18).filter (fun k => ¬ i.seen.contains k)
    if missing ≠ [] && ¬ late then w
    else
      let i := if missing = [] then i else { i with flags := putBit i.flags 3 true }
      let w := missing.foldl (fun w k => (w.record 4 2 (Config.auditDetail 4 (k))).raise 196) w
      ({ w with closing := rest } : Wgb).commit i

/-! ## Time faults and power (R380, R390) -/

/-- WGB_TCXO fails: T and counting stop. -/
def Wgb.timeFault (w : Wgb) : Wgb :=
  if ¬ w.powered || ¬ w.tcxoOk then w
  else ((({ w with tcxoOk := false } : Wgb).mark 5).record 3 2 (Config.auditDetail 3 0)).raise 197

/-- After 10 ms of good clock T and counting resume. -/
def Wgb.timeFaultEnd (w : Wgb) : Wgb :=
  if ¬ w.powered || w.tcxoOk then w else (({ w with tcxoOk := true } : Wgb).mark 5).raise 197

/-- WGB_PFAIL_N is asserted: a checkpoint of this instant is written. -/
def Wgb.pfailAssert (w : Wgb) : Wgb :=
  if ¬ w.powered then w else ({ w with pfail := true } : Wgb).toRing w.snapshot

/-- The supply is lost: working memory goes. -/
def Wgb.powerLoss (w : Wgb) : Wgb :=
  { w with powered := false, pfail := false, closing := [], short := none, checkpoint := none, tested := false,
           answer := none, raised := [], tapTransient := 0, tapFaults := 0,
           len := if w.sealed then w.len else 0 }

/-- The supply returns: the state of the latest checkpoint, whose interval closes marked RECON
(R390).  Before sealing T counts from this power-up. -/
def Wgb.powerRestore (w : Wgb) : Wgb :=
  if w.powered then w
  else
    let c := match w.ring.getLast? with
      | some c => c
      | none => { t := 0, cur := Interval.new 0 0 0, occ := [], cum := [], taps := w.tapSeq }
    let w := { w with powered := true, tcxoOk := true, t := c.t, cur := c.cur, occ := c.occ, cum := c.cum,
                      tapSeq := c.taps, segStart := c.t, occSeg := [], closing := [],
                      blocks := w.blocks.filter (fun b => b.lastIno < c.cur.ino || b.summary) }
    let w := (w.mark 1).intervalEnd false
    let w := w.closing.foldl Wgb.commit { w with closing := [] }
    let w := if w.sealed then w
      else { w with t := 0, segStart := 0, cur := { w.cur with start := 0, stop := w.nextBoundary 0 } }
    (({ w with occSeg := w.occNow } : Wgb).record 2 2 (Config.auditDetail 2 0)).raise 194

/-! ## Commands (Tables 14.2 and 14.9) -/

/-- Store an answer. -/
def Wgb.reply (w : Wgb) (st : Nat) (l : List Rec64) : Wgb := { w with answer := some (st, l) }

/-- A readout: body, trailer and signature (R395). -/
def Wgb.readout (w : Wgb) (kind : Nat) (body : List Rec64) (nonce : BitVec 128) : Wgb :=
  let body := body.take 65535
  let tr : Rec64 := pack 512 [(0, 8, 0x30), (8, 8, kind), (16, 16, body.length), (32, 32, w.auditCnt),
    (64, 64, w.t), (128, 64, w.serial.toNat), (192, 128, nonce.toNat), (320, 128, w.patchId)]
  let sig := w.signRecs (Config.sha384 (recBytes (body ++ [tr])))
  ({ w with signs := w.signs + 1 } : Wgb).reply 0 (body ++ [tr] ++ sig)

/-- Refuse a command of a port (0 verification, 1 Steward) and record it with its bytes, of which the spec
gives the CMD byte of the verification port (R378, R398, R399). -/
def Wgb.refuse (w : Wgb) (source st cmd : Nat) : Wgb :=
  let d := Config.auditDetail 1 (2 ^ 32 * w.audit.length + cmd)
  let d := if source = 0 then (d >>> 8 <<< 8) ||| BitVec.ofNat 384 cmd else d
  (w.record 1 source d).reply st []

/-- READ_ID: the public key and the controllers' totals (R385, R394). -/
def Wgb.readId (w : Wgb) (nonce : BitVec 128) : Wgb :=
  let tot := w.ctl.toList.map (fun p => (pack 512 [(0, 64, p.1), (64, 64, p.2)] : Rec64))
  w.readout 3 (w.keyRecs ++ tot) nonce

/-- READ_PARAMS, offered on the verification port only (R396). -/
def Wgb.readParams (w : Wgb) (nonce : BitVec 128) : Wgb := w.readout 4 [w.params] nonce

/-- The blocks of a group that cover a range of INO. -/
def Wgb.range (w : Wgb) (g lo hi : Nat) : List Block :=
  w.blocks.filter (fun b => b.group = g && decide (lo ≤ b.lastIno) && decide (b.ino ≤ hi))

/-- The records of a block in a readout, a summary with its signature. -/
def Wgb.blockRecs (w : Wgb) (b : Block) : List Rec64 :=
  if b.summary then b.recs ++ w.signRecs (Config.sha384 (recBytes b.recs)) else b.recs

/-- READ_INTERVALS. -/
def Wgb.readIntervals (w : Wgb) (source g lo hi : Nat) (nonce : BitVec 128) : Wgb :=
  if 15 < g || hi < lo then w.refuse source 1 3
  else w.readout 0 ((w.range g lo hi).flatMap w.blockRecs) nonce

/-- A cumulative record of a tenant. -/
def Wgb.cumRec (w : Wgb) (t : Nat) : Rec64 :=
  let q := Tab.get w.cum (0, 0, 0, 0) t
  pack 512 [(0, 8, 0x26), (8, 8, t), (64, 64, q.1), (128, 64, q.2.1), (192, 64, q.2.2.1), (256, 96, q.2.2.2)]

/-- READ_CUMULATIVE for `n` tenants from `first`. -/
def Wgb.readCumulative (w : Wgb) (source first n : Nat) (nonce : BitVec 128) : Wgb :=
  if n = 0 || 256 < first + n then w.refuse source 1 4
  else w.readout 1 ((List.range n).map (fun i => w.cumRec (first + i))) nonce

/-- READ_AUDIT for `n` records from index `first`. -/
def Wgb.readAudit (w : Wgb) (first n : Nat) (nonce : BitVec 128) : Wgb :=
  w.readout 2 (((w.audit.drop first).take n).map Audit.rec64) nonce

/-- SELF_TEST: WGB_TCXO, the journal and every tap link. -/
def Wgb.selfTest (w : Wgb) (journalOk tapsOk : Bool) : Wgb :=
  let ok := w.tcxoOk && journalOk && tapsOk
  ({ w with tested := w.tested || ok } : Wgb).reply (if ok then 0 else 4) []

/-- SET_PARAMS (R397, R398). -/
def Wgb.setParams (w : Wgb) (l : Nat) : Wgb :=
  if w.sealed then w.refuse 0 2 0x10
  else if l < 1 || 3600 < l then w.refuse 0 1 0x10
  else
    let w := { w with len := l, tested := false }
    ({ w with cur := { w.cur with stop := w.nextBoundary w.t } } : Wgb).reply 0 []

/-- LOAD_PATCH (Table 14.9). -/
def Wgb.loadPatch (w : Wgb) (bytes : List Nat) : Wgb :=
  if w.sealed || ¬ w.sealEn then w.refuse 0 2 0x11
  else ({ w with patch := bytes } : Wgb).reply 0 []

/-- SEAL (R397, R398): the key, the seal records, the fuse, and everything back to zero. -/
def Wgb.doSeal (w : Wgb) (confirm : Word32) (officer : BitVec 192) (date : Word64) : Wgb :=
  if w.sealed || ¬ w.sealEn || w.len = 0 || ¬ w.tested then w.refuse 0 2 0x12
  else if confirm ≠ w.serial.extractLsb' 0 32 then w.refuse 0 1 0x12
  else
    let w := { w with sealed := true, officer := officer, sealDate := date, t := 0, segStart := 0,
                      auditCnt := 0, audit := [], blocks := [], gaps := [], ring := [], closing := [],
                      checkpoint := none, short := none, cum := [], ticks := 0, auditSeg := w.auditSeg + 1,
                      blockSeg := w.blockSeg + 1 }
    let w := { w with cur := Interval.new 0 0 (w.nextBoundary 0) }
    w.reply 0 w.keyRecs

/-- CLOSE_SHORT sets a short boundary 2 µs ahead (R387); it is outside its permitted state during a
time fault. -/
def Wgb.closeShort (w : Wgb) : Wgb :=
  if ¬ w.powered then w
  else if ¬ w.tcxoOk then w.refuse 1 2 0x20
  else
    let tc := match w.short with | some t => t | none => w.t + 20
    ({ w with short := some tc } : Wgb).reply 0 []

/-- MARK_FAILOVER sets FAILOVER in the open interval. -/
def Wgb.markFailover (w : Wgb) : Wgb := if w.powered then (w.mark 2).reply 0 [] else w

/-- TIME_NOTE stores a civil time with its T (R381). -/
def Wgb.timeNote (w : Wgb) (civil : BitVec 96) : Wgb :=
  if ¬ w.powered then w
  else if ¬ w.tcxoOk then w.refuse 1 2 0x22
  else (w.record 8 1 (BitVec.setWidth 384 civil)).reply 0 []

/-! ## The verification port's bytes (R396) -/

/-- A CRC over bytes, most significant bit first: of `n` bits, with its polynomial, from a first value. -/
def crcOver (n poly : Nat) (l : List Nat) (first : Nat) : Nat :=
  l.foldl (fun c x => (List.range 8).foldl (fun c i =>
    let d := c * 2 % 2 ^ n
    if c.testBit (n - 1) ^^ x.testBit (7 - i) then d ^^^ poly else d) c) first

/-- The CRC-8 of a command: its CMD, LEN and payload bytes.
PRESUMED (log entry 106): it starts at 0, as the spec gives its polynomial only. -/
def portCrc8 (l : List Nat) : Nat := crcOver 8 0x07 l 0

/-- The response that the port gives: STATUS, the record count, the records, and the CRC-16/CCITT of all of them.
PRESUMED (log entry 106): polynomial 0x1021, first value 0xFFFF, its high byte first. -/
def Wgb.response (w : Wgb) : List Nat :=
  match w.answer with
  | none => []
  | some (st, l) =>
    let b := st :: leBytes l.length 2 ++ recBytes l
    let c := crcOver 16 0x1021 b 0xFFFF
    b ++ [c / 256, c % 256]

/-- WGB_STAT (Table 14.11). -/
def Wgb.stat (w : Wgb) : Word32 :=
  pack 32 [(0, 1, b2n w.sealed), (1, 1, b2n w.tcxoOk), (2, 1, b2n w.jfull), (3, 1, b2n w.pfail),
    (8, 8, w.tapTransient.toNat), (16, 12, w.len)]

/-- STATUS: the values copied into the WGB registers. -/
def Wgb.status (w : Wgb) : Wgb :=
  w.reply 0 [pack 512 [(0, 32, w.stat.toNat), (32, 32, w.cur.ino), (64, 32, w.auditCnt)]]

end Sys2Proof.Machine
end

