-- ==== Sys2Proof/Machine/CtlTypes.lean ====
section
/-! DEFINITION. The state of the control side: interrupt controller and Oasis (chapter 17), PCI
Express endpoint (chapters 15, 18), Steward with its mailboxes, journal and drain (chapters 12, 15,
16), power, clock and reset control with memory bring-up (chapters 10, 19).  Plain data only. -/
namespace Sys2Proof.Machine

/-! ## Interrupt controller and Oasis -/

/-- A source (Table 17.5); PENDING and LEVEL are computed. -/
structure Src where
  target : BitVec 8
  mask : Bool
  asserted : Bool
  count : Nat
  deriving DecidableEq, Repr

/-- A target's coalescing entry (Tables 17.7, 17.8); ACC is computed. -/
structure Coal where
  ct : Nat
  tt : Nat
  due : Bool
  /-- ACC rose from 0 and the timer waits for the next always-on edge. -/
  armed : Bool
  /-- The always-on cycle at which the running timer started. -/
  start : Option Nat
  deriving DecidableEq, Repr

/-- An entry of a claim list (R482). -/
structure ClaimEnt where
  source : Nat
  count : Nat
  asserted : Bool
  deriving DecidableEq, Repr

/-- The interrupt controller and Oasis. -/
structure Irq where
  src : Vector Src 256
  coal : Vector Coal 96
  claims : Vector (List ClaimEnt) 64
  /-- Events accumulated under a route that has since changed: (source, target, count) (R463). -/
  old : List (Nat × Nat × Nat)
  /-- From step 6 to step 8 of a drain every ACC reads 0 and no timer runs (R491). -/
  quiet : Bool
  spurious : Nat
  agentDrop : Nat
  maskLate : Nat
  /-- Oasis: the listed sources, the latches by source, and OAS_STAT (Table 17.10). -/
  list : List Nat
  latch : Tab Nat
  watching : Bool
  /-- The step of Table 17.4 that runs: 0 none, 1 and 2 power-up, 3 hand-over. -/
  waking : Nat
  wakes : Nat
  lost : Nat
  deriving DecidableEq, Repr

/-- A source at power-on: routed nowhere. -/
def Src.zero : Src := ⟨0xFF, false, false, 0⟩
/-- A coalescing entry at power-on: CT 1, TT 1. -/
def Coal.zero : Coal := ⟨1, 1, false, false, none⟩

/-- The interrupt controller and Oasis at power-on. -/
def Irq.init : Irq :=
  { src := Vector.replicate 256 Src.zero, coal := Vector.replicate 96 Coal.zero,
    claims := Vector.replicate 64 [], old := [], quiet := false, spurious := 0, agentDrop := 0,
    maskLate := 0, list := [], latch := [], watching := false, waking := 0, wakes := 0, lost := 0 }

/-! ## PCI Express endpoint -/

/-- An MSI-X table entry. -/
structure Msix where
  addr : Word64
  data : Word32
  mask : Bool
  deriving DecidableEq, Repr

/-- The endpoint. -/
structure Pci where
  d3 : Bool
  pmeStatus : Bool
  pmeEn : Bool
  msixEn : Bool
  funcMask : Bool
  busMaster : Bool
  memSpace : Bool
  msix : Vector Msix 64
  /-- The link is in L0 (R482, R490). -/
  l0 : Bool
  /-- Messages that left the endpoint, and signals on the device's pins, oldest first. -/
  out : List Out
  /-- Copies of the S registers, by BAR0 offset (R501). -/
  shadow : Tab Nat
  /-- PCR_TIME_H's latch (R513). -/
  timeHi : Word32
  /-- Uncorrectable errors reported through AER (Table 15.4): 0 Completer Abort, 1 Unsupported
  Request, 2 Poisoned TLP. -/
  aer : BitVec 3
  /-- What the last read returned: bytes or words, by the command. -/
  answer : List Nat
  deriving DecidableEq, Repr

/-- An MSI-X entry after a PCI Express reset: its Mask bit is set. -/
def Msix.zero : Msix := ⟨0, 0, true⟩

/-- The endpoint after a PCI Express reset. -/
def Pci.init : Pci :=
  { d3 := false, pmeStatus := false, pmeEn := false, msixEn := false, funcMask := false,
    busMaster := false, memSpace := false, msix := Vector.replicate 64 Msix.zero, l0 := true, out := [],
    shadow := [], timeHi := 0, aer := 0, answer := [] }

/-! ## Steward -/

/-- A committed journal entry (Table 15.10): its type, KEY, JSEQ and BODY bytes.  `gone` marks an
entry that a command has cleared (Table 15.12). -/
structure JEntry where
  jseq : Nat
  rtype : Nat
  key : Nat
  body : List Nat
  gone : Bool
  deriving DecidableEq, Repr

/-- The configuration journal in MRAM (R433 to R435). -/
structure Journal where
  entries : List JEntry
  nextSeq : Nat
  segSeq : Nat
  segment : Nat
  compacting : Bool
  full : Bool
  deriving DecidableEq, Repr

/-- Mailbox states of Table 15.7. -/
inductive MbState where
  | idle | busy | done
  deriving DecidableEq, Repr

/-- How far a BUSY mailbox's command has come: its doorbell waits, it is taken, or its effect runs. -/
inductive Phase where
  | bell | taken | running
  deriving DecidableEq, Repr

/-- A mailbox: 0 to 15 of the host, 16 of the SMBus. -/
structure Mbox where
  st : MbState
  bufViol : Bool
  dbViol : Bool
  lost : Bool
  tag : Nat
  /-- The buffer's bytes that are not zero. -/
  buf : Tab Nat
  phase : Phase
  /-- Internal faults met: 0 none, 1 the first run, 2 both runs (R427). -/
  faults : Nat
  /-- The Steward restarted while the command was unfinished (R337). -/
  rerun : Bool
  /-- A PCI Express reset discards the completion (R429). -/
  discard : Bool
  deriving DecidableEq, Repr

/-- An image slot of the flash: the bytes that are not erased (0xFF), the end of the last write
since the erase, and the result of the last verification since the last write. -/
structure FlashSlot where
  bytes : Tab Nat
  written : Nat
  verified : Option Nat
  /-- RESULT of the last verification, kept through writes (FW_STATUS). -/
  lastResult : Nat
  deriving DecidableEq, Repr

/-- What a long command or drain waits for. -/
inductive Long where
  /-- CACHE_LOCK or CACHE_UNLOCK: the descriptor of internal queue 0. -/
  | lock (ticket : Nat) (unlock : Bool)
  /-- HARROW_SUBMIT: the acknowledgement of the acceptance record. -/
  | submit (ticket : Nat)
  /-- HARROW_ABORT: the end of the descriptor. -/
  | abort (ticket : Nat)
  /-- EPOCH_APPLY or DEVICE_STOP: its drain. -/
  | drain
  /-- PORT_RESET: the links have taken their next state. -/
  | port (links : List Nat)
  /-- TWIN_TAKEOVER: takeover. -/
  | takeover
  /-- METER_CLOSE_SHORT: the interval that ends. -/
  | short (ino : Nat)
  deriving DecidableEq, Repr

/-- Who asked for a drain. -/
inductive DrainBy where
  /-- EPOCH_APPLY of a mailbox. -/
  | apply (m : Nat)
  /-- DEVICE_STOP of a mailbox. -/
  | stop (m : Nat)
  /-- The Steward: a full lost list makes CACHE_EN 0 (R316). -/
  | cacheOff
  /-- The two devices of a pair together: pairing or the end of a resynchronisation. -/
  | joint
  deriving DecidableEq, Repr

/-- The Steward. -/
structure Stw where
  /-- Firmware runs, from a slot or, in safe mode, from the boot ROM. -/
  up : Bool
  safe : Bool
  /-- Running image: 0 slot A, 1 slot B, 2 boot ROM; its VERSION; its ROLLBACK. -/
  running : Nat
  version : Nat
  imgRollback : Nat
  preferred : Nat
  accepted : Bool
  /-- The slot being loaded, and whether the other one has failed (R409). -/
  loading : Option (Nat × Bool)
  /-- A newly activated image is on trial: the formerly running slot (R413). -/
  trial : Option Nat
  /-- FW_ACTIVATE reached DONE and its restart is due (R468). -/
  activating : Bool
  /-- DEVICE_RESET reached DONE and its reset is due (R470). -/
  resetDue : Bool
  /-- Fuses: the rollback count and the first 32 bytes of the SHA-384 of the key (R407). -/
  rollback : Nat
  keyHash : BitVec 256
  slots : Vector FlashSlot 2
  /-- The last watchdog expiry, and whether the other image has been tried (R337). -/
  lastExpiry : Option Nat
  otherTried : Bool
  jrnl : Journal
  mbox : Vector Mbox 17
  /-- Doorbells not yet taken: (batch, mailbox); one batch crossed in one Steward cycle (R424). -/
  bells : List (Nat × Nat)
  batch : Nat
  /-- Taken state-changing commands not completed, in the order taken: S and U (R439). -/
  sq : List Nat
  uq : List Nat
  longs : List (Nat × Long)
  /-- Commit records live until ACK or 1 s after: (mailbox, JSEQ, always-on cycle). -/
  commits : List (Nat × Nat × Nat)
  /-- The staged configuration, and the one that was applied before the present drain. -/
  staged : Cfg
  before : Cfg
  step : Nat
  sub : Nat
  preclean : Bool
  resumed : Nat
  opts : Nat
  by_ : DrainBy
  /-- Drains that wait for the present one to end. -/
  waiting : List (DrainBy × Nat)
  joint : Bool
  /-- The applied record of this drain is committed. -/
  done7g : Bool
  /-- The firmware or digest disagreement of 7f. -/
  disagree : Nat
  rewrite : Bool
  /-- The record of the drain step that is to begin, which its partner has to acknowledge (Table 13.5). -/
  stepGate : Option (Nat × Nat)
  lastTag : Nat
  lastMb : Nat
  lastStatus : Nat
  lastEpoch : Nat
  abandoned : Nat
  smbOffset : Nat
  smbAlert : Bool
  deriving DecidableEq, Repr

/-- A mailbox at power-on. -/
def Mbox.init : Mbox :=
  { st := .idle, bufViol := false, dbViol := false, lost := false, tag := 0, buf := [], phase := .bell,
    faults := 0, rerun := false, discard := false }
/-- An erased slot. -/
def FlashSlot.init : FlashSlot := ⟨[], 0, none, 0⟩
/-- An empty journal: its header only. -/
def Journal.init : Journal := ⟨[], 1, 1, 0, false, false⟩

/-- The Steward right after power-on reset with an empty journal and flash. -/
def Stw.init : Stw :=
  { up := false, safe := false, running := 0, version := 0, imgRollback := 0, preferred := 0,
    accepted := false, loading := none, trial := none, activating := false, resetDue := false,
    rollback := 0, keyHash := 0, slots := Vector.replicate 2 FlashSlot.init, lastExpiry := none,
    otherTried := false, jrnl := Journal.init, mbox := Vector.replicate 17 Mbox.init, bells := [],
    batch := 0, sq := [], uq := [], longs := [], commits := [], staged := Cfg.reset,
    before := Cfg.reset, step := 0, sub := 0, preclean := false, resumed := 0, opts := 0,
    by_ := .joint, waiting := [], joint := false, done7g := false, disagree := 0, rewrite := false,
    stepGate := none,
    lastTag := 0, lastMb := 0, lastStatus := 0, lastEpoch := 0, abandoned := 0, smbOffset := 0,
    smbAlert := false }

/-! ## Power, clock and reset control; memory bring-up -/

/-- The DIMMs of one channel as bring-up finds them (R269): DIMMs, package ranks, logical ranks per
package rank, speed code of Table 10.6, DRAM density in Gb. -/
structure Geo where
  dimms : Nat
  ranks : Nat
  logic : Nat
  speed : Nat
  dens : Nat
  deriving DecidableEq, Repr

/-- A DIMM as its SPD describes it (R269, R288): an RDIMM of ×4 DRAMs with ten to a sub-channel, package ranks,
logical ranks per package rank, the code of its highest speed, DRAM density in Gb, serial number.
DESIGN CHOICE (log entry 78): the layout of the SPD is not the spec's, so what it says is an operand. -/
structure Dimm where
  x4 : Bool
  ranks : Nat
  logic : Nat
  speed : Nat
  dens : Nat
  serial : Word32
  deriving DecidableEq, Repr

/-- What the DIMMs show at the end of a step of memory bring-up: the SPD copies and what they say of the DIMMs, in
channel-major order, and outcomes: of the verification of saved results, by channel (R288), or of each hPPR, in
the order of the recorded rows (R290). -/
structure DimmIn where
  spd : List (Option (List Nat))
  dimms : List (Option Dimm)
  outcomes : List Bool
  deriving DecidableEq, Repr

/-- What the end of a step of memory bring-up brings from outside the block (Table 10.4): the stacks or channels
that fail it, the lane repairs of each stack, the geometry in which each channel trains, and what the DIMMs show. -/
structure BringIn extends DimmIn where
  fails : BitVec 12
  lanes : List (BitVec 16)
  geo : List Geo
  deriving DecidableEq, Repr

/-- HBC_k_STAT (Table 10.5). -/
structure HbcStat where
  train : BitVec 2
  laneRep : BitVec 16
  temp : Nat
  pprDone : Nat
  hot : Bool
  deriving DecidableEq, Repr

/-- DDC_c_STAT (Table 10.6); TEMP is computed from the sensors. -/
structure DdcStat where
  train : BitVec 2
  speed : BitVec 2
  dpc2 : Bool
  rbits : BitVec 3
  idle : Nat
  sppr : Nat
  hppr : Nat
  out : Bool
  geo : Geo
  deriving DecidableEq, Repr

/-- Memory bring-up and the sensors (R271, R286). -/
structure Bring where
  /-- Step of Table 10.4 in progress: HBM 1 to 3, then 4; DDR5 4 to 7, then 8; 0 before. -/
  hbmStep : Nat
  ddrStep : Nat
  hbc : Vector HbcStat 4
  ddc : Vector DdcStat 12
  cap : Nat
  /-- SPD copies in channel-major order; none where it could not be read. -/
  spd : Vector (Option (List Nat)) 24
  /-- What the SPD of each DIMM says, in channel-major order (R269). -/
  dimms : Vector (Option Dimm) 24
  /-- DIMM temperatures; 0xFF when absent. -/
  dimm : Vector Nat 24
  die : Vector Nat 8
  current : Nat
  power : Nat
  deriving DecidableEq, Repr

/-- Power, clock and reset control. -/
structure Pcr where
  /-- Pins and inputs. -/
  porst : Bool
  perst : Bool
  sysClk : Bool
  refClk : Bool
  trimmed : Bool
  pairRole : Bool
  smbAddr : BitVec 2
  thermtrip : Bool
  /-- Rails 3 % to 5 % from nominal, and rails beyond. -/
  railNear : List Nat
  railFar : List Nat
  /-- A supply holds the power-on reset (R518). -/
  supplyHold : Bool
  /-- PCR_PD_STAT but for WGB (Table 18.7). -/
  pd : BitVec 32
  powerOn : Bool
  deviceRst : Bool
  unclean : Bool
  noWarning : Bool
  perstSeen : Bool
  restarts : Nat
  cfgIgn : BitVec 8
  ignOff : Nat
  ignBe : Nat
  ignValid : Bool
  cond : BitVec 8
  /-- Throttles of R528: stacks, slice temperature, current. -/
  thrHbm : BitVec 4
  thrDie : Bool
  thrCur : Bool
  /-- Always-on cycles since power-on. -/
  aon : Nat
  /-- Step of the power-fail sequence (Table 12.8), 0 when none; its causes: bit 0 PWR_FAIL_N,
  bit 1 supply, bit 2 thermal trip; writes performed in its step 3; steps completed. -/
  pf : Nat
  pfCause : Nat
  pfWrites : Nat
  /-- The stopped state (R525), and whether DEVICE_STOP entered it (R471). -/
  stopped : Bool
  byStop : Bool
  selfRef : Bool
  /-- The device stays quiescent after a power-fail sequence (R339). -/
  quiescent : Bool
  /-- Start-up step of Table 19.7 in progress; 0 when none, 9 once ended. -/
  startup : Nat
  /-- The present start is a device reset, whose completion raises source 229. -/
  byDevice : Bool
  /-- Power-on resets so far: the key of R136 is drawn at each. -/
  powerOns : Nat
  bring : Bring
  deriving DecidableEq, Repr

/-- Bring-up not started. -/
def Bring.init : Bring :=
  { hbmStep := 0, ddrStep := 0, hbc := Vector.replicate 4 ⟨0, 0, 0, 0, false⟩,
    ddc := Vector.replicate 12 ⟨0, 0, false, 0, 0, 0, 0, false, ⟨0, 0, 0, 0, 0⟩⟩, cap := 0,
    spd := Vector.replicate 24 none, dimms := Vector.replicate 24 none, dimm := Vector.replicate 24 0xFF, die := Vector.replicate 8 0,
    current := 0, power := 0 }

/-- PCR while PORST_N is asserted: only the always-on domain is on. -/
def Pcr.init : Pcr :=
  { porst := true, perst := true, sysClk := true, refClk := true, trimmed := false, pairRole := false,
    smbAddr := 0, thermtrip := false, railNear := [], railFar := [], supplyHold := false,
    pd := 0x40000000, powerOn := true, deviceRst := false, unclean := false, noWarning := false,
    perstSeen := false, restarts := 0, cfgIgn := 0, ignOff := 0, ignBe := 0, ignValid := false,
    cond := 0, thrHbm := 0, thrDie := false, thrCur := false, aon := 0, pf := 0, pfCause := 0,
    pfWrites := 0, stopped := false, byStop := false, selfRef := false, quiescent := false,
    startup := 0, byDevice := false, powerOns := 0, bring := Bring.init }

end Sys2Proof.Machine
end

