-- ==== Sys2Proof/Syntax.lean ====
section
/-! DEFINITION. The commands of the block: one constructor for each row of spec/opcode_table.json,
with the row's operands.  An operand carries what the step brings from outside the block. -/
namespace Sys2Proof
open Machine

/-- Which word of the Granary arrays a re-read concerns (R149). -/
inductive GWord where
  | entry | link | bucket
  deriving DecidableEq, Repr

/-- What part of an array row is at fault, as it bears on the row's content (Table 11.9). -/
inductive RowPart where
  | address | data | control
  deriving DecidableEq, Repr

/-- What is re-read: an HBM word or a DDR5 line with its error pattern, or a row of an on-die array
of Table 16.10 (`a` and `k` name the entry within it, where the array has entries). -/
inductive Reread where
  | hbm (word : Nat) (err : ErrPat)
  | ddr5 (line : Nat) (err : ErrPat)
  | array (arr inst row : Nat) (good : Bool) (a k : Nat) (part : RowPart)
  deriving DecidableEq, Repr

/-- A configuration write as it bears on the endpoint (R490): the fields written, none where the
write leaves a field alone. -/
structure PciWrite where
  d3 : Option Bool
  clearPme : Bool
  pmeEn : Option Bool
  msixEn : Option Bool
  funcMask : Option Bool
  busMaster : Option Bool
  memSpace : Option Bool
  deriving DecidableEq, Repr

/-- The commands: one constructor per row of the table, in the table's order. -/
inductive Instr where
  /-- CODEWORD_PAIR_RECEIVED (R36). -/
  | codewordPairReceived (a : Nat) (errA : Nat) (errB : Nat) (hdr : BitVec 40) (flits : List Flit)
  /-- REPLAY_TIMEOUT (R53). -/
  | replayTimeout (a : Nat)
  /-- LANE_DETECT (R56). -/
  | laneDetect (a : Nat) (offer : Nat)
  /-- POLLING_COMPLETE (R56). -/
  | pollingComplete (a : Nat)
  /-- POLLING_TIMEOUT (R56). -/
  | pollingTimeout (a : Nat)
  /-- CONFIGURE_TIMEOUT (R56). -/
  | configureTimeout (a : Nat)
  /-- DECLARE_TIMEOUT (R56). -/
  | declareTimeout (a : Nat)
  /-- RECOVERY_COMPLETE (R57). -/
  | recoveryComplete (a : Nat)
  /-- RECOVERY_TIMEOUT (R57). -/
  | recoveryTimeout (a : Nat) (faults : BitVec 8)
  /-- LINK_BUFFERS_EMPTY (R61). -/
  | linkBuffersEmpty (a : Nat)
  /-- AGENT_DECLARATION (R63). -/
  | agentDeclaration (a : Nat) (decl : Line) (tie : Option (Nat × Line))
  /-- RDSHARED (R115). -/
  | rdshared (a : Nat) (hdr : Slot) (more : Bool)
  /-- RDOWN (R115). -/
  | rdown (a : Nat) (hdr : Slot) (more : Bool)
  /-- RDONCE (R115). -/
  | rdonce (a : Nat) (hdr : Slot) (more : Bool)
  /-- UPGRADE (R115). -/
  | upgrade (a : Nat) (hdr : Slot) (more : Bool)
  /-- WRINVFULL (R115). -/
  | wrinvfull (a : Nat) (hdr : Slot) (data : Line) (more : Bool)
  /-- WRPARTIAL (R86). -/
  | wrpartial (a : Nat) (hdr : Slot) (data : Line) (be : BitVec 64) (more : Bool)
  /-- RDUNCACHED (R222). -/
  | rduncached (a : Nat) (hdr : Slot) (more : Bool)
  /-- WRUNCACHED (R221). -/
  | wruncached (a : Nat) (hdr : Slot) (data : Line) (more : Bool)
  /-- LDRESV (R233). -/
  | ldresv (a : Nat) (hdr : Slot) (more : Bool)
  /-- STCOND (R235). -/
  | stcond (a : Nat) (hdr : Slot) (opnd : Slot) (more : Bool)
  /-- ATOMIC (R236). -/
  | atomic (a : Nat) (hdr : Slot) (opnd : Slot) (more : Bool)
  /-- CBAR (R226). -/
  | cbar (a : Nat) (hdr : Slot) (more : Bool)
  /-- RESVCLEAR (R234). -/
  | resvclear (a : Nat) (hdr : Slot) (more : Bool)
  /-- SVCREQ (R227). -/
  | svcreq (a : Nat) (hdr : Slot) (data : Line) (more : Bool)
  /-- WBDIRTY (R118). -/
  | wbdirty (a : Nat) (hdr : Slot) (data : Line) (more : Bool)
  /-- WBOWNED (R118). -/
  | wbowned (a : Nat) (hdr : Slot) (data : Line) (more : Bool)
  /-- EVICTCLEAN (R118). -/
  | evictclean (a : Nat) (hdr : Slot) (more : Bool)
  /-- COMPACK (R109). -/
  | compack (a : Nat) (hdr : Slot)
  /-- RSPI (R119). -/
  | rspi (a : Nat) (hdr : Slot)
  /-- RSPS (R119). -/
  | rsps (a : Nat) (hdr : Slot)
  /-- RSPFWD (R119). -/
  | rspfwd (a : Nat) (hdr : Slot)
  /-- RSPWBCROSSED (R124). -/
  | rspwbcrossed (a : Nat) (hdr : Slot)
  /-- DATAFWD (R97). -/
  | datafwd (a : Nat) (hdr : Slot) (data : Line)
  /-- SLICE_ARBITRATION (R111). -/
  | sliceArbitration (slice : Nat) (idle : Nat) (corr : List Nat)
  /-- HOLD_EXPIRY (R113). -/
  | holdExpiry (la : LAddr) (a : Nat)
  /-- SNOOP_TIMEOUT (R126). -/
  | snoopTimeout (slice : Nat) (idx : Nat) (a : Nat)
  /-- DEPARTURE_WALK_ROW (R146). -/
  | departureWalkRow (k : Nat)
  /-- DISPLACEMENT_TIMEOUT (R142). -/
  | displacementTimeout (slice : Nat) (idx : Nat)
  /-- ALLOC_WAIT_EXPIRY (R169). -/
  | allocWaitExpiry (slice : Nat) (idx : Nat)
  /-- TAG_STORE_READ_RETURN (R163). -/
  | tagStoreReadReturn (slice : Nat) (idx : Nat) (w : Nat) (err : ErrPat)
  /-- GRANARY_REREAD (R149). -/
  | granaryReread (b : Nat) (arr : GWord) (loc : Nat) (row : Nat) (out : GRead)
  /-- INDEX_REBUILD_END (R150). -/
  | indexRebuildEnd (b : Nat)
  /-- QRY_ANSWER (R151). -/
  | qryAnswer (loc : Nat) (ok : Bool) (e : Option GEntry)
  /-- QRY_REQUEST (R348). -/
  | qryRequest (loc : Nat)
  /-- HBM_READ_RETURN (R298). -/
  | hbmReadReturn (word : Nat) (err : ErrPat)
  /-- DDR5_READ_RETURN (R194). -/
  | ddr5ReadReturn (line : Nat) (err : ErrPat)
  /-- REREAD_RETURN (R301). -/
  | rereadReturn (r : Reread)
  /-- HBM_WRITE_ACCEPT (R215). -/
  | hbmWriteAccept (word : Nat)
  /-- DDR5_WRITE_ACCEPT (R215). -/
  | ddr5WriteAccept (line : Nat) (e1 : ErrPat) (e2 : ErrPat)
  /-- ZERO_MAP_WORD_RETURN (R280) to the tracker of this number; 4096 is the slice's oldest prefetch that waits for
  a map word (log entry 110). -/
  | zeroMapWordReturn (slice : Nat) (idx : Nat) (err : ErrPat)
  /-- PAGE_FILL_QUEUED (R282). -/
  | pageFillQueued (slice : Nat) (idx : Nat)
  /-- HBM_REFRESH (R268). -/
  | hbmRefresh (bank : Nat) (limit : Nat)
  /-- DDR5_REFRESH (R272). -/
  | ddr5Refresh (bank : Nat) (limit : Nat)
  /-- QUEUE_ENTRY_AGING (R276). -/
  | queueEntryAging (ddr : Bool) (word : Nat)
  /-- DDR5_ROW_CLOSE (R277). -/
  | ddr5RowClose (row : Nat)
  /-- ORDERED_TOKEN (R219). -/
  | orderedToken (a : Nat)
  /-- END_POINT_NOTICE (R226). -/
  | endPointNotice (a : Nat)
  /-- PREFETCH_QUEUE_TIMEOUT (R200). -/
  | prefetchQueueTimeout (la : LAddr)
  /-- PREFETCH_DATA_RETURN (R203). -/
  | prefetchDataReturn (line : Nat) (err : ErrPat)
  /-- PREFETCH_RESOLUTION_REPORT (R205). -/
  | prefetchResolutionReport
  /-- STRIDE_TRAINING_RECORD (R206). -/
  | strideTrainingRecord
  /-- STRIDE_TARGET (R207). -/
  | strideTarget
  /-- DESCRIPTOR_START (R244). -/
  | descriptorStart
  /-- HARROW_LINE_ISSUE (R250). -/
  | harrowLineIssue (ticket : Nat)
  /-- HARROW_LINE_ANSWER (R247). -/
  | harrowLineAnswer (ticket : Nat)
  /-- PATROL_READ_ISSUE (R314). -/
  | patrolReadIssue (ddr : Bool) (u : Nat)
  /-- PATROL_READ_RESULT (R315). -/
  | patrolReadResult (ddr : Bool) (word : Nat) (err : ErrPat)
  /-- REPAIR_CANDIDATE_RECORD (R319). -/
  | repairCandidateRecord
  /-- EPOCH_APPLY (R446). -/
  | epochApply (m : Nat)
  /-- PRECLEAN_END (R326). -/
  | precleanEnd
  /-- DRAIN_STEP_END (R327). -/
  | drainStepEnd
  /-- DRAIN_SUBSTEP_END (R331). -/
  | drainSubstepEnd (dis : Nat) (outcomes : List Bool) (partner : Bool)
  /-- TENANT_REWRITE_END (R182). -/
  | tenantRewriteEnd
  /-- POWER_ON_RESET (R336). -/
  | powerOnReset
  /-- PORST_RELEASE (R531). -/
  | porstRelease (role : Bool) (smb : BitVec 2) (testEn : Bool)
  /-- STARTUP_STEP_END (R531). -/
  | startupStepEnd
  /-- BOOT_IMAGE_CHECK (R409). -/
  | bootImageCheck (spiFail : Bool)
  /-- MEMORY_BRINGUP_STEP_END (R286). -/
  | memoryBringupStepEnd (ddr : Bool) (fails : BitVec 12) (lanes : List (BitVec 16)) (geo : List Geo) (shown : DimmIn)
  /-- PERST_ASSERT (R429). -/
  | perstAssert
  /-- PERST_DEASSERT (R522). -/
  | perstDeassert
  /-- WATCHDOG_EXPIRY (R337). -/
  | watchdogExpiry
  /-- STEWARD_RESTART_END (R410). -/
  | stewardRestartEnd
  /-- ACTIVATION_ACCEPTED (R413). -/
  | activationAccepted
  /-- ACTIVATION_RESTART (R468). -/
  | activationRestart
  /-- DEVICE_RESET_START (R470). -/
  | deviceResetStart
  /-- PWR_FAIL_ASSERT (R339). -/
  | pwrFailAssert
  /-- POWER_FAIL_STEP_END (R339). -/
  | powerFailStepEnd
  /-- RAIL_MONITOR (R518). -/
  | railMonitor (rail : Nat) (far : Bool)
  /-- THERMAL_READING (R528). -/
  | thermalReading (sensor : Nat) (idx : Nat) (value : Nat) (cleared : Bool)
  /-- SYS_CLK_MISSING (R521). -/
  | sysClkMissing
  /-- REFCLK_MISSING (R521). -/
  | refclkMissing
  /-- OSCILLATOR_TRIM (R521). -/
  | oscillatorTrim
  /-- PCIE_DOMAIN_OFF (R523). -/
  | pcieDomainOff
  /-- SMBUS_ADDRESS_MATCH (R524). -/
  | smbusAddressMatch
  /-- TWIN_HELLO (R353). -/
  | twinHello (h : Hello)
  /-- TWIN_HEARTBEAT (R348). -/
  | twinHeartbeat
  /-- TWIN_GOODBYE (R363). -/
  | twinGoodbye
  /-- HB_TIMEOUT (R363). -/
  | hbTimeout
  /-- WITNESS_TEST (R350). -/
  | witnessTest (up : Bool) (down : Bool)
  /-- WITNESS_WAIT_EXPIRY (R364). -/
  | witnessWaitExpiry
  /-- FAILOVER_REPLAY_END (R364). -/
  | failoverReplayEnd
  /-- RECONCILE_WAIT_EXPIRY (R367). -/
  | reconcileWaitExpiry
  /-- RESEND_WINDOW_EXPIRY (R367). -/
  | resendWindowExpiry
  /-- STBY_WALK_END (R364). -/
  | stbyWalkEnd
  /-- LOG_RECORD_RECEIVE (R357). -/
  | logRecordReceive (r : TRec)
  /-- LOG_RECORD_APPLY (R358). -/
  | logRecordApply (src : Nat)
  /-- TWIN_ACK_RECEIVE (R357). -/
  | twinAckReceive (src : Nat) (lseq : Nat)
  /-- AGENT_MAP_UPDATE (R354). -/
  | agentMapUpdate (uid : Word64) (a : Nat) (slot : Nat) (sets : Nat) (ways : Nat) (present : Bool)
  /-- TIME_SYNC_SEND (R374). -/
  | timeSyncSend
  /-- TIME_SYNC_RECEIVE (R374). -/
  | timeSyncReceive (t : Word64) (roundTrip : Nat)
  /-- RESYNC_COPY_END (R372). -/
  | resyncCopyEnd
  /-- METERING_TICK (R390). -/
  | meteringTick
  /-- TAP_FRAME_RECEIVE (R386). -/
  | tapFrameReceive (tap : Nat) (bad1 : Bool) (bad2 : Bool)
  /-- SHORT_BOUNDARY (R387). -/
  | shortBoundary
  /-- INTERVAL_CLOSE (R388). -/
  | intervalClose (late : Bool)
  /-- WGB_PFAIL (R390). -/
  | wgbPfail
  /-- WEIGHBRIDGE_POWER_RESTORE (R390). -/
  | weighbridgePowerRestore
  /-- TIME_FAULT (R380). -/
  | timeFault
  /-- TIME_FAULT_END (R380). -/
  | timeFaultEnd
  /-- READ_ID (R395). -/
  | readId (port : Nat) (nonce : BitVec 128) (crcOk : Bool)
  /-- READ_PARAMS (R396). -/
  | readParams (port : Nat) (nonce : BitVec 128) (crcOk : Bool)
  /-- READ_INTERVALS (R395). -/
  | readIntervals (port : Nat) (group : Nat) (lo : Nat) (hi : Nat) (nonce : BitVec 128) (crcOk : Bool)
  /-- READ_CUMULATIVE (R395). -/
  | readCumulative (port : Nat) (first : Nat) (n : Nat) (nonce : BitVec 128) (crcOk : Bool)
  /-- READ_AUDIT (R395). -/
  | readAudit (port : Nat) (first : Nat) (n : Nat) (nonce : BitVec 128) (crcOk : Bool)
  /-- SELF_TEST (R396). -/
  | selfTest (port : Nat) (journalOk : Bool) (tapsOk : Bool) (crcOk : Bool)
  /-- SET_PARAMS (R398). -/
  | setParams (port : Nat) (len : Nat) (crcOk : Bool)
  /-- LOAD_PATCH (R396). -/
  | loadPatch (port : Nat) (pin : Bool) (bytes : List Nat) (crcOk : Bool)
  /-- SEAL (R397). -/
  | seal (port : Nat) (pin : Bool) (confirm : Word32) (officer : BitVec 192) (date : Word64) (crcOk : Bool)
  /-- CLOSE_SHORT (R387). -/
  | closeShort (port : Nat) (crcOk : Bool)
  /-- MARK_FAILOVER (R400). -/
  | markFailover (port : Nat) (crcOk : Bool)
  /-- TIME_NOTE (R381). -/
  | timeNote (port : Nat) (civil : BitVec 96) (crcOk : Bool)
  /-- STATUS (R378). -/
  | status (port : Nat) (crcOk : Bool)
  /-- MAILBOX_BUFFER_WRITE (R422). -/
  | mailboxBufferWrite (m : Nat) (off : Nat) (bytes : List (Option Nat)) (poisoned : Bool)
  /-- MAILBOX_GO (R422). -/
  | mailboxGo (m : Nat) (same : Bool)
  /-- MAILBOX_ACK (R422). -/
  | mailboxAck (m : Nat)
  /-- COMMAND_TAKE (R424). -/
  | commandTake (faults : Nat)
  /-- JOURNAL_COMPACTION_END (R435). -/
  | journalCompactionEnd
  /-- SMBUS_STATUS_READ (R431). -/
  | smbusStatusRead
  /-- SMBUS_SET_OFFSET (R431). -/
  | smbusSetOffset (off : Nat) (pecOk : Bool)
  /-- SMBUS_BLOCK_WRITE (R431). -/
  | smbusBlockWrite (bytes : List Nat) (pecOk : Bool)
  /-- SMBUS_BLOCK_READ (R431). -/
  | smbusBlockRead (n : Nat)
  /-- SMBUS_GO (R431). -/
  | smbusGo (same : Bool) (pecOk : Bool)
  /-- SMBUS_ACK (R431). -/
  | smbusAck (pecOk : Bool)
  /-- SMBUS_ALERT_RESPONSE (R431). -/
  | smbusAlertResponse
  /-- ID_GET (R443). -/
  | idGet (m : Nat)
  /-- ID_AGENTS (R64). -/
  | idAgents (m : Nat)
  /-- CFG_STAGE (R444). -/
  | cfgStage (m : Nat)
  /-- CFG_READ (R444). -/
  | cfgRead (m : Nat)
  /-- CFG_DISCARD (R439). -/
  | cfgDiscard (m : Nat)
  /-- CFG_CHECK (R445). -/
  | cfgCheck (m : Nat)
  /-- CFG_DIGEST (R331). -/
  | cfgDigest (m : Nat)
  /-- EPOCH_STATUS (R446). -/
  | epochStatus (m : Nat)
  /-- REGION_LOOKUP (R447). -/
  | regionLookup (m : Nat)
  /-- REGION_READ (R447). -/
  | regionRead (m : Nat)
  /-- TENANT_READ (R447). -/
  | tenantRead (m : Nat)
  /-- CACHE_LOCK (R448). -/
  | cacheLock (m : Nat)
  /-- CACHE_UNLOCK (R448). -/
  | cacheUnlock (m : Nat)
  /-- CACHE_STATUS (R447). -/
  | cacheStatus (m : Nat)
  /-- CACHE_TAG_READ (R449). -/
  | cacheTagRead (m : Nat)
  /-- HARROW_SUBMIT (R450). -/
  | harrowSubmit (m : Nat)
  /-- HARROW_QUERY (R452). -/
  | harrowQuery (m : Nat)
  /-- HARROW_REAP (R451). -/
  | harrowReap (m : Nat)
  /-- HARROW_ABORT (R258). -/
  | harrowAbort (m : Nat)
  /-- CE_READ (R308). -/
  | ceRead (m : Nat)
  /-- CE_CLEAR (R453). -/
  | ceClear (m : Nat)
  /-- ELOG_READ (R321). -/
  | elogRead (m : Nat)
  /-- TAINT_CLEAR (R454). -/
  | taintClear (m : Nat)
  /-- ZMAP_WRITE (R455). -/
  | zmapWrite (m : Nat)
  /-- TAGLOST_CLEAR (R456). -/
  | taglostClear (m : Nat)
  /-- REPAIR_LIST (R319). -/
  | repairList (m : Nat)
  /-- REPAIR_NOMINATE (R457). -/
  | repairNominate (m : Nat)
  /-- TWIN_STAGE (R459). -/
  | twinStage (m : Nat)
  /-- TWIN_STATUS (R375). -/
  | twinStatus (m : Nat)
  /-- TWIN_WITNESS (R460). -/
  | twinWitness (m : Nat) (up : Bool) (down : Bool)
  /-- TWIN_TAKEOVER (R461). -/
  | twinTakeover (m : Nat)
  /-- TWIN_REJOIN (R462). -/
  | twinRejoin (m : Nat)
  /-- IRQ_ROUTE (R463). -/
  | irqRoute (m : Nat)
  /-- IRQ_COALESCE (R464). -/
  | irqCoalesce (m : Nat)
  /-- IRQ_OASIS (R495). -/
  | irqOasis (m : Nat)
  /-- IRQ_READ (R463). -/
  | irqRead (m : Nat)
  /-- METER_ID (R466). -/
  | meterId (m : Nat) (portFails : Nat)
  /-- METER_INTERVALS (R465). -/
  | meterIntervals (m : Nat) (portFails : Nat)
  /-- METER_CUMULATIVE (R466). -/
  | meterCumulative (m : Nat) (portFails : Nat)
  /-- METER_AUDIT (R466). -/
  | meterAudit (m : Nat) (portFails : Nat)
  /-- METER_STATUS (R466). -/
  | meterStatus (m : Nat) (portFails : Nat)
  /-- METER_TIME_NOTE (R381). -/
  | meterTimeNote (m : Nat) (portFails : Nat)
  /-- METER_CLOSE_SHORT (R466). -/
  | meterCloseShort (m : Nat) (portFails : Nat)
  /-- METER_MARK_FAILOVER (R466). -/
  | meterMarkFailover (m : Nat) (portFails : Nat)
  /-- FW_WRITE (R467). -/
  | fwWrite (m : Nat) (spi : Nat)
  /-- FW_VERIFY (R408). -/
  | fwVerify (m : Nat)
  /-- FW_ACTIVATE (R468). -/
  | fwActivate (m : Nat)
  /-- FW_ROLLBACK_COMMIT (R469). -/
  | fwRollbackCommit (m : Nat)
  /-- FW_STATUS (R411). -/
  | fwStatus (m : Nat)
  /-- DEVICE_RESET (R470). -/
  | deviceReset (m : Nat)
  /-- DEVICE_STOP (R471). -/
  | deviceStop (m : Nat)
  /-- JOURNAL_READ (R472). -/
  | journalRead (m : Nat)
  /-- JOURNAL_COMPACT (R472). -/
  | journalCompact (m : Nat)
  /-- PORT_RESET (R473). -/
  | portReset (m : Nat)
  /-- SPD_READ (R474). -/
  | spdRead (m : Nat)
  /-- SENSOR_READ (R474). -/
  | sensorRead (m : Nat)
  /-- EVENT_ARRIVAL (R477). -/
  | eventArrival
  /-- COALESCING_TIMER_EXPIRY (R479). -/
  | coalescingTimerExpiry (t : Nat)
  /-- VECTOR_CLAIM (R481). -/
  | vectorClaim (v : Nat)
  /-- CAUSE_READ (R483). -/
  | causeRead (v : Nat)
  /-- SOURCE_MASK_WRITE (R480). -/
  | sourceMaskWrite (n : Nat) (mask : Bool) (late : Bool)
  /-- AGENT_TARGET_DELIVERY (R487). -/
  | agentTargetDelivery (a : Nat)
  /-- OASIS_EVENT (R492). -/
  | oasisEvent
  /-- OASIS_WAKE_POWERUP_END (R493). -/
  | oasisWakePowerupEnd
  /-- OASIS_HANDOVER (R493). -/
  | oasisHandover
  /-- REGISTER_WRITE (R10). -/
  | registerWrite (off : Nat) (bytes : List (Option Nat)) (poisoned : Bool)
  /-- PCR_TIME_L_READ (R513). -/
  | pcrTimeLRead
  /-- SHADOW_CAPTURE (R501). -/
  | shadowCapture
  /-- PCI_CONFIG_WRITE (R490). -/
  | pciConfigWrite (w : PciWrite)
  /-- MSIX_TABLE_WRITE (R418). -/
  | msixTableWrite (off : Nat) (bytes : List (Option Nat))
  /-- PME_SERVICE_TIMEOUT (R490). -/
  | pmeServiceTimeout
  /-- WEIGHBRIDGE_POWER_LOSS (R517). -/
  | weighbridgePowerLoss
  /-- RAIL_BACK_IN_RANGE (R518). -/
  | railBackInRange (rail : Nat)
  /-- SYS_CLK_RETURN (R521). -/
  | sysClkReturn
  /-- REFCLK_RETURN (R521). -/
  | refclkReturn
  /-- JTAG_DEVICE_RESET (R552). -/
  | jtagDeviceReset
  /-- SMBUS_CLOCK_LOW_TIMEOUT (R430). -/
  | smbusClockLowTimeout
  /-- WRITE_DRAIN (R277). -/
  | writeDrain (ddr : Bool) (ch : Nat)
  deriving DecidableEq, Repr

end Sys2Proof
end

