-- ==== Sys2Proof/Decode.lean ====
section
/-! DEFINITION. The words of commands.  No row of spec/opcode_table.json gives bits: a command is an event,
not a word, so no word spells one. -/
namespace Sys2Proof

/-- The command that a word of the table's bits spells: none, as no row has bits. -/
def decodeTableWord (_nbits _w : Nat) : Option Instr := none

end Sys2Proof
end

