-- ==== Sys2Proof/Machine/FabOps.lean ====
section
/-! DEFINITION. Shared operations of the fabric: events, links, messages to agents, the integrity
counters, the correctable-error tables, the error log and repair candidates. -/
namespace Sys2Proof.Machine

/-- An event source is raised; it is on its way to the interrupt controller (R476). -/
def Fabric.raise (f : Fabric) (n : Nat) : Fabric := { f with raised := f.raised ++ [(n, 0)] }

/-- A source with a level is asserted or deasserted. -/
def Fabric.level (f : Fabric) (n : Nat) (on : Bool) : Fabric :=
  { f with raised := f.raised ++ [(n, if on then 1 else 2)] }

/-- Link `i`: 0 to 31 by agent number, 32 the twin link. -/
def Fabric.link (f : Fabric) (i : Nat) : Link :=
  if i = 32 then f.tlink else vget f.links (Link.init .disabled) i

/-- Replace link `i`. -/
def Fabric.setLink (f : Fabric) (i : Nat) (l : Link) : Fabric :=
  if i = 32 then { f with tlink := l } else { f with links := vset f.links i l }

/-- Change link `i`. -/
def Fabric.modLink (f : Fabric) (i : Nat) (g : Link → Link) : Fabric := f.setLink i (g (f.link i))

/-- The link kind of link `i`. -/
def kindOf (i : Nat) : LinkKind := if i = 32 then twinKind else portKind

/-- Send a message to agent `a`. -/
def Fabric.send (f : Fabric) (a : Nat) (m : Msg) : Fabric :=
  f.modLink a (fun l => l.send portKind m)

/-- Agent `a` is admitted: its link's declaration was accepted. -/
def Fabric.admitted (f : Fabric) (a : Nat) : Bool := (f.link a).decl.isSome

/-- Agent `a` is a caching agent. -/
def Fabric.caching (f : Fabric) (a : Nat) : Bool :=
  match (f.link a).decl with | some d => dclCaching d | none => false

/-- Agents whose links are Active. -/
def Fabric.activeAgents (f : Fabric) : List Nat :=
  (List.range 32).filter (fun a => (f.link a).st = .active)

/-- Send an EvtIrq to every Active agent (R329, R355, Table 13.8). -/
def Fabric.evtIrqAll (f : Fabric) (source count : Nat) : Fabric :=
  f.activeAgents.foldl (fun f a => f.send a (mkEvtIrq source count)) f

/-- Count and capture a protocol error of agent `a`'s link that does not fence it; source 2n + 1
(R104). -/
def Fabric.protoErr (f : Fabric) (a op why : Nat) : Fabric :=
  (f.modLink a (fun l => l.perr op why)).raise (2 * (a / 2) + 1)

/-- Count a tenant difference of agent `a` (R101). -/
def Fabric.tenantMis (f : Fabric) (a : Nat) : Fabric :=
  f.modLink a (fun l => { l with err := { l.err with tenantMis := bvSat l.err.tenantMis 1 } })

/-- Raise an event when a counter passed a multiple of `k` (saturating counters stop raising). -/
def Fabric.raiseEvery (f : Fabric) (k old new n : Nat) : Fabric :=
  if old < new && new % k = 0 then f.raise n else f

/-! ## Slice counters -/

/-- Change the tag and prefetch counters of slice `s`. -/
def Fabric.modStat (f : Fabric) (s : Nat) (g : SliceStat → SliceStat) : Fabric :=
  { f with sstat := vmod f.sstat s g }

/-- A coherence fault in slice `s` (R118, R132). -/
def Fabric.cohFault (f : Fabric) (s : Nat) : Fabric :=
  ({ f with homStat := vmod f.homStat s (fun h => { h with fault := bvSat h.fault 1 }) } :
    Fabric).raise (42 + 3 * s)

/-- A transient snoop timeout in slice `s` (R126, R132). -/
def Fabric.snpTransient (f : Fabric) (s : Nat) : Fabric :=
  let hs := vmod f.homStat s (fun h => { h with snpTransient := bvSat h.snpTransient 1 })
  ({ f with homStat := hs } : Fabric).raise (41 + 3 * s)

/-- Count a NOALLOC fallback; source 80 + s on each 256th (R169, R190). -/
def Fabric.countNoalloc (f : Fabric) (s : Nat) : Fabric :=
  let old := (vget f.sstat SliceStat.zero s).noalloc
  let new := bvSat old 1
  (f.modStat s (fun x => { x with noalloc := new })).raiseEvery 256 old.toNat new.toNat (80 + s)

/-- Count a fully pinned tag-cache set; source 80 + s on each 256th (R166, R190). -/
def Fabric.countPinWait (f : Fabric) (s : Nat) : Fabric :=
  let old := (vget f.sstat SliceStat.zero s).pinWait
  let new := bvSat old 1
  (f.modStat s (fun x => { x with pinWait := new })).raiseEvery 256 old.toNat new.toNat (80 + s)

/-! ## Integrity blocks (R308) -/

/-- The integrity block of a word: HBM stacks 0 to 3, DDR5 controllers 4 to 9. -/
def blockOf (ddr : Bool) (word : Nat) : Nat :=
  if ddr then 4 + ddrChan word / 2 else hbmChan word / 16

/-- The event source of a block: 160 + k or 164 + d (Table 11.21). -/
def blockSource (b : Nat) : Nat := 160 + b

/-- LOC of a word (Table 11.8). -/
def locOf (ddr : Bool) (word : Nat) : Nat :=
  if ddr then packNat [(0, 4, ddrChan word), (4, 33, ddrLB word)] else word * 64

/-- Device time in µs modulo 2³². -/
def Fabric.now32 (f : Fabric) : Nat := f.time.toNat % 2 ^ 32

/-- Change integrity block `b`. -/
def Gln.modBlk (g : Gln) (b : Nat) (h : GlnBlk → GlnBlk) : Gln := { g with blks := vmod g.blks b h }

/-- Write one error-log entry and advance NEXT; overwriting a VALID entry sets OVERRUN and raises
source 176 (R321, R554). -/
def Fabric.elogWrite (f : Fabric) (e : Elog) : Fabric :=
  let g := f.gln
  let i := g.elogNext.toNat
  let ovr := (vget g.elog Elog.zero i).valid
  let e := { e with valid := true, time := BitVec.ofNat 32 f.now32 }
  let f := { f with gln := { g with elog := vset g.elog i e, elogNext := g.elogNext + 1,
                                    overrun := g.overrun || ovr, elogOut := g.elogOut ++ [e] } }
  if ovr then f.raise 176 else f

/-- The log entry of a memory fault. -/
def Fabric.elogMem (f : Fabric) (ddr : Bool) (word kind : Nat) (gleaner twin : Bool) (d : Dec)
    (tenant : Nat) : Fabric :=
  let mis := d.kind = .mismatch
  f.elogWrite
    { block := BitVec.ofNat 4 (blockOf ddr word), kind := BitVec.ofNat 4 kind,
      gleaner := gleaner, twin := twin, altIdx := BitVec.ofNat 3 (if mis then d.altIdx else 0),
      sym := BitVec.ofNat 7 d.sym, valid := true, loc := BitVec.ofNat 48 (locOf ddr word),
      altVal := BitVec.ofNat 8 (if mis then d.altVal else 0), tenant := BitVec.ofNat 8 tenant,
      time := 0 }

/-- A word was rewritten poisoned: POISONED and source 170 (R555). -/
def Fabric.countPoisoned (f : Fabric) : Fabric :=
  ({ f with gln := { f.gln with poisoned := bvSat f.gln.poisoned 1 } } : Fabric).raise 170

/-- A clean word was invalidated for refetch (Table 11.3). -/
def Fabric.countRefetch (f : Fabric) : Fabric :=
  { f with gln := { f.gln with refetch := bvSat f.gln.refetch 1 } }

/-- A merge onto a poisoned word (Table 11.4). -/
def Fabric.countPoisonWr (f : Fabric) : Fabric :=
  { f with gln := { f.gln with poisonWr := bvSat f.gln.poisonWr 1 } }

/-- The rank of a DDR5 location: channel, sub-channel and RNK (R274, Table 11.8). -/
def Fabric.rankOf (f : Fabric) (loc : Nat) : Nat :=
  let p := ddrPlace f.mem.rbits (loc / 16)
  loc % 16 * 32 + p.sc * 16 + p.rnk

/-- Pass a repair candidate to the Steward unless it is recorded already (R319), or its DRAM has been declared
faulty (R311). -/
def Fabric.nominate (f : Fabric) (block row loc dram : Nat) : Fabric :=
  if f.gln.repairs.any (fun r => r.block = block && r.row = row && r.state ≤ 1)
      || (4 ≤ block && block < 10 && f.gln.faulty.contains (block, f.rankOf loc, dram)) then f
  else { f with gln := { f.gln with
    repairs := f.gln.repairs ++ [{ block := block, row := row, loc := loc, dram := dram, state := 0, epoch := 0 }] } }

/-- The row key of a word (R310). -/
def Fabric.rowKey (f : Fabric) (ddr : Bool) (word : Nat) : Nat :=
  if ddr then ddrRow f.mem.rbits word else hbmRow word

/-- Enter a correction in its table: the word's entry, a free one, or the entry with the lowest
COUNT and then the lowest LAST (R309). -/
def ceEnter (tab : List CeEntry) (e : CeEntry) : List CeEntry × Bool :=
  if tab.any (fun x => x.loc = e.loc) then
    (modFirst (fun x => x.loc = e.loc)
      (fun x => { x with count := min 255 (x.count + 1), last := e.last }) tab, false)
  else if tab.length < 64 then (tab ++ [e], false)
  else
    let best := tab.foldl (fun (b : Option CeEntry) x =>
      match b with
      | none => some x
      | some y => if x.count < y.count || (x.count = y.count && x.last < y.last) then some x
                  else some y) none
    match best with
    | none => (tab ++ [e], false)
    | some y => (modFirst (fun x => x.loc = y.loc) (fun _ => e) tab, true)

/-- A correction (R309 to R312): the table, CORR with its event at each 1,024th, the row's
nomination at CE_LIMIT, and the declaration of a faulty DRAM. -/
def Fabric.correction (cfg : Cfg) (f : Fabric) (ddr : Bool) (word sym : Nat) : Fabric :=
  let b := blockOf ddr word
  let row := f.rowKey ddr word
  let rank := if ddr then f.rankOf (locOf true word) else 0
  let e : CeEntry := { loc := locOf ddr word, sym := sym, count := 1, first := f.now32,
                       last := f.now32, row := row, rank := rank, nominated := false }
  let blk := vget f.gln.blks GlnBlk.zero b
  let (tab, ovf) := ceEnter blk.table e
  let corr := bvSat blk.corr 1
  let f := { f with gln := f.gln.modBlk b (fun x =>
    { x with corr := corr, table := tab, ceOvf := if ovf then bvSat x.ceOvf 1 else x.ceOvf }) }
  let f := f.raiseEvery 1024 blk.corr.toNat corr.toNat (blockSource b)
  let sum := (tab.filter (fun x => x.row = row)).foldl (fun n x => n + x.count) 0
  let known := tab.any (fun x => x.row = row && x.nominated)
  let faulty := ddr && f.gln.faulty.contains (b, rank, sym)
  let f := if cfg.ceLimit ≤ sum && ¬ known && ¬ faulty then
      let f := { f with gln := f.gln.modBlk b (fun x =>
        { x with table := modAll (fun y => y.row = row) (fun y => { y with nominated := true }) x.table }) }
      f.nominate b row (locOf ddr word) (if ddr then sym else 10)
    else f
  let rows := ((tab.filter (fun x => x.rank = rank && x.sym = sym)).map (·.row)).eraseDups
  if ddr && 4 ≤ rows.length && ¬ faulty then
    let f := { f with gln := { f.gln with faulty := f.gln.faulty ++ [(b, rank, sym)] } }
    let f := f.elogWrite { Elog.zero with
      block := BitVec.ofNat 4 b, kind := 8, sym := BitVec.ofNat 7 sym,
      loc := BitVec.ofNat 48 (locOf ddr word) }
    f.raise (blockSource b)
  else f

/-- A transient fault in a word (R301). -/
def Fabric.transientFault (f : Fabric) (ddr : Bool) (word : Nat) : Fabric :=
  let g := f.gln.modBlk (blockOf ddr word) (fun x => { x with transient := bvSat x.transient 1 })
  { f with gln := g }

/-- A lasting fault in a word: LASTING, the block's event, 171 for a mismatch, and a repair
candidate unless it is a mismatch (R301, R302, Table 11.21). -/
def Fabric.lastingFault (f : Fabric) (ddr : Bool) (word : Nat) (d : Dec) : Fabric :=
  let b := blockOf ddr word
  let f := { f with gln := f.gln.modBlk b (fun x => { x with lasting := bvSat x.lasting 1 }) }
  let f := f.raise (blockSource b)
  if d.kind = .mismatch then f.raise 171 else f.nominate b (f.rowKey ddr word) (locOf ddr word) (if ddr then d.sym else 10)

/-- A lasting on-die array fault: KIND 0111b, source 173 and a repair candidate (R318). -/
def Fabric.arrayFault (f : Fabric) (array inst row : Nat) : Fabric :=
  let loc := packNat [(0, 16, row), (16, 8, array), (24, 3, inst)]
  let f := f.elogWrite { Elog.zero with
    block := 10, kind := 7, loc := BitVec.ofNat 48 loc }
  (f.raise 173).nominate 10 loc loc 10

/-! ## Twin gating -/

/-- Commits are logged to the partner: PAIRED, or the authoritative device of a
resynchronisation (R24, Table 13.3). -/
def Fabric.mirrors (f : Fabric) : Bool :=
  f.twin.pair = .paired || (f.twin.pair = .resync && ¬ f.twin.rejoiner)

/-- This device is the active home of a line (R28, Table 13.3). -/
def Fabric.activeHome (f : Fabric) (la : LAddr) : Bool :=
  let own := parityH la == decide (f.twin.role = 2)
  match f.twin.pair with
  | .single | .hello | .survivor => true
  | .resync => ¬ f.twin.rejoiner
  | .paired | .failover | .waiting => own
  | .isolated => false

/-- This device is the active home of every line: there is no partner whose lines a descriptor awaits. -/
def Fabric.homeOfAll (f : Fabric) : Bool :=
  match f.twin.pair with
  | .single | .hello | .survivor => true
  | .resync => ¬ f.twin.rejoiner
  | _ => false

/-! ### The words of a record (Tables 13.6, 13.7) -/

/-- The record header slot. -/
def TRec.header (r : TRec) : Slot :=
  pack 128 [(0, 4, r.rtype), (4, 4, r.src), (8, 24, r.lseq), (32, 1, b2n r.txn.isSome), (33, 1, b2n r.gch.isSome),
    (34, 1, b2n r.data.isSome), (35, 1, match r.data with | some (_, p) => b2n p | none => 0), (36, 46, r.la.toNat),
    (82, 5, r.agent), (87, 32, r.rseq.toNat), (119, 8, r.tenant)]

/-- The transaction slot. -/
def TxSlot.word (x : TxSlot) : Slot :=
  pack 128 [(0, 15, x.htag), (15, 6, x.opcode), (21, 3, x.st.code), (24, 3, x.res.code), (27, 1, b2n x.dup), (32, 64, x.value)]

/-- The Granary-change slot; W_STATE is the code of Table 5.2. -/
def Gch.word (g : Gch) : Slot :=
  pack 128 ([(0, 16, g.remove), (16, 16, g.toS), (32, 16, g.pend)] ++
    match g.write with
    | some (k, st, set, way) => [(48, 4, k), (52, 2, st.code - 1), (54, 14, set), (68, 4, way), (72, 1, 1)]
    | .none => [])

/-- A record as a message of the LOG class. -/
def TRec.msg (r : TRec) : Msg :=
  { hdr := r.header
    pay := (r.txn.toList.map TxSlot.word) ++ (r.gch.toList.map Gch.word) ++
      (match r.data with | some (d, _) => dataSlots d 0 | none => []) }

/-- Send a message of the ACK, HB or QRY class: (kind, payload).
DESIGN CHOICE (log entry 52): the spec gives these messages no layout; each takes one slot, with its class where
a record has RTYPE, its kind and its payload. -/
def ctlMsg (kind payload : Nat) : Msg :=
  let c := if kind = 1 then 13 else if kind = 7 || kind = 8 then 15 else 14
  { hdr := pack 128 [(0, 4, c), (4, 4, kind), (8, 120, payload)], pay := [] }

/-- Give a message to the twin link (R347, R348). -/
def Fabric.toTwin (f : Fabric) (m : Msg) : Fabric := { f with tlink := f.tlink.send twinKind m }

/-- Send a message on the HB, ACK or QRY class: (kind, payload). -/
def Fabric.sendCtl (f : Fabric) (kind payload : Nat) : Fabric :=
  ({ f with twin := { f.twin with sentCtl := f.twin.sentCtl ++ [(kind, payload)] } } : Fabric).toTwin (ctlMsg kind payload)

/-- A message that the twin link has received leaves its receive buffer. -/
def Fabric.fromTwin (f : Fabric) (h : Slot) : Fabric :=
  { f with tlink := Link.pump twinKind (f.tlink.consume true h) }

/-- The oldest received control message of a kind leaves the receive buffer. -/
def Fabric.ctlTaken (f : Fabric) (kind : Nat) : Fabric :=
  match f.tlink.rxq.find? (fun m => 13 ≤ bitsOf m.hdr.toNat 0 4 && bitsOf m.hdr.toNat 4 4 = kind) with
  | some m => f.fromTwin m.hdr
  | none => f

/-- Heartbeats that have come say only that the partner lives: they leave the receive buffer. -/
def Fabric.dropBeats (f : Fabric) : Fabric :=
  (f.tlink.rxq.filter (fun m => m.hdr = (ctlMsg 2 0).hdr)).foldl (fun f m => f.fromTwin m.hdr) f

/-- Hand a record to the twin link: it takes the next LSEQ of its SRC (R356, R357). -/
def Fabric.logRec (f : Fabric) (r : TRec) : Fabric × (Nat × Nat) :=
  let n := vget f.twin.lseq 0 r.src
  let r := { r with lseq := n }
  (({ f with twin := { f.twin with outstanding := f.twin.outstanding ++ [r],
                                   lseq := vset f.twin.lseq r.src ((n + 1) % 2 ^ 24) } } : Fabric).toTwin r.msg, (r.src, n))

/-- No record is free: 4,096 are outstanding, or earlier ones wait for a free record (R357). -/
def Fabric.logFull (f : Fabric) : Bool := 4096 ≤ f.twin.outstanding.length || f.twin.late ≠ []

/-- A record without a gate, sent only when this device mirrors; it waits in order for a free record (R357). -/
def Fabric.logFree (f : Fabric) (r : TRec) : Fabric :=
  if ¬ f.mirrors then f
  else if f.logFull then { f with twin := { f.twin with late := f.twin.late ++ [r] } }
  else (f.logRec r).1

/-- Records take the places that acknowledgements have freed, in order (R357). -/
def lateGo : Nat → Fabric → Fabric
  | 0, f => f
  | n + 1, f =>
    match f.twin.late with
    | [] => f
    | r :: rest =>
      if 4096 ≤ f.twin.outstanding.length then f
      else lateGo n (({ f with twin := { f.twin with late := rest } } : Fabric).logRec r).1

/-- While the twin link is down and nothing has decided who goes on, what is gated on the partner's log is
held (R24). -/
def Fabric.logHeld (f : Fabric) : Bool := f.twin.pair = .waiting

/-- A gated action must wait: its acknowledgement cannot come, or it has no free record (R24, R357). -/
def Fabric.gateShut (f : Fabric) : Bool := f.logHeld || (f.mirrors && f.logFull)

/-- The record awaits its acknowledgement. -/
def Fabric.unacked (f : Fabric) (g : Nat × Nat) : Bool :=
  f.twin.outstanding.any (fun r => r.src = g.1 && r.lseq = g.2)

/-- An empty record of a type and source about a line. -/
def TRec.mk0 (rtype src : Nat) (la : LAddr) (tenant : Nat) : TRec :=
  { rtype := rtype, src := src, lseq := 0, la := la, agent := 0, rseq := 0, tenant := tenant,
    txn := none, gch := none, data := none }

/-! ## Taps (R383) -/

/-- Add to a tenant's Q1, Q2 and Q3 counts of slice `s` in the present segment. -/
def Fabric.tap (f : Fabric) (s : Nat) (r : Option Region) (q1 q2 q3 : Nat) : Fabric :=
  match r with
  | none => f
  | some r =>
    if ¬ r.meter then f
    else
      let k := s * 256 + r.tenant
      let (a, b, c) := Tab.get f.taps.q (0, 0, 0) k
      { f with taps := { f.taps with q := Tab.put (0, 0, 0) f.taps.q k (a + q1, b + q2, c + q3) } }

/-- Bytes that a memory controller read or wrote (R385): taps 8 to 17. -/
def Mem.countBytes (m : Mem) (ddr : Bool) (word : Nat) (write : Bool) : Mem :=
  let upd := fun (p : Nat × Nat) => if write then (p.1, p.2 + 64) else (p.1 + 64, p.2)
  { m with tapBytes := vmod m.tapBytes (blockOf ddr word) upd }

end Sys2Proof.Machine
end

