-- ==== Sys2Proof/Machine/GranaryOps.lean ====
section
/-! DEFINITION. The Granary's operations (chapter 5): locations, holders, recording and removing
entries in link order, mismatch captures, taint. -/
namespace Sys2Proof.Machine

/-- LOC of a slot's set and way (R134). -/
def locNum (slot cset cway : Nat) : Nat := slot * 2 ^ 18 + cset * 16 + cway
/-- The slot of a location. -/
def locSlot (loc : Nat) : Nat := loc / 2 ^ 18
/-- The agent's set of a location. -/
def locSet (loc : Nat) : Nat := loc / 16 % 2 ^ 14
/-- The agent's way of a location. -/
def locWay (loc : Nat) : Nat := loc % 16
/-- The bank of a location, CSET[2:0] (Table 5.1). -/
def locBank (loc : Nat) : Nat := locSet loc % 8

/-- The caching slot of agent `a`; a slot whose departure walk runs belongs to a tenure that has ended. -/
def Granary.slotOf (g : Granary) (a : Nat) : Option Nat :=
  (List.range 16).find? (fun k => vget g.slots ⟨none, none⟩ k = ⟨some a, none⟩)

/-- The slot of agent `a`, or the one that is still walked after it left. -/
def Granary.slotAny (g : Granary) (a : Nat) : Option Nat :=
  (g.slotOf a).orElse (fun _ => (List.range 16).find? (fun k => (vget g.slots ⟨none, none⟩ k).agent = some a))

/-- Slot `k` is being walked after its agent left (R146). -/
def Granary.walking (g : Granary) (k : Nat) : Bool := (vget g.slots ⟨none, none⟩ k).walk.isSome

/-- The agent that holds caching slot `k`. -/
def Granary.agentOf (g : Granary) (k : Nat) : Option Nat := (vget g.slots ⟨none, none⟩ k).agent

/-- The recorded entries of a line: location and entry. -/
def Granary.lineEntries (g : Granary) (la : LAddr) : List (Nat × GEntry) :=
  g.entries.filter (fun p => p.2.la = la)

/-- The holders of a line: agent, recorded state, location (R107). -/
def Granary.holders (g : Granary) (la : LAddr) : List (Nat × LSt × Nat) :=
  (g.lineEntries la).filterMap (fun p => (g.agentOf (locSlot p.1)).map (fun a => (a, p.2.st, p.1)))

/-- The record of agent `a` for a line: the entry of its slot (R135). -/
def Granary.recordOf (g : Granary) (a : Nat) (la : LAddr) : Option (LSt × Nat) :=
  match g.slotOf a with
  | some k => ((g.lineEntries la).find? (fun p => locSlot p.1 = k)).map (fun p => (p.2.st, p.1))
  | none => none

/-- The record that a held eviction of a departed agent meets: the entry of the slot that is walked. -/
def Granary.lastRecord (g : Granary) (a : Nat) (la : LAddr) : Option (LSt × Nat) :=
  ((g.holders la).find? (fun h => h.1 = a)).map (fun h => (h.2.1, h.2.2))

/-- An entry of the line that a departure walk has still to reach (R129). -/
def Granary.departing (g : Granary) (la : LAddr) : Option (Nat × GEntry) :=
  (g.lineEntries la).find? (fun p => g.walking (locSlot p.1))

/-- Home views of Table 4.2. -/
inductive View where
  | u | sh | ex (h : Nat) | ow (o : Nat)
  deriving DecidableEq, Repr

/-- The view of a line (Table 4.2). -/
def Granary.view (g : Granary) (la : LAddr) : View :=
  let hs := g.holders la
  match hs.find? (fun h => h.2.1 = .e || h.2.1 = .m) with
  | some h => .ex h.1
  | none => match hs.find? (fun h => h.2.1 = .o) with
    | some h => .ow h.1
    | none => if hs = [] then .u else .sh

/-- The link order with a location of line `la` added: after the last entry of the line's run, or
at the head of its chain (R136). -/
def linkIn (es : Tab GEntry) (la : LAddr) (loc : Nat) (order : List Nat) : List Nat :=
  let mine := fun l => match Tab.find es l with | some e => e.la == la | none => false
  let rec go : List Nat → List Nat
    | [] => [loc]
    | l :: ls => if mine l && ¬ ls.any mine then l :: loc :: ls else l :: go ls
  if order.any mine then go order else loc :: order

/-- Record a line at a location, or change the state recorded there (R139). -/
def Granary.write (g : Granary) (loc : Nat) (la : LAddr) (st : LSt) : Granary :=
  match Tab.find g.entries loc with
  | some e => if e.la = la then { g with entries := Tab.set g.entries loc ⟨la, st⟩ } else g
  | none => { g with entries := Tab.set g.entries loc ⟨la, st⟩,
                     order := linkIn g.entries la loc g.order }

/-- Remove the entry at a location and unlink it (R139). -/
def Granary.remove (g : Granary) (loc : Nat) : Granary :=
  { g with entries := Tab.erase g.entries loc, order := g.order.filter (fun l => l ≠ loc) }

/-- Record a line at a location whatever was recorded there: the partner's records of different slices are
applied in no common order (R148). -/
def Granary.place (g : Granary) (loc : Nat) (la : LAddr) (st : LSt) : Granary :=
  match Tab.find g.entries loc with
  | some e => if e.la = la then g.write loc la st else (g.remove loc).write loc la st
  | none => g.write loc la st

/-- Remove agent `a`'s entry for a line. -/
def Granary.removeAgent (g : Granary) (a : Nat) (la : LAddr) : Granary :=
  match g.recordOf a la with
  | some (_, loc) => g.remove loc
  | none => g

/-- Set the recorded state of agent `a` for a line; I removes the entry. -/
def Granary.setAgent (g : Granary) (a : Nat) (la : LAddr) (st : LSt) : Granary :=
  match g.recordOf a la with
  | some (_, loc) => if st = .i then g.remove loc else g.write loc la st
  | none => g

/-- The bucket of a line: its home slice and the keyed hash (R136). -/
def Granary.bucket (g : Granary) (la : LAddr) : Nat × BitVec 18 :=
  (sliceOf la, Config.granaryHash g.key la)

/-- A read of the line meets a tainted bucket with no holder recorded (R151). -/
def Granary.tainted (g : Granary) (la : LAddr) : Bool :=
  g.taint ≠ [] && g.lineEntries la = [] && g.taint.contains (g.bucket la)

/-- Change bank `b`. -/
def Granary.modBank (g : Granary) (b : Nat) (h : GrnBank → GrnBank) : Granary :=
  { g with banks := vmod g.banks b h }

/-- Capture a mismatch unless one is held (R144, Table 5.11). -/
def GrnBank.capture (b : GrnBank) (loc kind : Nat) : GrnBank :=
  if b.capValid then b
  else { b with capLoc := BitVec.ofNat 22 loc, capKind := BitVec.ofNat 2 kind, capValid := true }

/-- A capture-worthy mismatch of Table 5.8 at a location: counted, captured, source 64 + b. -/
def Fabric.mismatch (f : Fabric) (loc kind : Nat) : Fabric :=
  let b := locBank loc
  let cnt := fun (x : GrnBank) =>
    match kind with
    | 0 => { x with locmis := bvSat x.locmis 1 }
    | 1 => { x with locMis := bvSat x.locMis 1 }
    | _ => { x with displaceTo := bvSat x.displaceTo 1 }
  ({ f with gran := f.gran.modBank b (fun x => (cnt x).capture loc kind) } : Fabric).raise (64 + b)

/-- The bank of a line's bucket: its home slice (Table 5.1, R136). -/
def bucketBank (la : LAddr) : Nat := sliceOf la

/-! ## The partner's numbers (R357) -/

/-- The agent of this device that a partner's agent number stands for. -/
def Fabric.mapAgent (f : Fabric) (n : Nat) : Option Nat :=
  match f.twin.agentMap.find? (fun m => m.2.1 = n) with
  | some m => (List.range 32).find? (fun a =>
      match (f.link a).decl with | some d => dclUid d = m.1.toNat | none => false)
  | none => none

/-- The agent of this device that a partner's caching slot stands for. -/
def Fabric.mapSlot (f : Fabric) (k : Nat) : Option Nat :=
  match f.twin.agentMap.find? (fun m => m.2.2.1 = k) with
  | some m => f.mapAgent m.2.1
  | none => none

/-- This device's slot for a partner's slot. -/
def Fabric.slotHere (f : Fabric) (k : Nat) : Option Nat :=
  match f.mapSlot k with | some a => f.gran.slotOf a | none => none

/-- Entries recorded in slot `k` (GRN_OCC_k.COUNT). -/
def Granary.count (g : Granary) (k : Nat) : Nat :=
  (g.entries.filter (fun p => locSlot p.1 = k)).length

/-- The declared geometry of agent `a` admits this set and way (R79). -/
def Fabric.locInRange (f : Fabric) (a cset cway : Nat) : Bool :=
  match (f.link a).decl with
  | some d => decide (cset < 2 ^ dclSets d) && decide (cway < dclWays d)
  | none => false

end Sys2Proof.Machine
end

