-- ==== Sys2Proof/Machine/MemOps.lean ====
section
/-! DEFINITION. The channel queues and the memories (chapters 7, 10, 11): placing accesses,
performing them in the order of R192, partial writes, the zero-map. -/
namespace Sys2Proof.Machine

/-- Byte enables of a whole line. -/
def allEn : BitVec 64 := BitVec.allOnes 64

/-- A read request. -/
def MemReq.read (word cls : Nat) (who : Owner) : MemReq :=
  { word := word, write := false, cls := cls, aged := false, acc := true, again := false,
    data := 0, be := 0, pois := false, who := who }

/-- A write request, not yet accepted. -/
def MemReq.wr (word : Nat) (data : Line) (be : BitVec 64) (pois : Bool) (who : Owner) : MemReq :=
  { word := word, write := true, cls := 1, aged := false, acc := false, again := false,
    data := data, be := be, pois := pois, who := who }

/-- A tag or zero-map update in place (Table 10.3).  The tag store and the zero-map are held as tables, so the
word itself carries nothing. -/
def MemReq.tagWr (word : Nat) : MemReq := { MemReq.wr word 0 (BitVec.allOnes 64) false .none with acc := true }

/-- Place an access in its HBM channel queue. -/
def Fabric.pushH (f : Fabric) (r : MemReq) : Fabric :=
  { f with mem := { f.mem with hq := f.mem.hq ++ [r] } }
/-- Place an access in its DDR5 channel queue. -/
def Fabric.pushD (f : Fabric) (r : MemReq) : Fabric :=
  { f with mem := { f.mem with dq := f.mem.dq ++ [r] } }

/-- The channel of a request. -/
def MemReq.chan (ddr : Bool) (r : MemReq) : Nat := if ddr then ddrChan r.word else hbmChan r.word

/-- The entries a channel queue holds; later ones wait at its input (R26, Table 1.3). -/
def chanEntries (ddr : Bool) (q : List MemReq) (ch : Nat) : List MemReq :=
  (q.filter (fun r => r.chan ddr = ch)).take (if ddr then 256 else 128)

/-- Perform a write of a whole word; a write equal to the word of zeros removes the entry. -/
def putWord (t : Tab CWord) (r : MemReq) : Tab CWord :=
  Tab.put CWord.zero t r.word ⟨r.data, r.pois⟩

/-- Both memories are in their canonical form: addresses rise and no listed word is the good word of zeros that an
unlisted one reads as. -/
def Memory.wf (m : Mem) : Bool := Tab.wf CWord.zero m.hbm && Tab.wf CWord.zero m.ddr

/-- The word as the memory holds it. -/
def getWord (t : Tab CWord) (word : Nat) : CWord := Tab.get t CWord.zero word

/-- Take the first read of a word out of a queue, performing the earlier writes of that word; none
where an earlier write of the word is not accepted or the read is not the one looked for
(R192). -/
def takeRead (word : Nat) (again : Bool) :
    List MemReq → Tab CWord → Option (MemReq × Tab CWord × List MemReq)
  | [], _ => none
  | r :: rs, t =>
    if r.word ≠ word then
      (takeRead word again rs t).map (fun x => (x.1, x.2.1, r :: x.2.2))
    else if r.write then
      if r.acc then takeRead word again rs (putWord t r) else none
    else if r.again = again then some (r, t, rs)
    else none

/-- Take the oldest unaccepted write of a word, with the memory after the earlier writes of that
word; none where an earlier access of the word is still to come. -/
def takeWrite (word : Nat) : List MemReq → Tab CWord → Option (MemReq × Tab CWord)
  | [], _ => none
  | r :: rs, t =>
    if r.word ≠ word then takeWrite word rs t
    else if r.write then
      if r.acc then takeWrite word rs (putWord t r) else some (r, t)
    else takeWrite word rs t

/-- Replace the oldest unaccepted write of a word. -/
def acceptWrite (word : Nat) (g : MemReq → MemReq) (q : List MemReq) : List MemReq :=
  modFirst (fun r => r.word = word && r.write && ¬ r.acc) g q

/-- Whether the oldest unaccepted write of a word is within its channel's queue. -/
def acceptable (ddr : Bool) (q : List MemReq) (word : Nat) : Bool :=
  let ch := if ddr then ddrChan word else hbmChan word
  (chanEntries ddr q ch).any (fun r => r.word = word && r.write && ¬ r.acc)

/-- Writes that a channel queue holds. -/
def chanWrites (ddr : Bool) (q : List MemReq) (ch : Nat) : Nat :=
  ((chanEntries ddr q ch).filter (·.write)).length

/-- The channel queue holds a read of classes 0 to 2 (R277). -/
def chanReads (ddr : Bool) (q : List MemReq) (ch : Nat) : Bool :=
  (chanEntries ddr q ch).any (fun r => ¬ r.write && decide (r.cls ≤ 2))

/-! ## Partial writes (Table 11.4) -/

/-- The word that a partial write leaves, by the word read. -/
def mergeOnto (d : Dec) (new : Line) (be : BitVec 64) (pois : Bool) : CWord :=
  match d.kind with
  | .good | .correctable => ⟨mergeLine d.data new be, pois⟩
  | _ => ⟨mergeLine d.data new be, true⟩

/-- Counts and logs of a partial write by the word read, after the re-read where there was one
(Table 11.4). -/
def Fabric.mergeLog (cfg : Cfg) (f : Fabric) (ddr : Bool) (word tenant : Nat) (d : Dec)
    (retried : Bool) : Fabric :=
  match d.kind with
  | .good => if retried then f.transientFault ddr word else f
  | .correctable =>
    let f := f.correction cfg ddr word d.sym
    if retried then f.transientFault ddr word else f
  | .poisoned | .poisonedCorr => f.countPoisonWr
  | .uncorrectable | .mismatch =>
    ((f.lastingFault ddr word d).elogMem ddr word 3 false false d tenant).countPoisoned

/-! ## The zero-map (R279 to R285) -/

/-- The page is marked. -/
def Mem.marked (m : Mem) (page : Nat) : Bool := (Tab.find m.unmarked page).isNone

/-- The map word of a page is lost (R284). -/
def Mem.mapLost (m : Mem) (page : Nat) : Bool := m.lostWords.contains (mapWord page)

/-- The summary bit of a word in a slice is 0. -/
def Mem.summaryClear (m : Mem) (s w : Nat) : Bool := (Tab.find m.sumClear (s * 2 ^ 22 + w)).isSome

/-- The slice holds the map word in its cache. -/
def Mem.mapCached (m : Mem) (s w : Nat) : Bool := (vget m.mapCache [] s).contains w

/-- The word is used by the slice: it becomes the most recent of its 1,024 (R280). -/
def Mem.mapTouch (m : Mem) (s w : Nat) : Mem :=
  let l := (vget m.mapCache [] s).filter (fun x => x ≠ w) ++ [w]
  { m with mapCache := vset m.mapCache s (l.drop (l.length - 1024)) }

/-- Every page of a map word is unmarked. -/
def Mem.wordClear (m : Mem) (w : Nat) : Bool :=
  (m.unmarked.filter (fun p => mapWord p.1 = w)).length = 512

/-- Clear the mark of a page (R282). -/
def Mem.unmark (m : Mem) (page : Nat) : Mem := { m with unmarked := Tab.set m.unmarked page () }

/-- Mark a page: both copies, the slice's cached word and the summary bit (R283). -/
def Mem.mark (m : Mem) (s page : Nat) : Mem :=
  { m with unmarked := Tab.erase m.unmarked page,
           sumClear := Tab.erase m.sumClear (s * 2 ^ 22 + mapWord page) }

/-- A mark that is made or cleared is written to both copies of its map word (R282, R283). -/
def Fabric.mapWrites (f : Fabric) (page : Nat) : Fabric :=
  (f.pushH (MemReq.tagWr (mapPrimary (mapWord page)))).pushH (MemReq.tagWr (mapMirror (mapWord page)))

/-- A resync map bit is set by every backing write from step 3 of a failover on (R371). -/
def Fabric.trackPage (f : Fabric) (page : Nat) : Fabric :=
  if f.twin.tracking then
    { f with twin := { f.twin with resyncMap := addOnce page f.twin.resyncMap } }
  else f

/-! ## Rows and the order of issue (R276, R277) -/

/-- The rows that stay open after an access: a DDR5 access opens its row and closes the one open in its bank; an
HBM row closes unless another queued access hits it. -/
def Mem.touchRow (m : Mem) (ddr : Bool) (word : Nat) : Mem :=
  if ddr then
    let k := ddrRow m.rbits word
    { m with openRows := m.openRows.filter (fun x => x % 2 ^ 14 ≠ k % 2 ^ 14) ++ [k] }
  else
    let k := hbmRow word
    let others := m.hbmRows.filter (fun x => x % 2 ^ 13 ≠ k % 2 ^ 13)
    { m with hbmRows := if m.hq.any (fun r => hbmRow r.word = k) then others ++ [k] else others }

/-- An access hits an open row. -/
def Mem.rowHit (m : Mem) (ddr : Bool) (word : Nat) : Bool :=
  if ddr then m.openRows.contains (ddrRow m.rbits word) else m.hbmRows.contains (hbmRow word)

/-- What ranks an entry of a channel queue before its age: its class, then a row hit (R276). -/
def Mem.rank (m : Mem) (ddr : Bool) (r : MemReq) : Nat := 2 * r.cls + b2n (! m.rowHit ddr r.word)

/-- The write that a channel issues next: the best rank, the oldest of equals; a write behind an earlier access
of its word waits for that (R192, R276). -/
def Mem.nextWrite (m : Mem) (ddr : Bool) (ch : Nat) : List MemReq → List Nat → Option MemReq
  | [], _ => none
  | r :: rs, seen =>
    if r.chan ddr ≠ ch then m.nextWrite ddr ch rs seen
    else
      let later := m.nextWrite ddr ch rs (r.word :: seen)
      if r.write && r.acc && ¬ seen.contains r.word then
        match later with
        | some x => if m.rank ddr x < m.rank ddr r then some x else some r
        | none => some r
      else later

/-- Issue a queued write: the first access of its word leaves the queue and is performed. -/
def Mem.issueWrite (m : Mem) (ddr : Bool) (r : MemReq) : Mem :=
  let leave := dropFirst (fun (x : MemReq) => x.word = r.word)
  let m := if ddr then { m with dq := leave m.dq, ddr := putWord m.ddr r }
    else { m with hq := leave m.hq, hbm := putWord m.hbm r }
  m.touchRow ddr r.word

/-- Issue up to `n` writes of a channel. -/
def Mem.issueWrites (ddr : Bool) (ch : Nat) : Nat → Mem → Mem
  | 0, m => m
  | n + 1, m =>
    match m.nextWrite ddr ch (if ddr then m.dq else m.hq) [] with
    | some r => Mem.issueWrites ddr ch n (m.issueWrite ddr r)
    | none => m

/-- An idle DDR5 channel makes up its postponed refreshes (R272). -/
def Mem.makeUp (m : Mem) (ddr : Bool) (word : Nat) : Mem :=
  let ch := ddrChan word
  if ddr && m.dq.all (fun r => ddrChan r.word ≠ ch) then
    { m with refresh := m.refresh.filter (fun p => ¬ (2 ^ 20 ≤ p.1 && (p.1 - 2 ^ 20) % 16 = ch)) }
  else m

/-- A word as the accesses queued for its memory will leave it. -/
def wordNow (q : List MemReq) (t : Tab CWord) (word : Nat) : CWord :=
  match (q.filter (fun r => r.word = word && r.write && r.be = allEn)).getLast? with
  | some r => ⟨r.data, r.pois⟩
  | none => getWord t word

end Sys2Proof.Machine
end

