-- ==== Sys2Proof/Machine/CacheOps.lean ====
section
/-! DEFINITION. The sectored store, the tag cache and Cober line mode (chapter 6): lookup,
replacement, state bits of one line, locks. -/
namespace Sys2Proof.Machine

/-! ## Sectors -/

/-- A sector without any valid sub-block. -/
def Sector.new (tag rrpv tenant : Nat) : Sector :=
  { valid := 0, dirty := 0, poison := 0, tag := BitVec.ofNat 22 tag, rrpv := BitVec.ofNat 2 rrpv,
    lock := false, stby := false, tenant := BitVec.ofNat 8 tenant }

/-- Set bit `k` of a 64-bit mask to `b`. -/
def maskPut (m : BitVec 64) (k : Nat) (b : Bool) : BitVec 64 :=
  if b then m ||| (1#64 <<< k) else m &&& ~~~(1#64 <<< k)

/-- The key 10 S + W of the way of set `s` that holds TAG `tag`. -/
def Cache.findSector (c : Cache) (s tag : Nat) : Option Nat :=
  ((List.range 10).find? (fun w =>
    match Tab.find c.sectors (10 * s + w) with
    | some x => x.tag.toNat = tag
    | none => false)).map (fun w => 10 * s + w)

/-- The sector at a key. -/
def Cache.sector (c : Cache) (key : Nat) : Option Sector := Tab.find c.sectors key

/-- The page of the sector at a key. -/
def Cache.keyPage (c : Cache) (key : Nat) : Nat :=
  match c.sector key with
  | some x => pageOfTag (key / 10) x.tag.toNat
  | none => 0

/-- The tag-cache key of a sector way, where it is held: slice × 131,072 + set[12:0] × 16 + way. -/
def Cache.tcKey (c : Cache) (set way : Nat) : Option Nat :=
  let base := (set / 2 ^ 18) * 131072 + (set % 8192) * 16
  ((List.range 16).find? (fun i =>
    match Tab.find c.tc (base + i) with
    | some e => e.set = set && e.way = way
    | none => false)).map (fun i => base + i)

/-- The tag-cache copy of a way's entry, where it is held, differs from the tag store: TCD (Table 6.2). -/
def Cache.tcNewer (c : Cache) (key : Nat) : Cache :=
  match c.tcKey (key / 10) (key % 10) with
  | some k => match Tab.find c.tc k with
    | some e => { c with tc := Tab.set c.tc k { e with tcd := true } }
    | none => c
  | none => c

/-- Write the entry of a sector way; it may have no valid sub-block, as one just allocated has none (R168). -/
def Cache.newSector (c : Cache) (key : Nat) (x : Sector) : Cache :=
  if c.sector key = some x then c else { c with sectors := Tab.set c.sectors key x }.tcNewer key

/-- Write a sector; an unlocked one whose last valid sub-block goes loses SV (R161).  Its tag-cache entry stays,
with SV 0: a pinned entry is never removed (R165). -/
def Cache.putSector (c : Cache) (key : Nat) (x : Sector) : Cache :=
  let had := match c.sector key with | some y => y.valid ≠ 0 | none => false
  if had && x.valid = 0 && ¬ x.lock then { c with sectors := Tab.erase c.sectors key }.tcNewer key
  else c.newSector key x

/-- Change a sector. -/
def Cache.modSector (c : Cache) (key : Nat) (g : Sector → Sector) : Cache :=
  match c.sector key with
  | some x => c.putSector key (g x)
  | none => c

/-! ## Cober lines -/

/-- The key CSETX × 16 + w of the way that holds a line with V = 1 or LOCK = 1. -/
def Cache.findCober (c : Cache) (x ctag w : Nat) : Option Nat :=
  ((List.range w).find? (fun i =>
    match Tab.find c.cober (16 * x + i) with
    | some l => l.ctag.toNat = ctag
    | none => false)).map (fun i => 16 * x + i)

/-- The Cober line at a key. -/
def Cache.cline (c : Cache) (key : Nat) : Option CLine := Tab.find c.cober key

/-- Write a Cober line; one neither valid nor locked leaves the table. -/
def Cache.putCober (c : Cache) (key : Nat) (l : CLine) : Cache :=
  { c with cober := if l.v || l.lock then Tab.set c.cober key l else Tab.erase c.cober key }

/-- Change a Cober line. -/
def Cache.modCober (c : Cache) (key : Nat) (g : CLine → CLine) : Cache :=
  match c.cline key with
  | some l => c.putCober key (g l)
  | none => c

/-- The PLRU way of a set with `w` ways: descend from node 1 (R186). -/
def plruWay (bits : BitVec 16) : Nat → Nat → Nat → Nat
  | 0, node, w => node - w
  | n + 1, node, w =>
    if w ≤ node then node - w
    else plruWay bits n (2 * node + b2n (bits.toNat.testBit node)) w

/-- The PLRU bits after a demand access to way `i` of `w`: every bit on the path points away. -/
def plruTouch (bits : BitVec 16) (i w : Nat) : Nat → Nat → BitVec 16
  | 0, _ => bits
  | n + 1, node =>
    if node ≤ 1 then bits
    else
      let up := node / 2
      let b := putBit bits.toNat up (decide (node % 2 = 0))
      plruTouch (BitVec.ofNat 16 b) i w n up

/-- A demand access to a Cober way. -/
def Cache.touchCober (c : Cache) (key w : Nat) : Cache :=
  let x := key / 16
  let bits := Tab.get c.plru 0 x
  { c with plru := Tab.put 0 c.plru x (plruTouch bits (key % 16) w 5 (w + key % 16)) }

/-! ## State of one line, whichever way holds it -/

/-- The way that a tracker's lookup found, while it still holds the line: a sector may have lost SV since, by
the invalidation of another of its lines (R161).
DESIGN CHOICE (log entry 98): the tracker then goes on as at an absent sector. -/
def Cache.wayOf (c : Cache) (t : Txn) : TagRes :=
  match t.tagr with
  | .sector k =>
    match c.sector k with
    | some x => if k / 10 = setOf t.la && x.tag.toNat = tagOf t.la then t.tagr else .absent
    | none => .absent
  | .cober k => if (c.cline k).isSome then t.tagr else .absent
  | r => r

/-- The way that holds a line now, by its region's organisation. -/
def Cache.find (c : Cache) (cfg : Cfg) (line : Bool) (la : LAddr) : TagRes :=
  if line then
    match c.findCober (cfg.csetx la) (cfg.ctag la) cfg.coberWays with
    | some k => .cober k
    | none => .absent
  else
    match c.findSector (setOf la) (tagOf la) with
    | some k => .sector k
    | none => .absent

/-- A way was found. -/
def TagRes.isWay : TagRes → Bool
  | .sector _ | .cober _ => true
  | _ => false

/-- VALID, DIRTY and POISON of a line in the way that the lookup found. -/
def Cache.bits (c : Cache) (r : TagRes) (sub : Nat) : Bool × Bool × Bool :=
  match r with
  | .sector k => match c.sector k with
    | some x => (x.valid.toNat.testBit sub, x.dirty.toNat.testBit sub, x.poison.toNat.testBit sub)
    | none => (false, false, false)
  | .cober k => match c.cline k with
    | some l => (l.v, l.d, l.p)
    | none => (false, false, false)
  | _ => (false, false, false)

/-- Set VALID, DIRTY and POISON of a line in its way. -/
def Cache.setBitsOf (c : Cache) (r : TagRes) (sub : Nat) (v d p : Bool) : Cache :=
  match r with
  | .sector k => c.modSector k (fun x =>
      { x with valid := maskPut x.valid sub v, dirty := maskPut x.dirty sub (v && d),
               poison := maskPut x.poison sub (v && p) })
  | .cober k => c.modCober k (fun l => { l with v := v, d := v && d, p := v && p })
  | _ => c

/-- The device's copies of a page's lines go, without writeback; a locked way stays (R177, R252). -/
def Cache.dropPage (c : Cache) (cfg : Cfg) (page : Nat) : Cache :=
  match cfg.regionOf (lineOfPage page 0) with
  | none => c
  | some r => (List.range 64).foldl (fun c k =>
      let la := lineOfPage page k
      c.setBitsOf (c.find cfg r.line la) k false false false) c

/-- The HBM code word of a line in its way. -/
def lineWord (cfg : Cfg) (r : TagRes) (sub : Nat) : Nat :=
  match r with
  | .sector k => k * 64 + sub
  | .cober k => cfg.coberWord (k / 16) (k % 16)
  | _ => 0

/-- The way is locked. -/
def Cache.lockedWay (c : Cache) (r : TagRes) : Bool :=
  match r with
  | .sector k => match c.sector k with | some x => x.lock | none => false
  | .cober k => match c.cline k with | some l => l.lock | none => false
  | _ => false

/-- A set's tag-lost mark: sector sets by number, Cober sets from 2²¹ on (R316). -/
def Cache.setLost (c : Cache) (s : Nat) : Bool := c.lostList.any (fun p => p.1 = s)

/-! ## Pins (R165, R202) -/

/-- A page has an open transaction other than tracker `me`, or an issued prefetch. -/
def Fabric.pagePinned (f : Fabric) (page : Nat) (me : Option (Nat × Nat)) : Bool :=
  f.txns.any (fun t => t.la.toNat / 64 = page && me ≠ some (t.slice, t.idx))
    || f.pfu.queue.any (fun p => p.issued && p.la.toNat / 64 = page)

/-- A line has an open transaction other than tracker `me`, or an issued prefetch. -/
def Fabric.linePinned (f : Fabric) (la : LAddr) (me : Option (Nat × Nat)) : Bool :=
  f.txns.any (fun t => t.la = la && me ≠ some (t.slice, t.idx))
    || f.pfu.queue.any (fun p => p.issued && p.la = la)

/-! ## Victim choice (R168, R186) -/

/-- The ways of a set that the mask, locks, pins and tag losses leave eligible. -/
def Fabric.eligible (f : Fabric) (s mask : Nat) : List Nat :=
  (List.range 10).filter (fun w =>
    mask.testBit w && ¬ f.cache.lostList.contains (s, w) &&
    (match f.cache.sector (10 * s + w) with
      | none => true
      | some x => ¬ x.lock && ¬ f.pagePinned (f.cache.keyPage (10 * s + w)) none))

/-- Age the unlocked ways of the mask so that the oldest eligible way reaches 3 (R168). -/
def Cache.age (c : Cache) (s mask by_ : Nat) : Cache :=
  (List.range 10).foldl (fun c w =>
    if mask.testBit w then
      match c.sector (10 * s + w) with
      | some x =>
        if x.lock then c
        else
          c.newSector (10 * s + w) { x with rrpv := BitVec.ofNat 2 (min 3 (x.rrpv.toNat + by_)) }
      | none => c
    else c) c

/-- The RRPVs of a set. -/
def Cache.ages (c : Cache) (s : Nat) : List Nat :=
  (List.range 10).map (fun w => match c.sector (10 * s + w) with | some x => x.rrpv.toNat | none => 0)

/-- RRPV of a way. -/
def Cache.rrpvOf (c : Cache) (key : Nat) : Nat :=
  match c.sector key with | some x => x.rrpv.toNat | none => 0

/-- The victim of a set under a way mask, with the ageing done; none where no way is eligible. -/
def Fabric.victim (f : Fabric) (s mask : Nat) : Option Nat × Cache :=
  let e := f.eligible s mask
  match e.find? (fun w => (f.cache.sector (10 * s + w)).isNone) with
  | some w => (some w, f.cache)
  | none =>
    if e = [] then (none, f.cache)
    else
      let m := e.foldl (fun m w => max m (f.cache.rrpvOf (10 * s + w))) 0
      let c := f.cache.age s mask (3 - m)
      (e.find? (fun w => c.rrpvOf (10 * s + w) = 3), c)

/-- A Cober way allocated for a line that was never filled is invalid again once nothing works on the line
(R186, R195). -/
def Fabric.tidyWay (f : Fabric) (r : TagRes) (la : LAddr) : Fabric :=
  match r with
  | .cober k =>
    match f.cache.cline k with
    | some l => if l.v || l.lock || f.linePinned la none then f else { f with cache := f.cache.putCober k l }
    | none => f
  | _ => f

/-- The line address of the Cober line at a key. -/
def Cache.coberLine (cfg : Cfg) (c : Cache) (key : Nat) : LAddr :=
  match c.cline key with
  | some l => BitVec.ofNat 46 (l.ctag.toNat * 2 ^ cfg.coberM + key / 16 % 2 ^ cfg.coberM)
  | none => 0

/-- The Cober victim of a set (R186); none where no way is eligible. -/
def Fabric.coberVictim (cfg : Cfg) (f : Fabric) (x : Nat) : Option Nat :=
  let w := cfg.coberWays
  let ok := fun i => ¬ f.cache.lostList.contains (2 ^ 21 + x, i) &&
    (match f.cache.cline (16 * x + i) with
      | none => true
      | some l => ¬ l.lock && ¬ f.linePinned (f.cache.coberLine cfg (16 * x + i)) none)
  match (List.range w).find? (fun i => ok i && (f.cache.cline (16 * x + i)).isNone) with
  | some i => some i
  | none =>
    let p := plruWay (Tab.get f.cache.plru 0 x) 5 1 w
    if ok p then some p else (List.range w).find? (fun i => ok i)

/-! ## Tag cache (R163, R166) -/

/-- The tag-cache way to load for a set, with TCR cleared where the rule says; none where every
way is pinned. -/
def Fabric.tcVictim (f : Fabric) (set : Nat) (me : Option (Nat × Nat)) : Option (Nat × Cache) :=
  let base := (set / 2 ^ 18) * 131072 + (set % 8192) * 16
  let c := f.cache
  let free := fun i => match Tab.find c.tc (base + i) with
    | none => true
    | some e => ¬ f.pagePinned (pageOfTag e.set e.tag) me
  let ways := (List.range 16).filter (fun i => free i)
  match ways.find? (fun i => match Tab.find c.tc (base + i) with
      | some e => (c.sector (10 * e.set + e.way)).isNone
      | none => true) with
  | some i => some (base + i, c)
  | none => match ways.find? (fun i => match Tab.find c.tc (base + i) with
      | some e => ¬ e.tcr
      | none => true) with
    | some i => some (base + i, c)
    | none => match ways with
      | [] => none
      | i :: _ =>
        let tc := ways.foldl (fun t j => match Tab.find t (base + j) with
          | some e => Tab.set t (base + j) { e with tcr := false }
          | none => t) c.tc
        some (base + i, { c with tc := tc })

/-- Load the entry of a sector way with this TAG into the tag cache; none where every way is pinned.  An entry
replaced with TCD 1 is written back to the tag store (R166). -/
def Fabric.tcLoad (f : Fabric) (set way tag : Nat) (dirty : Bool) (me : Option (Nat × Nat)) :
    Option Fabric :=
  match f.cache.tcKey set way with
  | some k =>
    match Tab.find f.cache.tc k with
    | some e =>
      let e := { e with tag := tag, tcr := true, tcd := e.tcd || dirty }
      some { f with cache := { f.cache with tc := Tab.set f.cache.tc k e } }
    | none => some f
  | none =>
    (f.tcVictim set me).map (fun p =>
      let f := match Tab.find p.2.tc p.1 with
        | some old => if old.tcd then f.pushH (MemReq.tagWr (tagWord old.set old.way)) else f
        | none => f
      let e : TcEntry := { set := set, way := way, tag := tag, tcd := dirty, tcr := true }
      { f with cache := { p.2 with tc := Tab.set p.2.tc p.1 e } })

/-! ## Counts read through registers -/

/-- Sectors with SV = 1 in slice `s` (TAG_s_OCC). -/
def Cache.sectorCount (c : Cache) (s : Nat) : Nat :=
  (c.sectors.filter (fun p => p.1 / 10 / 2 ^ 18 = s)).length

/-- Dirty sub-blocks and dirty Cober lines homed in slice `s` (TAG_s_DIRTY). -/
def Cache.dirtyCount (cfg : Cfg) (c : Cache) (s : Nat) : Nat :=
  ((c.sectors.filter (fun p => p.1 / 10 / 2 ^ 18 = s)).foldl
    (fun n p => n + popCount p.2.dirty.toNat 64) 0) +
  (c.cober.filter (fun p => p.2.d && p.1 / 16 / 2 ^ cfg.coberM = s)).length

/-- Locked sectors of slice `s` (TAG_s_LOCK). -/
def Cache.lockCount (c : Cache) (s : Nat) : Nat :=
  (c.sectors.filter (fun p => p.1 / 10 / 2 ^ 18 = s && p.2.lock)).length

/-- Locked ways of a sector set. -/
def Cache.setLocks (c : Cache) (s : Nat) : Nat :=
  ((List.range 10).filter (fun w =>
    match c.sector (10 * s + w) with | some x => x.lock | none => false)).length

/-- Locked ways of a Cober set. -/
def Cache.coberLocks (c : Cache) (x : Nat) : Nat :=
  ((List.range 16).filter (fun i =>
    match c.cline (16 * x + i) with | some l => l.lock | none => false)).length

/-- Occupancy in bytes of a tenant in slice `s` (R384). -/
def Cache.occupancy (cfg : Cfg) (c : Cache) (s tenant : Nat) : Nat :=
  4096 * (c.sectors.filter (fun p =>
    p.1 / 10 / 2 ^ 18 = s && ¬ p.2.stby && p.2.tenant.toNat = tenant)).length +
  64 * (c.cober.filter (fun p =>
    p.2.v && p.1 / 16 / 2 ^ cfg.coberM = s && p.2.tenant.toNat = tenant)).length

end Sys2Proof.Machine
end

