-- ==== Sys2Proof/Machine/HomeOps.lean ====
section
/-! DEFINITION. Home trackers: allocation, replies, log records, the plans of Tables 4.3, 4.4 and
9.4 as programs of micro-steps. -/
namespace Sys2Proof.Machine

/-! ## Trackers -/

/-- The tracker `i` of slice `s`. -/
def Fabric.txnAt (f : Fabric) (s i : Nat) : Option Txn :=
  f.txns.find? (fun t => t.slice = s && t.idx = i)

/-- Replace a tracker. -/
def Fabric.put (f : Fabric) (t : Txn) : Fabric :=
  { f with txns := modFirst (fun x => x.slice = t.slice && x.idx = t.idx) (fun _ => t) f.txns }

/-- The queued accesses of tracker `i` of slice `s` are nobody's: the number 4,096 names no tracker. -/
def disown (s i : Nat) (q : List MemReq) : List MemReq :=
  q.map (fun r =>
    if r.who = .txn s i then { r with who := .txn s 4096 }
    else if r.who = .spec s i then { r with who := .spec s 4096 }
    else if r.who = .tags s i then { r with who := .tags s 4096 }
    else if r.who = .map s i then { r with who := .map s 4096 } else r)

/-- Free a tracker. -/
def Fabric.drop (f : Fabric) (t : Txn) : Fabric :=
  { f with
    mem := { f.mem with hq := disown t.slice t.idx f.mem.hq, dq := disown t.slice t.idx f.mem.dq },
    txns := dropFirst (fun x => x.slice = t.slice && x.idx = t.idx) f.txns }

/-- The HTAG of a tracker (R75). -/
def Txn.htag (t : Txn) : Nat := t.slice * 4096 + t.idx

/-- The agent a tracker serves. -/
def Txn.agent (t : Txn) : Option Nat := match t.who with | .agent a _ => some a | _ => none

/-- The agent's message kind. -/
def Txn.reqOp (t : Txn) : Option Op := match t.op with | .req o => some o | _ => none

/-- The first number from `i` on that is not used. -/
def freeIdx (used : List Nat) : Nat → Nat → Nat
  | 0, i => i
  | n + 1, i => if used.contains i then freeIdx used n (i + 1) else i

/-- Tracker numbers used in a slice. -/
def Fabric.usedIdx (f : Fabric) (s : Nat) : List Nat :=
  (f.txns.filter (fun t => t.slice = s)).map (·.idx)

/-- A free tracker of a slice (Table 1.3: 4,096). -/
def Fabric.freeTracker (f : Fabric) (s : Nat) : Option Nat :=
  let u := f.usedIdx s
  let i := freeIdx u u.length 0
  if i < 4096 then some i else none

/-- Free trackers of a slice. -/
def Fabric.freeCount (f : Fabric) (s : Nat) : Nat := 4096 - (f.usedIdx s).length

/-- A tracker for a message that the arbiter accepted. -/
def Arr.toTxn (a : Arr) (cfg : Cfg) (s i n : Nat) : Txn :=
  { slice := s, idx := i, seq := n, who := a.who, op := a.op, hdr := a.hdr, la := a.la,
    rgn := cfg.regionOf a.la, data := a.data, be := a.be, pois := a.pois, opnd := a.opnd,
    blk := false, todo := [.line, .look], side := [], snoops := [], got := none, asked := false,
    tagr := .unknown, tagStage := 0, noalloc := false, allocating := false, spec := none,
    mapAsked := false, wd := 0, wbe := 0, wpo := false, wend := false,
    txids := a.txids, errSeen := false, pfHit := false, dead := false, result := .ok, value := 0,
    grant := .i, servePois := false, ackIn := false, ackDue := false, gate := none, fwd := false,
    dup := false, retried := false, bankAt := 0 }

/-- An eviction tracker: WbDirty, WbOwned or EvictClean. -/
def Txn.isEvict (t : Txn) : Bool :=
  t.op = .req .wbDirty || t.op = .req .wbOwned || t.op = .req .evictClean

/-- The region's type; no region acts as UCN here, because such requests never reach a tracker. -/
def Txn.rtype (t : Txn) : RType := match t.rgn with | some r => r.typ | none => .ucn
/-- The region's tenant. -/
def Txn.tenant (t : Txn) : Nat := match t.rgn with | some r => r.tenant | none => 0
/-- The backing line of the request. -/
def Txn.back (t : Txn) : Nat := match t.rgn with | some r => r.backLine t.la | none => 0
/-- The region keeps its lines in the Cober partition. -/
def Txn.lineMode (t : Txn) : Bool := match t.rgn with | some r => r.line | none => false

/-- A demand read: the requests of R193 and R199. -/
def Txn.demandRead (t : Txn) : Bool :=
  match t.op with
  | .req .rdShared | .req .rdOwn | .req .rdOnce | .req .rdUncached | .req .ldResv => true
  | _ => false

/-- A snoop to agent `a` for a line is outstanding (R112). -/
def Fabric.snoopOut (f : Fabric) (a : Nat) (la : LAddr) : Bool :=
  f.txns.any (fun t => t.la = la && t.snoops.any (fun s => s.agent = a && ¬ s.done))

/-- An applied eviction of the line has still to place its write. -/
def Fabric.evictPending (f : Fabric) (la : LAddr) (me : Txn) : Bool :=
  f.txns.any (fun t => t.la = la && t.isEvict && ¬ (t.slice = me.slice && t.idx = me.idx) &&
    t.todo.any (fun m => match m with
      | .store _ | .evict | .mapq | .bwrite _ | .fillWait _ => true
      | _ => false))

/-- Speculative data of trackers is older than a write to backing memory, and is discarded (R193). -/
def Fabric.staleSpec (f : Fabric) (hit : Txn → Bool) : Fabric :=
  let old := f.txns.filter (fun t => hit t && (match t.spec with | some (some _) => true | _ => false))
  let f := old.foldl (fun f t => f.modStat t.slice (fun x => { x with specDiscard := bvSat x.specDiscard 1 })) f
  { f with txns := modAll hit (fun (t : Txn) => { t with spec := none }) f.txns }

/-- Another tracker. -/
def Txn.other (t u : Txn) : Bool := ¬ (u.slice = t.slice && u.idx = t.idx)

/-- A hold protects agent `a`'s copy of the line (R113). -/
def Fabric.held (f : Fabric) (la : LAddr) (a : Nat) : Bool :=
  f.holds.any (fun h => h.la = la && h.agent = a)

/-- End the holds of agent `a` on a line. -/
def Fabric.endHold (f : Fabric) (la : LAddr) (a : Nat) : Fabric :=
  { f with holds := f.holds.filter (fun h => ¬ (h.la = la && h.agent = a)) }

/-- Start a hold; a full list of 1,024 ends the entry nearest its expiry (R113, R114). -/
def Fabric.startHold (cfg : Cfg) (f : Fabric) (s : Nat) (la : LAddr) (a : Nat) : Fabric :=
  if cfg.holdTime s = 0 then f
  else
    let f := f.endHold la a
    let mine := f.holds.filter (fun h => h.slice = s)
    let new : Hold := { slice := s, la := la, agent := a }
    if mine.length < 1024 then { f with holds := f.holds ++ [new] }
    else
      let old := (vget f.homStat HomStat.zero s).holdEvict
      let cnt := bvSat old 1
      let n := (vget f.homStat HomStat.zero s).overflows + 1
      let hs := vmod f.homStat s (fun h => { h with holdEvict := cnt, overflows := n })
      let f := { f with holds := dropFirst (fun (h : Hold) => h.slice = s) f.holds ++ [new], homStat := hs }
      if n = 0 then f.raise (42 + 3 * s) else f

/-! ## Reservations (R232 to R235) -/

/-- The place of agent `a`'s reservation entry in a line's home slice (R232). -/
def resvPlace (a : Nat) (la : LAddr) : Nat := sliceOf la * 32 + a

/-- Agent `a`'s reservation in a line's home slice. -/
def Fabric.resvOf (f : Fabric) (a : Nat) (la : LAddr) : Option (LAddr × Nat) := vget f.resv none (resvPlace a la)

/-- Set or clear agent `a`'s reservation in a line's home slice. -/
def Fabric.setResv (f : Fabric) (a : Nat) (la : LAddr) (v : Option (LAddr × Nat)) : Fabric :=
  { f with resv := vset f.resv (resvPlace a la) v }

/-- Agent `a` holds no reservation in any slice. -/
def Fabric.dropResv (f : Fabric) (a : Nat) : Fabric :=
  { f with resv := (List.range 8).foldl (fun v s => vset v (s * 32 + a) none) f.resv }

/-- A write or grant accepted with number `n` ends other agents' earlier reservations of the line,
and fails the StConds that were accepted after it on such a reservation. -/
def Fabric.loseResv (f : Fabric) (la : LAddr) (except_ : Option Nat) (n : Nat) : Fabric :=
  let f := (List.range 32).foldl (fun (f : Fabric) a =>
    match f.resvOf a la with
    | some (l, k) => if l = la && decide (k < n) && except_ ≠ some a then f.setResv a la none else f
    | none => f) f
  let tx := f.txns.map (fun t =>
    if t.op = .req .stCond && t.la = la && t.agent ≠ except_ && n < t.seq && 0 < t.value
        && t.value ≤ n then { t with value := 0 } else t)
  { f with txns := tx }

/-! ## Replies -/

/-- TXID `x` ceases to be live and its port request tracker is free again; a REQ credit return that full
trackers withheld may leave (R48, R74). -/
def Link.endTxid (l : Link) (x : Nat) : Link :=
  let m := { l with live := l.live.erase x, trk := l.trk.erase x }
  if l.full then Link.pump portKind m else m

/-- TXID `x` of agent `a` ceases to be live (R74). -/
def Fabric.endLive (f : Fabric) (a x : Nat) : Fabric := f.modLink a (fun l => l.endTxid x)

/-- The ordering unit of agent `a` changes. -/
def Fabric.modOrd (f : Fabric) (a : Nat) (g : Ord → Ord) : Fabric :=
  { f with ord := vmod f.ord a g }

/-- Agent `a`'s ordering unit. -/
def Fabric.ordOf (f : Fabric) (a : Nat) : Ord := vget f.ord Ord.init a

/-- The Comp of a tracker leaves: one for each TXID it answers.  An entry's end point is notified
to its ordering unit (R226); after a departure no Comp leaves and a completed write is an orphan
(R238), one for each write merged into its entry; a failed StCond is counted (R240). -/
def Fabric.sendComp (f : Fabric) (t : Txn) (st : LSt) (r : Res) : Fabric :=
  match t.who with
  | .agent a ord =>
    let o := f.ordOf a
    let orphan := o.orphaning && ord.isSome
    let f := match ord with
      | some id => f.modOrd a (fun o => { o with notices := o.notices ++ [id] })
      | none => f
    let f := if r = .fail && t.op = .req .stCond then
        let old := (f.ordOf a).stcFail
        let new := bvSat old 1
        (f.modOrd a (fun o => { o with stcFail := new })).raiseEvery 64 old.toNat new.toNat
          (128 + a / 2)
      else f
    if t.dead || orphan then
      if orphan && r = .ok then
        f.modOrd a (fun o => { o with orphan := bvSat o.orphan t.txids.length, orphaned := true })
      else f
    else
      t.txids.foldl (fun f x =>
        let po := t.servePois && (st ≠ .i || t.op = .req .ldResv || t.op = .req .atomic
          || t.op = .req .stCond)
        let f := f.send a (mkComp x t.htag st po r
          (if t.op = .req .atomic || t.op = .req .ldResv then t.value else 0))
        if st = .i then f.endLive a x else f) f
  | _ => f

/-- Bytes of an uncached read kept, every other byte zero (R85). -/
def keepBytes (d : Line) (be : BitVec 64) : Line := mergeLine 0 d be

/-- A data message to the requester: CompData or DataHome, counted by the tap (Table 14.4). -/
def Fabric.sendData (f : Fabric) (t : Txn) (op : Op) (st : LSt) : Fabric :=
  match t.who, t.got with
  | .agent a _, some (d, p, back) =>
    let d := if t.op = .req .rdUncached then keepBytes d t.be else d
    let n := match t.op with | .req .rdUncached => unLen t.hdr | _ => 64
    let f := f.tap t.slice t.rgn (if back then 0 else n) (if back then n else 0) 0
    if t.dead then f
    else
      let x := t.txids.headD 0
      let crit := match t.op with | .req o => reqCrit o t.hdr | _ => 0
      let f := f.send a (mkData op x t.htag st (p || t.servePois) false crit t.tenant t.la 32 d)
      if st = .i && op = .compData then f.endLive a x else f
  | _, _ => f

/-! ## Descriptor fields (Table 9.2) -/

/-- A little-endian field of a descriptor: first byte and number of bytes. -/
def dscField (d : Line) (byte n : Nat) : Nat := bitsOf d.toNat (8 * byte) (8 * n)
/-- OP. -/
def dscOp (d : Line) : Nat := dscField d 0 1
/-- An internal queue (Table 9.1). -/
def Desc.internal (d : Desc) : Bool := 49 ≤ d.queue
/-- The descriptor's OP. -/
def Desc.op (d : Desc) : Nat := dscOp d.raw

/-! ## Log records of a transaction -/

/-- The mask bit of a slot. -/
def slotBit (s : Option Nat) : Nat := match s with | some k => 2 ^ k | none => 0

/-- The snoops that the program is about to send. -/
def nextSnoops (l : List Micro) : List Nat :=
  match l.find? (fun m => match m with | .snoop _ => true | _ => false) with
  | some (.snoop s) => s.map (·.1)
  | _ => []

/-- The log record of a transaction's commit (Tables 13.5, 13.7). -/
def Fabric.commitRec (f : Fabric) (t : Txn) : TRec :=
  let a := (t.agent.getD 0)
  let slot := f.gran.slotAny a
  let rseq := match t.op with | .req o => reqRseq o t.hdr | _ => 0
  let opc := match t.op with | .req o => o.code | _ => 0
  let grants := t.grant ≠ .i
  let writes := t.wbe ≠ 0
  let pend := (nextSnoops t.todo ++ (t.snoops.filter (fun s => ¬ s.done)).map (·.agent)).foldl
    (fun m x => m ||| slotBit (f.gran.slotOf x)) 0
  { rtype := if t.isEvict then 2 else match t.op with | .req _ => 1 | _ => 6,
    src := match t.op with | .harrow _ => 8 | _ => t.slice, lseq := 0, la := t.la, agent := a,
    rseq := rseq, tenant := t.tenant,
    txn := match t.op with
      | .req _ => some ⟨t.htag, opc, t.grant, t.result, t.fwd, t.value⟩
      | _ => none,
    gch := some { remove := if t.isEvict && (f.gran.recordOf a t.la).isNone then slotBit slot else 0,
                  toS := 0, pend := pend,
                  write := if grants then
                      slot.map (fun k => (k, t.grant, lnCset t.hdr, lnCway t.hdr))
                    else none },
    data := if writes then some (t.wd, t.wpo) else none }

/-- An HRW record (Table 13.5): a descriptor accepted, with its 64 bytes; a progress mark; or an end.
DESIGN CHOICE (log entry 52): what tells these apart, and the mark's number, stand in AGENT and LADDR. -/
def hrwRec (ticket queue : Nat) (data : Option Line) (mark : Nat) (ended : Bool) : TRec :=
  { TRec.mk0 9 8 (BitVec.ofNat 46 mark) queue with
    agent := (if ticket < 2 ^ 32 then 1 else 0) + (if ended then 2 else 0), rseq := BitVec.ofNat 32 ticket,
    data := data.map (fun l => (l, false)) }

/-- The progress mark of a line request of a pass: its line, or the BATCH entry; none for what takes no
effect of its own (R260). -/
def Desc.markOf (d : Desc) (pass la : Nat) : Option Nat :=
  if pass = 9 || d.internal then none
  else if d.op = 0x0B then (if pass = 1 then some d.wpos else none)
  else if pass = 0 && (d.op = 7 || d.op = 8 || d.op = 9) then none
  else some la

/-- The progress-mark record of a line request in flight. -/
def Fabric.markRec (f : Fabric) (ticket k : Nat) : List TRec :=
  match f.hrw.descs.find? (fun d => d.ticket = ticket) with
  | none => []
  | some d =>
    match d.flight.find? (fun x => x.1 = k) with
    | none => []
    | some (_, pass, la) =>
      match d.markOf pass la with
      | some m => [hrwRec ticket d.queue none m false]
      | none => []

/-- The deduplication table keeps entries in the states that use them (R361). -/
def Fabric.dedupOn (f : Fabric) : Bool :=
  match f.twin.pair with
  | .paired | .resync | .failover | .survivor => true
  | _ => false

/-- The key of a deduplication entry: agent × 4,096 + RSEQ[11:0]. -/
def dedupKey (a : Nat) (rseq : Word32) : Nat := a * 4096 + rseq.toNat % 4096

/-- Write the deduplication entry of a commit (R361). -/
def Fabric.dedupWrite (f : Fabric) (t : Txn) (opn live : Bool) : Fabric :=
  match t.who, t.op with
  | .agent a _, .req o =>
    if f.dedupOn then
      let e : Dedup := { rseq := reqRseq o t.hdr, opcode := o.code, st := t.grant, res := t.result,
                         dup := t.fwd, value := t.value, htag := t.htag, la := t.la, opn := opn,
                         live := live,
                         full := o = .upgrade && t.todo.any (fun m => match m with | .compData _ => true | _ => false) }
      { f with twin := { f.twin with dedup := Tab.set f.twin.dedup (dedupKey a e.rseq) e } }
    else f
  | _, _ => f

/-! ## Plans -/

/-- A read of the home copy. -/
def readP : List Micro := [.tag, .alloc false, .fetch, .data]
/-- A write of the home copy by policy. -/
def writeP (k : WKind) : List Micro := [.tag, .alloc true, .store k]
/-- A write that changes the home copy for coherence (R115, R118, R119, R127). -/
def cohP : List Micro := writeP .coh
/-- The read of a home copy that is about to be poisoned: it allocates nothing (R180). -/
def poisonReadP : List Micro := [.tag, .fetch, .data, .poisonGot]
/-- Write the home copy poisoned: read its bytes and store them with the marker. -/
def poisonP : List Micro := poisonReadP ++ cohP
/-- The same with no request that logs it: the WRITE record comes first (R148, Table 13.5). -/
def poisonLogP : List Micro := poisonReadP ++ [.logWrite] ++ cohP

/-- The program logs the home copy's write itself, in a record of its own that is still to come. -/
def logsLater (l : List Micro) : Bool := l.any (fun m => match m with | .log | .logData => true | _ => false)

/-- Owner data written to the home copy before the rest of a program. -/
def ownerP (d : Line) (p : Bool) (rest : List Micro) : List Micro :=
  .takeData d p :: (if logsLater rest then [] else [.logWrite]) ++ cohP ++ rest

/-- The home copy written poisoned before the rest of a program. -/
def poisonThen (rest : List Micro) : List Micro := (if logsLater rest then poisonP else poisonLogP) ++ rest

/-- SnpInv to each of these agents. -/
def invs (l : List (Nat × LSt × Nat)) : List (Nat × Op × Bool) :=
  l.map (fun h => (h.1, .snpInv, false))

/-- An INTENT record comes before a SnpInv to a holder recorded E, M or O (R24). -/
def intentP (l : List (Nat × LSt × Nat)) : List Micro :=
  if l.any (fun h => h.2.1 ≠ .s) then [.intent] else []

/-- SnpOwn to the owner and SnpInv to the sharers. -/
def ownInvs (l : List (Nat × LSt × Nat)) : List (Nat × Op × Bool) :=
  l.map (fun h => (h.1, if h.2.1 = .s then .snpInv else .snpOwn, false))

/-- A snoop step, where there is anybody to snoop. -/
def snoopP (l : List (Nat × Op × Bool)) : List Micro := if l = [] then [] else [.snoop l, .snoops]

/-- The outcome of planning: refuse, or run a program with a side program and a state to grant. -/
structure Plan where
  todo : List Micro
  side : List Micro
  grant : LSt
  fwd : Bool
  proto : Bool
  /-- The request is granted E or M for the line (Table 8.6). -/
  owns : Bool
  /-- A location mismatch of an Upgrade (Table 5.8). -/
  mis : Bool

/-- A plain plan. -/
def Plan.run (todo : List Micro) : Plan := ⟨todo, [], .i, false, false, false, false⟩
/-- A refusal with Comp PROTO. -/
def Plan.refuse : Plan := ⟨[.comp .i .proto], [], .i, false, true, false, false⟩

/-- Table 4.3, with Table 4.11 for what passed the ordering unit. -/
def planReq (f : Fabric) (t : Txn) (a : Nat) (o : Op) : Plan :=
  let hs := if t.rtype.cacheable then f.gran.holders t.la else []
  let view := if t.rtype.cacheable then f.gran.view t.la else .u
  let mine := f.gran.recordOf a t.la
  let sharers := hs.filter (fun h => h.2.1 = .s)
  let coh : List Micro := match view with
    | .ex _ | .ow _ => snoopP (ownInvs hs)
    | _ => snoopP (invs hs)
  match o with
  | .rdShared =>
    if mine.isSome then Plan.refuse
    else match view with
      | .u => ⟨readP ++ [.join, .log, .compData .e, .ack], [.record .e], .e, false, false, true, false⟩
      | .sh => ⟨readP ++ [.join, .log, .compData .s, .ack], [.record .s], .s, false, false, false, false⟩
      | .ex h | .ow h =>
        ⟨[.join, .log, .snoop [(h, .snpFwdShared, false)], .snoops, .ack], [.record .s, .tag], .s, true,
          false, false, false⟩
  | .rdOwn =>
    if mine.isSome then Plan.refuse
    else match view with
      | .u => ⟨readP ++ [.join, .log, .compData .e, .ack], [.record .e], .e, false, false, true, false⟩
      | .sh =>
        ⟨[.snoop (invs hs)] ++ readP ++ [.dataHome, .snoops, .join, .log, .comp .e .ok, .ack],
          [.record .e], .e, false, false, true, false⟩
      | .ex h =>
        ⟨[.join, .log, .snoop [(h, .snpFwdOwn, false)], .snoops, .ack], [.record .e, .tag], .e, true,
          false, true, false⟩
      | .ow h =>
        let w := sharers ≠ []
        ⟨[.join, .log, .snoop ((h, .snpFwdOwn, w) :: invs sharers), .snoops] ++
            (if w then [.comp .m .ok] else []) ++ [.ack], [.record .m, .tag], .m, true, false, true, false⟩
  | .upgrade =>
    match mine with
    | some (st, loc) =>
      if loc % 2 ^ 18 ≠ lnCset t.hdr * 16 + lnCway t.hdr then
        ⟨[.comp .i .proto], [], .i, false, false, false, true⟩
      else if st = .e || st = .m then
        ⟨[.record .m, .log, .comp .m .ok, .ack], [], .m, false, false, true, false⟩
      else
        let others := hs.filter (fun h => h.1 ≠ a)
        ⟨intentP others ++ snoopP (invs others) ++ [.record .m, .log, .comp .m .ok, .ack], [], .m,
          false, false, true, false⟩
    | none =>
      ⟨snoopP (ownInvs hs) ++ readP ++ [.join, .log, .compData .m, .ack], [.record .m], .m, false,
        false, true, false⟩
  | .rdOnce | .rdUncached =>
    match view with
    | .ex h | .ow h =>
      Plan.run ([.snoop [(h, .snpShared, false)], .snoops] ++ readP ++ [.logData, .compData .i])
    | _ => Plan.run (readP ++ [.compData .i])
  | .ldResv =>
    match view with
    | .ex h | .ow h =>
      Plan.run ([.snoop [(h, .snpShared, false)], .snoops] ++ readP ++ [.compute, .logData, .comp .i .ok])
    | _ => Plan.run (readP ++ [.compute, .comp .i .ok])
  | .wrInvFull =>
    Plan.run (intentP hs ++ snoopP (invs hs) ++ [.loadReq] ++ writeP .full ++
      [.endPoint, .log, .comp .i .ok])
  | .wrPartial | .wrUncached =>
    if t.be = allEn then
      Plan.run (intentP hs ++ snoopP (invs hs) ++ [.loadReq] ++ writeP .full ++
        [.endPoint, .log, .comp .i .ok])
    else Plan.run (coh ++ [.loadReq] ++ writeP .part ++ [.endPoint, .log, .comp .i .ok])
  | .atomic => Plan.run (coh ++ [.tag, .alloc true, .fetch, .data, .compute])
  | .stCond =>
    if t.value = 0 then Plan.run [.log, .comp .i .fail]
    else Plan.run (coh ++ [.tag, .alloc true, .fetch, .data, .compute])
  | _ => Plan.run []

/-- Table 9.4. -/
def planHarrow (f : Fabric) (t : Txn) (h : HAct) : List Micro :=
  let cach := t.rtype.cacheable
  let hs := if cach then f.gran.holders t.la else []
  let owner := hs.filter (fun x => x.2.1 ≠ .s)
  match h with
  | .clean sc =>
    (if sc then snoopP (owner.map (fun x => (x.1, .snpShared, false))) else []) ++ [.tag, .hline]
  | .inval => [.tag, .hline]
  | .flush => snoopP (ownInvs hs) ++ [.tag, .hline]
  | .invalNowb sc =>
    (if sc then intentP hs ++ snoopP (invs hs) else []) ++ [.tag, .hline]
  | .reclaim => intentP hs ++ snoopP (invs hs) ++ [.tag, .hline]
  | .write =>
    (if t.be = allEn then intentP hs ++ snoopP (invs hs)
      else if owner = [] then snoopP (invs hs) else snoopP (ownInvs hs)) ++
      [.loadReq, .log, .tag, .store .harrow, .endPoint]
  | .read => snoopP (owner.map (fun x => (x.1, .snpShared, false))) ++ [.tag, .fetch, .data]
  | .atomic _ =>
    (if owner = [] then snoopP (invs hs) else snoopP (ownInvs hs)) ++ [.tag, .fetch, .data, .compute]
  | .lock => [.tag, .hline]
  | .unlock => [.tag, .hline]

/-- The agents that a program's next snoop step names. -/
def planTargets (l : List Micro) : List Nat :=
  l.foldl (fun acc m => match m with | .snoop s => acc ++ s.map (·.1) | _ => acc) []

end Sys2Proof.Machine
end

