-- ==== Sys2Proof/Machine/Home.lean ====
section
/-! DEFINITION. The home engine: what each micro-step of a tracker does, when it must wait, and the
settling of every tracker after an event (chapters 4 to 8). -/
namespace Sys2Proof.Machine

/-! ## Prefetch triggers (R199 to R206) -/

/-- A candidate fails one of the first three tests of R200: its region, a valid line, a prefetch of it. -/
def Fabric.candidateKnown (cfg : Cfg) (f : Fabric) (rgn : Option Region) (la : LAddr) : Bool :=
  let r := cfg.regionOf la
  let valid := match r with
    | some r => (f.cache.bits (f.cache.find cfg r.line la) (subOf la)).1
    | none => false
  r.map (·.idx) ≠ rgn.map (·.idx) || valid || f.pfu.queue.any (fun p => p.la = la)

/-- A candidate is dropped without a count (R200). -/
def Fabric.candidateDrop (cfg : Cfg) (f : Fabric) (rgn : Option Region) (la : LAddr) : Bool :=
  f.candidateKnown cfg rgn la || f.txns.any (fun t => t.la = la && t.agent.isSome)

/-- Queue a candidate or target in its home slice's prefetch queue of 256 entries (R200). -/
def Fabric.queuePrefetch (cfg : Cfg) (f : Fabric) (rgn : Option Region) (agent : Nat) (la : LAddr) :
    Fabric :=
  let s := sliceOf la
  if f.candidateDrop cfg rgn la then f
  else if 256 ≤ (f.pfu.queue.filter (fun p => p.slice = s && ¬ p.issued)).length then
    f.modStat s (fun x => { x with dropped := bvSat x.dropped 1 })
  else
    let p : Pf := { slice := s, la := la, agent := agent, issued := false, cancelled := false,
                    promoted := false, key := none, mapAsked := false }
    { f with pfu := { f.pfu with queue := f.pfu.queue ++ [p] } }

/-- Add to a slice's prefetch record of 4,096 entries; the oldest leaves unused (R204). -/
def Fabric.recordAdd (f : Fabric) (r : PfRec) : Fabric :=
  let mine := f.pfu.record.filter (fun x => x.slice = r.slice)
  let (rec0, out) := if mine.length < 4096 then (f.pfu.record, [])
    else (dropFirst (fun (x : PfRec) => x.slice = r.slice) f.pfu.record,
      ((mine.take 1).filter (fun x => x.shadow == f.pfu.mode.toNat.testBit x.agent)).map
        (fun x => (x.agent, false)))
  { f with pfu := { f.pfu with record := rec0 ++ [r], reports := f.pfu.reports ++ out } }

/-- A trigger by a demand read: next-sub-block candidates in NSB mode, shadow entries in stride
mode, and a training record (R199, R204, R206). -/
def Fabric.trigger (cfg : Cfg) (f : Fabric) (t : Txn) : Fabric :=
  if ¬ cfg.pfEn || f.pfu.stopped || ¬ f.activeHome t.la || ¬ t.demandRead then f
  else
    let a := t.agent.getD 0
    let stride := f.pfu.mode.toNat.testBit a
    let sub := subOf t.la
    let cands := ((List.range cfg.nsbDegree).map (fun j => sub + 1 + j)).filter (fun k => k < 64)
    let lines := cands.map (fun k => lineOfPage (t.la.toNat / 64) k)
    let f := lines.foldl (fun f la =>
      if stride then
        if f.candidateKnown cfg t.rgn la then f
        else f.recordAdd { slice := t.slice, la := la, agent := a, shadow := true }
      else f.queuePrefetch cfg t.rgn a la) f
    let stream := match t.op with | .req o => if o.isLine then lnStream t.hdr else 0 | _ => 0
    { f with pfu := { f.pfu with training := f.pfu.training ++ [⟨a, stream, t.la⟩] } }

/-! ## Tag lookup (R163, R185) -/

/-- The requests of firmware and the Gleaner that act on what the store holds also while CACHE_EN is 0:
contents, locks and tags survive a disable (R177, R182, R183). -/
def Txn.maintains (t : Txn) : Bool :=
  match t.op with
  | .harrow .read | .harrow .write | .harrow (.atomic _) => false
  | .harrow _ | .correct => true
  | _ => false

/-- The region's lines are in the cache for the request: WB, WT or WA with CACHE_EN 1 (R180, R181). -/
def Txn.cached (cfg : Cfg) (t : Txn) : Bool := t.rtype.cacheable && (cfg.cacheEn t.slice || t.maintains)

/-- The line is in no way, and a way of its set is tag-lost (R316). -/
def Fabric.tagLost (cfg : Cfg) (f : Fabric) (t : Txn) : Bool :=
  t.rtype.cacheable && f.cache.setLost (if t.lineMode then 2 ^ 21 + cfg.csetx t.la else setOf t.la) &&
    ¬ (f.cache.find cfg t.lineMode t.la).isWay

/-- What the tag tables say of the line. -/
def Fabric.tagNow (cfg : Cfg) (f : Fabric) (t : Txn) : TagRes :=
  if ¬ t.cached cfg then .uncached
  else if f.tagLost cfg t then .lost
  else f.cache.find cfg t.lineMode t.la

/-- The request returns what it reads: in a set with a tag-lost way it carries POISON 1 (R316). -/
def Txn.returnsRead (t : Txn) : Bool :=
  t.demandRead || t.op = .req .upgrade || t.op = .req .atomic ||
    (match t.op with | .harrow .read | .harrow (.atomic _) => true | _ => false)

/-- RRPV or PLRU after a demand lookup that found the line's way (Table 6.3, R186). -/
def Fabric.touchWay (cfg : Cfg) (f : Fabric) (t : Txn) (r : TagRes) : Fabric :=
  match t.who, r with
  | .agent _ _, .sector k =>
    let v : BitVec 2 := if t.op = .req .wbDirty || t.op = .req .wbOwned then 1 else 0
    match f.cache.sector k with
    | some x =>
      let y := { x with rrpv := v, stby := x.stby && f.twin.pair ≠ .survivor }
      { f with cache := f.cache.newSector k y }
    | none => f
  | .agent _ _, .cober k => { f with cache := f.cache.touchCober k cfg.coberWays }
  | _, _ => f

/-- The slice has, or asks for, the zero-map word of the line's page (R280). -/
def Fabric.mapKnown (f : Fabric) (t : Txn) : Bool :=
  let w := mapWord (backPage t.back)
  f.mem.mapLost (backPage t.back) || f.mem.summaryClear t.slice w || f.mem.mapCached t.slice w

/-- The map-word read of a tracker's page enters its HBM queue: the mirror's, where the primary has failed
(R280, R284). -/
def Fabric.askMap (f : Fabric) (t : Txn) : Fabric :=
  let w := mapWord (backPage t.back)
  let word := if f.mem.mapBad.contains (w, false) then mapMirror w else mapPrimary w
  f.pushH (MemReq.read word 0 (.map t.slice t.idx))

/-- A tag lookup that must read the tag store issues the speculative backing read and the map-word
read alongside (R164, R193, R280). -/
def Fabric.specIssue (cfg : Cfg) (f : Fabric) (t : Txn) : Fabric × Txn :=
  if cfg.specRd t.slice && t.demandRead && t.spec.isNone && t.got.isNone then
    if f.mapKnown t && (f.mem.marked (backPage t.back) || f.mem.mapLost (backPage t.back)) then (f, t)
    else
      let f' := f.pushD (MemReq.read t.back 0 (.spec t.slice t.idx))
      let t' := { t with spec := some none }
      if f.mapKnown t || t.mapAsked then (f', t') else (f'.askMap t, { t' with mapAsked := true })
  else (f, t)

/-- Words that the tags of a lookup fill: five of a sector set, one or two of a Cober set (R163, R185). -/
def tagWords (cfg : Cfg) (t : Txn) : List Nat :=
  if t.lineMode then ((List.range ((cfg.coberWays + 7) / 8)).map (fun j => cfg.coberTagWord (cfg.csetx t.la) (8 * j)))
  else (List.range 5).map (fun j => tagWord (setOf t.la) (2 * j))

/-- A lookup reads the tag store, with the speculative backing read alongside (R163, R164). -/
def Fabric.askTags (cfg : Cfg) (f : Fabric) (t : Txn) : Fabric :=
  let (f, t) := f.specIssue cfg t
  let f := (tagWords cfg t).foldl (fun f w => f.pushH (MemReq.read w 0 (.tags t.slice t.idx))) f
  f.put { t with tagStage := 1 }

/-- The tag lookup of a tracker; none while it waits for the tag-store read or a tag-cache way.  A first lookup
that finds the sub-block invalid, or filled by a prefetch and not read since, is a trigger (R199). -/
def stepTag (cfg : Cfg) (f : Fabric) (t : Txn) (rest : List Micro) : Option Fabric :=
  let now := f.tagNow cfg t
  let done := fun (f : Fabric) (t : Txn) =>
    let trig := t.tagr = .unknown && now.isWay && ¬ t.noalloc &&
      (t.pfHit || ¬ (f.cache.bits now (subOf t.la)).1)
    let f := if t.tagr = .unknown then f.touchWay cfg t now else f
    let no := t.noalloc || now = .lost
    let sp := t.servePois || (f.tagLost cfg t && t.returnsRead)
    let f := f.put { t with tagr := now, todo := rest, noalloc := no, servePois := sp }
    some (if trig then f.trigger cfg t else f)
  if now = .uncached || t.tagr ≠ .unknown then done f t
  else if t.lineMode then
    match t.tagStage with
    | 0 => some (f.askTags cfg t)
    | 1 => none
    | _ => done f t
  else
    let set := setOf t.la
    match now with
    | .sector k =>
      match f.cache.tcKey set (k % 10), t.tagStage with
      | some _, 0 =>
        match f.tcLoad set (k % 10) (tagOf t.la) false (some (t.slice, t.idx)) with
        | some f => done f t
        | none => none
      | none, 0 => some (f.askTags cfg t)
      | _, 1 => none
      | _, st =>
        match f.tcLoad set (k % 10) (tagOf t.la) false (some (t.slice, t.idx)) with
        | some f => done f t
        | none => if st = 2 then some ((f.countPinWait t.slice).put { t with tagStage := 3 }) else none
    | _ =>
      match t.tagStage with
      | 0 => some (f.askTags cfg t)
      | 1 => none
      | _ => done f t

/-! ## Allocation and victims (R167 to R174, R197) -/

/-- An eviction operation of a victim's dirty sub-block: a tracker that holds the line's blocked
flag, reads the sub-block and writes it to backing memory (R174). -/
def Fabric.evictOp (cfg : Cfg) (f : Fabric) (s key : Nat) (la : LAddr) (word : Nat) (stby : Bool) :
    Fabric :=
  match f.freeTracker s with
  | none => f
  | some i =>
    let arr : Arr := { cyc := 0, cls := 0, port := 0, half := 0, who := .victim key (subOf la),
                       op := .victim, hdr := 0, la := la, data := 0, be := 0, pois := false,
                       opnd := 0, txids := [] }
    let t := arr.toTxn cfg s i f.nextSeq
    let t := { t with blk := true, todo := [.data, .vwrite, .endPoint], tagr := .absent,
                      dup := stby, asked := true }
    let f := { f with txns := f.txns ++ [t], nextSeq := f.nextSeq + 1 }
    f.pushH (MemReq.read word 1 (.txn s i))

/-- Evict every dirty sub-block of a sector, in ascending order (R197). -/
def Fabric.evictSector (cfg : Cfg) (f : Fabric) (s key : Nat) (x : Sector) : Fabric :=
  (onesOf x.dirty.toNat 64).foldl (fun f k =>
    f.evictOp cfg s key (lineOfPage (pageOfTag (key / 10) x.tag.toNat) k) (key * 64 + k) x.stby) f

/-- An entry of the prefetch record leaves it unused, by a write, eviction or invalidation of its
line (R204). -/
def Fabric.recordUnused (f : Fabric) (la : LAddr) : Fabric :=
  let gone := f.pfu.record.filter (fun r => r.la = la)
  let mode := f.pfu.mode
  let rep := (gone.filter (fun r => r.shadow == mode.toNat.testBit r.agent)).map
    (fun r => (r.agent, false))
  { f with pfu := { f.pfu with record := f.pfu.record.filter (fun r => r.la ≠ la),
                               reports := f.pfu.reports ++ rep } }

/-- The victim choice of R168 for a sector in slice `s`: the way, once as many trackers are free as it has dirty
sub-blocks; the ageing stands (R197). -/
def Fabric.chooseWay (f : Fabric) (s set mask : Nat) : Fabric × Option Nat :=
  let (v, c) := f.victim set mask
  let f := { f with cache := c }
  match v with
  | none => (f, none)
  | some w =>
    let d := match f.cache.sector (10 * set + w) with
      | some x => popCount x.dirty.toNat 64
      | none => 0
    if f.freeCount s < d then (f, none) else (f, some w)

/-- Take a way for the sector of a page: its dirty sub-blocks are evicted and the new entry is written (R168,
R197). -/
def Fabric.takeWay (cfg : Cfg) (f : Fabric) (s key : Nat) (la : LAddr) (rrpv tenant : Nat) : Fabric :=
  let f := match f.cache.sector key with
    | some x => f.evictSector cfg s key x
    | none => f
  { f with cache := f.cache.newSector key (Sector.new (tagOf la) rrpv tenant) }

/-- Allocate the sector of a page for what never waits, a prefetch or a standby copy (R202): a way, and its
tag-cache entry, at once or not at all. -/
def Fabric.allocSector (cfg : Cfg) (f : Fabric) (s : Nat) (la : LAddr) (mask rrpv tenant : Nat) :
    Fabric × Option Nat :=
  let set := setOf la
  match f.chooseWay s set mask with
  | (f, none) => (f, none)
  | (f, some w) =>
    match f.tcLoad set w (tagOf la) true none with
    | none => (f, none)
    | some f' => (f'.takeWay cfg s (10 * set + w) la rrpv tenant, some (10 * set + w))

/-- Allocate a Cober line (R186). -/
def Fabric.allocCober (cfg : Cfg) (f : Fabric) (s : Nat) (la : LAddr) (tenant : Nat) :
    Fabric × Option Nat :=
  let x := cfg.csetx la
  match f.coberVictim cfg x with
  | none => (f, none)
  | some w =>
    let key := 16 * x + w
    let old := f.cache.cline key
    let dirty := match old with | some l => l.d | none => false
    if dirty && f.freeCount s = 0 then (f, none)
    else
      let f := if dirty then
          f.evictOp cfg s key (f.cache.coberLine cfg key) (cfg.coberWord x w) false
        else f
      let l : CLine := { ctag := BitVec.ofNat 32 (cfg.ctag la), v := false, d := false, p := false,
                         lock := false, tenant := BitVec.ofNat 8 tenant }
      ({ f with cache := { f.cache with cober := Tab.set f.cache.cober key l } }, some key)

/-- A request that never allocates: the Harrow's but for a lock, and the Gleaner's (R247, R317). -/
def Txn.neverAllocates (t : Txn) : Bool :=
  match t.op with
  | .harrow .lock => false
  | .harrow _ | .correct => true
  | _ => false

/-- The allocation step of a tracker; `none` while it waits (R169).  A sector or line that another request has
allocated since the lookup is found (R170).  A demand allocation of a Cober line is an access of its way
(R186); a demand read that allocates is a trigger (R199). -/
def stepAlloc (cfg : Cfg) (f : Fabric) (t : Txn) (w : Bool) (rest : List Micro) : Option Fabric :=
  let go := fun (f : Fabric) (t : Txn) => some (f.put { t with todo := rest, allocating := false })
  let take := fun (f : Fabric) (r : TagRes) (new : Bool) =>
    let load : List Micro := if t.lineMode then [] else [.tcload new]
    some ((f.put { t with todo := load ++ rest, allocating := false, tagr := r }).trigger cfg t)
  let mask := match t.rgn with | some r => cfg.wayMask r.part | none => 0
  let now := f.tagNow cfg t
  if mask = 0 && ¬ t.lineMode && t.cached cfg then go f { t with noalloc := true }
  else if ¬ (t.tagr = .absent && ¬ t.noalloc && (¬ w || t.rtype = .wb)) then go f t
  else if t.neverAllocates || ¬ cfg.cacheEn t.slice then go f { t with noalloc := true }
  else if now.isWay then take (f.touchWay cfg t now) now false
  else if now = .lost then go f { t with noalloc := true, servePois := t.servePois || t.returnsRead }
  else
    let (f', r) := if t.lineMode then
        let (f', k) := f.allocCober cfg t.slice t.la t.tenant
        (f', k.map (fun k => TagRes.cober k))
      else
        let (f', w) := f.chooseWay t.slice (setOf t.la) mask
        (f', w.map (fun w => TagRes.sector (10 * setOf t.la + w)))
    match r with
    | some (.cober k) => take (f'.touchWay cfg t (.cober k)) (.cober k) true
    | some (.sector k) => take (f'.takeWay cfg t.slice k t.la 2 t.tenant) (.sector k) true
    | _ =>
      if cfg.allocWait t.slice = 0 then go (f'.countNoalloc t.slice) { t with noalloc := true }
      else if ¬ t.allocating then some (f'.put { t with allocating := true })
      else if f'.cache.ages (setOf t.la) ≠ f.cache.ages (setOf t.la) then some f'
      else none

/-- Load a sector's entry into the tag cache; a fully pinned set is waited for with no time limit, and counted
once (R163, R166). -/
def stepTcload (f : Fabric) (t : Txn) (new : Bool) (rest : List Micro) : Option Fabric :=
  match t.tagr with
  | .sector k =>
    match f.tcLoad (k / 10) (k % 10) (tagOf t.la) new (some (t.slice, t.idx)) with
    | some f => some (f.put { t with todo := rest })
    | none => if t.tagStage = 3 then none else some ((f.countPinWait t.slice).put { t with tagStage := 3 })
  | _ => some (f.put { t with todo := rest })

/-! ## Reading the home copy -/

/-- Ask for the line: an HBM read where the sub-block is valid, else a backing read (R191). -/
def stepFetch (cfg : Cfg) (f : Fabric) (t : Txn) (rest : List Micro) : Option Fabric :=
  if t.got.isSome then some (f.put { t with todo := rest })
  else if (f.cache.bits t.tagr (subOf t.la)).1 then
      let f := match t.spec with
        | some (some _) => f.modStat t.slice (fun x => { x with specDiscard := bvSat x.specDiscard 1 })
        | _ => f
      let cls := match t.who with | .agent _ _ => 0 | .gleaner _ => 3 | _ => 1
      let f := f.pushH (MemReq.read (lineWord cfg t.tagr (subOf t.la)) cls (.txn t.slice t.idx))
      some (f.put { t with todo := rest, asked := true, spec := none })
  else some (f.put { t with todo := .mapq :: .bread :: rest })

/-- Consult the zero-map word of the page; none while it is read from HBM (R280). -/
def stepMapq (f : Fabric) (t : Txn) (rest : List Micro) : Option Fabric :=
  let page := backPage t.back
  if t.rgn.isNone then some (f.put { t with todo := rest })
  else if f.mapKnown t then
    let w := mapWord page
    let f := if f.mem.mapCached t.slice w then { f with mem := f.mem.mapTouch t.slice w } else f
    some (f.put { t with todo := rest, mapAsked := false })
  else if t.mapAsked then none
  else some ((f.askMap t).put { t with mapAsked := true })

/-- A demand read that takes its data from home while a prefetch of its line is in flight takes over the
prefetch's backing read, which moves to class 0: counted in USED and LATE (R203, Table 10.3). -/
def Fabric.promote (f : Fabric) (t : Txn) : Option Fabric :=
  match t.demandRead && t.spec.isNone,
      f.pfu.queue.find? (fun p => p.la = t.la && p.issued && ¬ p.cancelled && ¬ p.promoted) with
  | true, some p =>
    let q := modFirst (fun (p : Pf) => p.la = t.la && p.issued) (fun p => { p with promoted := true }) f.pfu.queue
    let f := f.modStat t.slice (fun x => { x with used := bvSat x.used 1, late := bvSat x.late 1 })
    let rep := if f.pfu.mode.toNat.testBit p.agent then [] else [(p.agent, true)]
    let dq := modAll (fun (r : MemReq) => r.who = .prefetch p.slice p.la) (fun r => { r with cls := 0 }) f.mem.dq
    let f := { f with pfu := { f.pfu with queue := q, reports := f.pfu.reports ++ rep },
                      mem := { f.mem with dq := dq } }
    some (f.put { t with spec := some none })
  | _, _ => none

/-- The backing read (R164, R193, R203, R281, R284). -/
def stepBread (f : Fabric) (t : Txn) (rest : List Micro) : Option Fabric :=
  let page := backPage t.back
  let discard := fun (f : Fabric) => match t.spec with
    | some (some _) => f.modStat t.slice (fun x => { x with specDiscard := bvSat x.specDiscard 1 })
    | _ => f
  if t.rgn.isNone then
    some ((discard f).put { t with todo := rest, spec := none, got := some (0, false, true) })
  else if f.mem.mapLost page then
    some ((discard f).put { t with todo := rest, spec := none, got := some (0, true, true) })
  else if f.mem.marked page then
    let f := f.modStat t.slice (fun x => { x with zeroReads := bvSat x.zeroReads 1 })
    some ((discard f).put { t with todo := rest, spec := none, got := some (0, false, true) })
  else match t.spec with
    | some (some (d, p)) =>
      some (f.put { t with todo := rest, spec := none, got := some (d, p, true) })
    | some none => none
    | none =>
      match f.promote t with
      | some f => some f
      | none =>
        let cls := match t.who with | .agent _ _ => 0 | .gleaner _ => 3 | _ => 1
        let f := f.pushD (MemReq.read t.back cls (.txn t.slice t.idx))
        some (f.put { t with todo := rest, asked := true })

/-- The data asked for has arrived: a cacheable read from backing memory fills its sub-block,
unless the data is poisoned or the request is no-allocate (R194, R195). -/
def stepData (cfg : Cfg) (f : Fabric) (t : Txn) (rest : List Micro) : Option Fabric :=
  match t.got with
  | none => none
  | some (d, p, back) =>
    let sub := subOf t.la
    let reads := t.demandRead || t.op = .req .upgrade ||
      (match t.op with | .harrow .read => true | _ => false)
    let fills := back && ¬ p && reads && ¬ t.noalloc && t.tagr.isWay && ¬ (f.cache.bits t.tagr sub).1
    let f := if fills then
        let f := { f with cache := f.cache.setBitsOf t.tagr sub true false false }
        f.pushH { MemReq.wr (lineWord cfg t.tagr sub) d allEn false .none with acc := true }
      else f
    some (f.put { t with todo := rest })

/-! ## Writing the home copy (Table 6.6) -/

/-- Merge the write's bytes into the word obtained (Table 11.4, R237). -/
def stepMerge (f : Fabric) (t : Txn) (rest : List Micro) : Option Fabric :=
  match t.got with
  | none => none
  | some (d, p, _) =>
    let f := if p && ¬ t.errSeen then f.countPoisonWr else f
    some (f.put { t with todo := rest, wd := mergeLine d t.wd t.wbe, wbe := allEn, wpo := p || t.wpo,
                         errSeen := false })

/-- Clear VALID, DIRTY and POISON of whatever way holds the line; CACHE_EN 0 writes do this
(R181). -/
def Fabric.dropLine (cfg : Cfg) (f : Fabric) (t : Txn) : Fabric :=
  { f with cache := f.cache.setBitsOf (f.cache.find cfg t.lineMode t.la) (subOf t.la) false false false }

/-- Store the write by the policy of its region (Table 6.6, R181). -/
def stepStore (cfg : Cfg) (f : Fabric) (t : Txn) (k : WKind) (rest : List Micro) : Option Fabric :=
  let sub := subOf t.la
  let present := t.tagr.isWay
  let (v, d, _) := f.cache.bits t.tagr sub
  let word := lineWord cfg t.tagr sub
  let hbm := fun (f : Fabric) (who : Owner) =>
    f.pushH { MemReq.wr word t.wd allEn t.wpo who with acc := decide (who = .none) }
  let setv := fun (f : Fabric) (dirty : Bool) =>
    { f with cache := f.cache.setBitsOf t.tagr sub true dirty t.wpo }
  let serves := match t.who with | .harrow _ _ => true | _ => false
  let backing := fun (f : Fabric) =>
    if k = .coh && serves then some (f.put { t with todo := .mapq :: .bwrite false :: .endPoint :: rest })
    else some (f.put { t with todo := .mapq :: .bwrite (decide (k = .coh)) :: rest })
  let mergeFirst := some (f.put { t with todo := .fetch :: .data :: .merge :: .store .part :: rest })
  let who : Owner := if k = .coh then .none else .txn t.slice t.idx
  let storeDirty := some ((hbm (setv f true) who).put { t with todo := rest })
  if t.wbe = 0 then some (f.put { t with todo := rest, wend := true })
  else if f.mirrors && t.wbe ≠ allEn && t.rgn.isSome then mergeFirst
  else if ¬ t.rtype.cacheable then backing f
  else if ¬ cfg.cacheEn t.slice then backing (f.dropLine cfg t)
  else
    let part := (k = .part || k = .harrow) && t.wbe ≠ allEn
    if t.noalloc then
      if present && v then
        if part then mergeFirst
        else backing (hbm (setv f d) .none)
      else backing f
    else match t.rtype with
      | .wb =>
        if ¬ present then
          if t.agent.isSome then some (f.put { t with todo := .alloc true :: .store k :: rest }) else backing f
        else if part then mergeFirst
        else storeDirty
      | .wt =>
        if k = .coh then
          if present && serves then storeDirty
          else if serves then backing f
          else if present then
            some ((hbm (setv f true) .none).put { t with todo := .mapq :: .bwrite true :: rest })
          else some (f.put { t with todo := .mapq :: .bwrite true :: rest })
        else if part || k = .part then
          if present && v then
            if part then mergeFirst else backing (hbm (setv f false) .none)
          else backing f
        else if present then backing (hbm (setv f false) .none)
        else backing f
      | _ =>
        if part || k = .part then
          if present && v then (if part then mergeFirst else storeDirty) else backing f
        else if present then storeDirty
        else backing f

/-- The aligned parts of an access of `n` bytes at an offset: each the largest power of two up to 8 that is
aligned where it starts (R228). -/
def alignedParts : Nat → Nat → Nat → List (Nat × Nat)
  | 0, _, _ => []
  | k + 1, off, n =>
    if n = 0 then []
    else
      let p := if off % 8 = 0 && 8 ≤ n then 8 else if off % 4 = 0 && 4 ≤ n then 4
        else if off % 2 = 0 && 2 ≤ n then 2 else 1
      (off, p) :: alignedParts k (off + p) (n - p)

/-- The parts that an agent's write to an uncacheable line is placed in: an uncached-format access by R228, and
anything else whole.
DESIGN CHOICE (log entry 99): the parts enter the DDR5 queue one in each slice cycle, so that a read accepted
meanwhile may see the first of them only. -/
def Txn.writeParts (t : Txn) : List (Nat × Nat) :=
  if t.op = .req .wrUncached && ¬ t.rtype.cacheable && t.wbe ≠ allEn && t.wbe ≠ 0 then
    alignedParts 64 (bitsOf (unAddr t.hdr).toNat 0 6) (unLen t.hdr)
  else []

/-- Place a write in the DDR5 queue; a marked page is filled first, and a write of no bytes onto it
is discarded (R282, R284). -/
def stepBwrite (f : Fabric) (t : Txn) (through : Bool) (rest : List Micro) : Option Fabric :=
  let page := backPage t.back
  let who : Owner := if through then .through t.la else .txn t.slice t.idx
  if t.rgn.isNone then some (f.put { t with todo := rest, wend := true })
  else if f.mem.marked page && ¬ f.mem.mapLost page then
    if t.wbe = 0 then some (f.put { t with todo := rest, wend := true })
    else some (f.put { t with todo := .fillWait through :: rest })
  else
    let split := 1 < t.writeParts.length
    let first := t.writeParts.headD (0, 64)
    let f := f.pushD (if split then MemReq.wr t.back t.wd (t.wbe &&& spanEn first.1 first.2) t.wpo .none
      else MemReq.wr t.back t.wd t.wbe t.wpo who)
    let f := f.staleSpec (fun u => u.la = t.la && t.other u)
    let rest := if split then .parts t.writeParts.tail :: rest else rest
    let d := if t.op = .victim || t.wbe ≠ allEn then none else some (t.wd, t.wpo)
    let f := f.trackPage page
    let f := if t.op = .victim && t.dup then f
      else f.logFree { TRec.mk0 7 t.slice t.la t.tenant with data := d }
    some (f.put { t with todo := rest, wend := t.wend || through })

/-! ## Atomics and conditional stores (R235, R236) -/

/-- Compute an Atomic, decide a StCond, or take a LdResv's value.  A write onto a poisoned word is logged as a
partial write onto an uncorrectable one, KIND 0011b (R237). -/
def stepCompute (cfg : Cfg) (f : Fabric) (t : Txn) (rest : List Micro) : Option Fabric :=
  match t.got with
  | none => none
  | some (d, p, back) =>
    let off := bitsOf (unAddr t.hdr).toNat 0 6
    let len := unLen t.hdr
    let old := bitsOf d.toNat (8 * off) (8 * len)
    let operand := bitsOf t.opnd.toNat 0 (8 * len)
    let cmp := bitsOf t.opnd.toNat 64 (8 * len)
    let q := if back then (0, len) else (len, 0)
    let sp := t.servePois || p
    let write := fun (f : Fabric) (v : Nat) (val : Nat) =>
      let f := if p && ¬ t.errSeen then
          let word := if back then t.back else lineWord cfg t.tagr (subOf t.la)
          f.countPoisonWr.elogMem back word 3 false false ⟨.poisoned, d, 0, 0, 0⟩ t.tenant
        else f
      let nd : Line := BitVec.ofNat 512 (v <<< (8 * off))
      let merged := mergeLine d nd (spanEn off len)
      let f := f.loseResv t.la t.agent t.seq
      let f := f.tap t.slice t.rgn 0 0 len
      some (f.put { t with wd := merged, wbe := allEn, wpo := p || t.pois, value := val, servePois := sp, errSeen := false,
                           todo := .store .part :: .endPoint :: .log :: .comp .i .ok :: rest })
    match t.op with
    | .req .ldResv =>
      let f := f.tap t.slice t.rgn q.1 q.2 0
      some (f.put { t with value := old, servePois := sp, todo := rest })
    | .req .stCond => write f operand 0
    | _ =>
      let f := f.tap t.slice t.rgn q.1 q.2 0
      match atomicOp (unAtop t.hdr) len old operand cmp with
      | some (v, true) => write f v old
      | _ => some (f.put { t with value := old, result := .fail, servePois := sp,
                                  todo := .log :: .comp .i .fail :: rest })

/-! ## Snoops -/

/-- The forward of a list of snoops whose owner is no longer recorded: its eviction was applied, or its
entry went, while the request waited (R112, R129). -/
def Fabric.ownerGone (f : Fabric) (t : Txn) (l : List (Nat × Op × Bool)) : Bool :=
  l.any (fun x => (x.2.1 = .snpFwdShared || x.2.1 = .snpFwdOwn) && (f.gran.recordOf x.1 t.la).isNone)

/-- The program of a request whose owner is gone: the other snoops, then the grant by the updated records. -/
def unforward (l : List (Nat × Op × Bool)) : List Micro :=
  snoopP (l.filter (fun x => x.2.1 = .snpInv)) ++ [.regrant none]

/-- Poison the line for the step 5 action of a departed agent, then remove its entry (R129, R146). -/
def departP (loc : Nat) (st : LSt) : List Micro := (if st = .s then [] else poisonLogP) ++ [.unlink loc]

/-- Send the snoops of a step and start their timers (R115, R126); entries of departed agents are met first
(R129), and a forward to an owner that is gone is not sent (R112). -/
def stepSnoop (f : Fabric) (t : Txn) (l : List (Nat × Op × Bool)) (rest : List Micro) :
    Option Fabric :=
  match f.gran.departing t.la with
  | some (loc, e) => some (f.put { t with todo := departP loc e.st ++ .snoop l :: rest })
  | none =>
  if f.ownerGone t l then some (f.put { t with fwd := false, todo := unforward l })
  else
  let crit := match t.op with | .req o => reqCrit o t.hdr | _ => 0
  let reqTx := match t.who with | .agent _ _ => t.txids.headD 0 | _ => 0
  let (f, sn) := l.foldl (fun (p : Fabric × List Snoop) x =>
    match p.1.gran.recordOf x.1 t.la with
    | none => p
    | some (_, loc) =>
      let isFwd := x.2.1 = .snpFwdShared || x.2.1 = .snpFwdOwn
      let m := mkSnoop x.2.1 reqTx t.htag (if isFwd then t.agent.getD 0 else 0) false x.2.2 crit
        t.tenant t.la (locSet loc) (locWay loc)
      let s : Snoop := { agent := x.1, op := x.2.1, att := false, wait := x.2.2, cset := locSet loc,
                         cway := locWay loc, resp := none, dataIn := none, done := false }
      (p.1.send x.1 m, p.2 ++ [s])) (f, t.snoops)
  some (f.put { t with todo := rest, snoops := sn, ackDue := t.ackDue || t.fwd })

/-! ## The micro-step -/

/-- The first part of an unaligned write to an uncacheable line is in its DDR5 queue: what is accepted later for
the line follows it there (R219, R228). -/
def Txn.placing (u : Txn) : Bool := match u.todo with | .parts _ :: _ => true | _ => false

/-- Another tracker holds the line's blocked flag, or an earlier request waits for it (R109, R110). -/
def Fabric.lineBusy (f : Fabric) (t : Txn) : Bool :=
  f.txns.any (fun u => u.la = t.la && ¬ (u.slice = t.slice && u.idx = t.idx) && ¬ u.isEvict && ¬ u.placing &&
    (u.blk || decide (u.seq < t.seq)))

/-- Commit a plan to a tracker: count a refusal, lose reservations, tap a write (R116, R144,
Table 8.6). -/
def Fabric.commitPlan (f : Fabric) (t : Txn) (p : Plan) : Fabric :=
  let a := t.agent.getD 0
  let f := if p.proto then f.protoErr a (hOp t.hdr) 4 else f
  let f := if p.mis then
      match f.gran.slotOf a with
      | some k => f.mismatch (locNum k (lnCset t.hdr) (lnCway t.hdr)) 1
      | none => f
    else f
  let f := if p.owns then f.loseResv t.la (some a) t.seq else f
  let sp := t.servePois || (f.gran.tainted t.la && (t.demandRead || t.op = .req .upgrade))
  let res := if p.proto || p.mis then Res.proto else t.result
  f.put { t with todo := p.todo, side := p.side, grant := p.grant, fwd := p.fwd, servePois := sp,
                 result := res }

/-- The look-up step: waits for a rebuild, for an eviction's write, and for holds of the agents to
be snooped; meets the entries of departing agents first (R113, R129, R150). -/
def stepLook (f : Fabric) (t : Txn) : Option Fabric :=
  if (vget f.gran.banks GrnBank.zero t.slice).rebuild || f.evictPending t.la t then none
  else
    match f.gran.departing t.la with
    | some (loc, e) => some (f.put { t with todo := departP loc e.st ++ [.look] })
    | none =>
      match t.op with
      | .req o =>
        let a := t.agent.getD 0
        let f := match f.twin.pair, f.gran.recordOf a t.la with
          | .survivor, some (st, loc) =>
            if (o = .rdShared || o = .rdOwn) && (st = .s || st = .e) then
              { f with gran := f.gran.remove loc }
            else f
          | _, _ => f
        let p := planReq f t a o
        if (planTargets p.todo).any (fun x => f.held t.la x) then none
        else
          let home := p.todo.any (fun m => match m with | .fetch => true | _ => false) &&
            p.todo.all (fun m => match m with | .snoop l => l.all (fun x => x.2.1 ≠ .snpShared) | _ => true)
          let f := if home then (f.promote t).getD f else f
          let t := (f.txnAt t.slice t.idx).getD t
          some (f.commitPlan { t with got := none, asked := false } p)
      | .harrow h =>
        let p := planHarrow f t h
        if (planTargets p).any (fun x => f.held t.la x) then none
        else
          let reads := match h with | .read | .atomic _ => true | _ => false
          some (f.put { t with todo := p, got := none, asked := false,
                               servePois := t.servePois || (reads && f.gran.tainted t.la) })
      | .correct =>
        if f.holds.any (fun h => h.la = t.la) then none
        else some (f.put { t with todo := [.tag, .gline] })
      | .walk => some (f.put { t with todo := [.walkRemove] })
      | .reclaim =>
        match t.who with
        | .reclaim a loc =>
          match f.gran.recordOf a t.la with
          | some (st, l) =>
            if l ≠ loc then some (f.put { t with todo := [] })
            else if f.held t.la a then none
            else some (f.put { t with todo := [.snoop [(a, if st = .s then .snpInv else .snpOwn, false)],
                                               .snoops] })
          | none => some (f.put { t with todo := [] })
        | _ => some (f.put { t with todo := [] })
      | _ => some (f.put { t with todo := [] })

/-- Apply an eviction by Table 4.4, with the location check of Table 5.8; its lookup waits out a rebuild of
the slice's chains (R137, R150), and every Comp of it is logged first (R24, R119). -/
def stepEvict (f : Fabric) (t : Txn) (rest : List Micro) : Option Fabric :=
  let a := t.agent.getD 0
  let f := f.endHold t.la a
  let clean := t.op = .req .evictClean
  if (vget f.gran.banks GrnBank.zero t.slice).rebuild then none
  else match (if t.dead then f.gran.lastRecord a t.la else f.gran.recordOf a t.la) with
  | none =>
    let r : Res := if t.rgn.isNone then .address else if clean then .ok else .proto
    some (f.put { t with result := r, todo := .log :: .comp .i r :: rest })
  | some (st, loc) =>
    let named := locNum (locSlot loc) (lnCset t.hdr) (lnCway t.hdr)
    let f := if named ≠ loc then f.mismatch named 1 else f
    if t.rgn.isNone then
      some ({ f with gran := f.gran.remove loc }.put
        { t with result := .address, todo := .log :: .comp .i .address :: rest })
    else if ¬ clean then
      if st = .s then
        let f := if named ≠ loc then { f with gran := f.gran.remove loc } else f
        some (f.put { t with result := .proto, todo := .log :: .comp .i .proto :: rest })
      else
        let f := { f with gran := f.gran.remove loc }
        some (f.put { t with todo := .loadReq :: writeP .wb ++ [.endPoint, .log, .comp .i .ok] ++ rest })
    else
      let f := { f with gran := f.gran.remove loc }
      if st = .s || st = .e then
        some (f.put { t with todo := .log :: .comp .i .ok :: rest })
      else
        let f := f.cohFault t.slice
        some (f.put { t with result := .proto,
                             todo := poisonThen ([.log, .comp .i .proto] ++ rest) })

/-- A Harrow line's act on the cached copy (Table 9.4, R175, R177).  Owner data that went straight to backing
memory is noted in `value`, for RESULT (R248). -/
def stepHline (cfg : Cfg) (f : Fabric) (t : Txn) (rest : List Micro) : Option Fabric :=
  let sub := subOf t.la
  let (v, d, _) := f.cache.bits t.tagr sub
  let wb : List Micro := [.fetch, .data, .vwrite, .endPoint]
  let go := fun l => some (f.put { t with todo := l ++ rest, wend := false, value := b2n t.wend })
  match t.op with
  | .harrow (.clean _) => if v && d then go (wb ++ [.cleanSub]) else go []
  | .harrow .inval | .harrow .flush => if v && d then go (wb ++ [.clearSub]) else go [.clearSub]
  | .harrow (.invalNowb _) | .harrow .reclaim => go [.clearSub]
  | .harrow .lock =>
    let full := match t.lineMode with
      | true => decide (cfg.coberWays - 1 ≤ f.cache.coberLocks (cfg.csetx t.la))
      | false => decide (8 ≤ f.cache.setLocks (setOf t.la))
    if f.cache.lockedWay t.tagr then some (f.put { t with todo := rest, value := 2 })
    else if full then some (f.put { t with todo := rest, value := 0 })
    else match t.tagr with
      | .sector k =>
        match f.cache.sector k with
        | some x => some ({ f with cache := f.cache.newSector k { x with lock := true } }.put
            { t with todo := rest, value := 1 })
        | none => some (f.put { t with todo := rest, value := 0 })
      | .cober k => some ({ f with cache := f.cache.modCober k (fun l => { l with lock := true }) }.put
            { t with todo := rest, value := 1 })
      | .absent =>
        if t.noalloc then some (f.put { t with todo := rest, value := 0 })
        else go [.alloc false, .hline]
      | _ => some (f.put { t with todo := rest, value := 0 })
  | .harrow .unlock =>
    match t.tagr with
    | .sector k =>
      match f.cache.sector k with
      | some x =>
        let y := if x.lock then { x with lock := false, rrpv := 2 } else x
        some ({ f with cache := f.cache.newSector k y }.put { t with todo := rest, value := b2n x.lock })
      | none => go []
    | .cober k =>
      some ({ f with cache := f.cache.modCober k (fun l => { l with lock := false }) }.put
        { t with todo := rest, value := b2n (f.cache.lockedWay t.tagr) })
    | _ => go []
  | _ => go []

/-- A record's location in its agent's slot. -/
def Fabric.recordLoc (f : Fabric) (t : Txn) : Option Nat :=
  match t.agent with
  | some a => (f.gran.slotOf a).map (fun k => locNum k (lnCset t.hdr) (lnCway t.hdr))
  | none => none

/-- A record is still to be written. -/
def Txn.recording (t : Txn) : Bool :=
  (t.todo ++ t.side).any (fun m => match m with | .record _ => true | _ => false)

/-- Another request that waits for the location reached its bank earlier, or in the same cycle from a lower
slice (R141). -/
def Fabric.bankBehind (f : Fabric) (t : Txn) (loc : Nat) : Bool :=
  f.txns.any (fun u => t.other u && u.bankAt ≠ 0 && u.recording && f.recordLoc u = some loc &&
    (t.bankAt = 0 || u.bankAt < t.bankAt || (u.bankAt = t.bankAt && u.slice < t.slice)))

/-- Write the requester's entry (R139); at an occupied location the record waits its turn (R141). -/
def stepRecord (f : Fabric) (t : Txn) (st : LSt) (rest : List Micro) : Option Fabric :=
  let go := fun (f : Fabric) => some (f.put { t with todo := rest })
  match t.agent.bind (fun a => f.gran.recordOf a t.la), f.recordLoc t with
  | some (_, loc), _ => go { f with gran := f.gran.write loc t.la st }
  | none, none => go f
  | none, some loc =>
    if (Tab.find f.gran.entries loc).isNone && ¬ f.bankBehind t loc then
      go { f with gran := f.gran.write loc t.la st }
    else if t.bankAt = 0 then some (f.put { t with bankAt := f.nextSeq })
    else none

/-- Await the side program; then the grant follows the records as evictions have left them (R112): a
shared grant with no other holder left is E, a forward to an owner that is gone is not made. -/
def stepJoin (f : Fabric) (t : Txn) (rest : List Micro) : Option Fabric :=
  if t.side.any (fun m => match m with | .record _ => true | _ => false) then none
  else
    let a := t.agent.getD 0
    let alone := t.op = .req .rdShared && ¬ t.fwd && t.grant = .s &&
      (f.gran.holders t.la).all (fun h => h.1 = a)
    if alone then
      let todo := rest.map (fun m => match m with | .compData _ => .compData .e | m => m)
      some ({ f with gran := f.gran.setAgent a t.la .e }.put { t with todo := todo, grant := .e })
    else match rest with
      | .log :: .snoop l :: _ =>
        if f.ownerGone t l then some (f.put { t with fwd := false, todo := unforward l })
        else some (f.put { t with todo := rest })
      | _ => some (f.put { t with todo := rest })

/-- The outcome that the next Comp of a program carries. -/
def nextRes (r : Res) (rest : List Micro) : Res := match rest with | .comp _ x :: _ => x | _ => r

/-- Hand records to the twin link, in order, and await the acknowledgement of the last; `mk` makes them. -/
def stepGate (f : Fabric) (t : Txn) (rest : List Micro) (mk : Fabric → List TRec) : Option Fabric :=
  match t.gate with
  | some g => if f.unacked g then none else some (f.put { t with todo := rest, gate := none })
  | none =>
    if f.gateShut then none
    else if ¬ f.mirrors then some (f.put { t with todo := rest })
    else
      let (f, g) := (mk f).foldl (fun (p : Fabric × Option (Nat × Nat)) r =>
        let (f, g) := p.1.logRec r
        (f, some g)) (f, none)
      some (f.put { t with gate := g })

/-- The commit record of a request, with its deduplication entry (R24, R361); a Harrow line's progress mark
is logged together with it (R260). -/
def stepLog (f : Fabric) (t : Txn) (rest : List Micro) : Option Fabric :=
  let t := { t with result := nextRes t.result rest }
  let f := if t.gate.isSome || f.gateShut then f
    else f.dedupWrite t (t.grant ≠ .i || t.fwd) (t.grant ≠ .i || t.fwd)
  stepGate f t rest (fun f => f.commitRec { t with todo := rest } ::
    (match t.who with | .harrow tk k => f.markRec tk k | _ => []))

/-- The record of a removal that no request's record carries (R148).
DESIGN CHOICE (log entry 94): Table 13.5 names no record for the entries that a departure removes; they go in
RESP records. -/
def Fabric.removalRec (f : Fabric) (slice : Nat) (la : LAddr) (tenant slot : Nat) : Fabric :=
  f.logFree { TRec.mk0 3 slice la tenant with gch := some { Gch.none with remove := 2 ^ slot } }

/-- One micro-step of a tracker; none when it must wait. -/
def stepMicro (cfg : Cfg) (f : Fabric) (t : Txn) (m : Micro) (rest : List Micro) : Option Fabric :=
  let t := { t with tagr := f.cache.wayOf t }
  let go := fun (f : Fabric) => some (f.put { t with todo := rest })
  match m with
  | .line => if f.lineBusy t then none else some (f.put { t with todo := rest, blk := true })
  | .look => stepLook f t
  | .intent => stepGate f t rest (fun f => [{ f.commitRec t with rtype := 5, data := none }])
  | .snoop l => stepSnoop f t l rest
  | .snoops =>
    if t.snoops.all (·.done) && ¬ f.evictPending t.la t then go f else none
  | .record st => stepRecord f t st rest
  | .join => stepJoin f t rest
  | .tag => stepTag cfg f t rest
  | .alloc w => stepAlloc cfg f t w rest
  | .tcload new => stepTcload f t new rest
  | .fetch => stepFetch cfg f t rest
  | .mapq => stepMapq f t rest
  | .bread => stepBread f t rest
  | .data => stepData cfg f t rest
  | .merge => stepMerge f t rest
  | .compute => stepCompute cfg f t rest
  | .store k => stepStore cfg f t k rest
  | .bwrite b => stepBwrite f t b rest
  | .fillWait _ => none
  | .parts _ => none
  | .endPoint => if t.wend then go f else none
  | .loadReq =>
    let n := popCount t.be.toNat 64
    let f := match t.who, t.op with
      | .agent _ _, _ => f.tap t.slice t.rgn 0 0 n
      | .harrow _ _, .harrow .write => f.tap t.slice t.rgn 0 0 n
      | _, _ => f
    some (f.put { t with todo := rest, wd := t.data, wbe := t.be, wpo := t.pois, wend := false })
  | .poisonGot =>
    match t.got with
    | none => none
    | some (d, _, b) =>
      some (f.put { t with todo := rest, wd := d, wbe := allEn, wpo := true, wend := false,
                           got := some (d, true, b), servePois := true })
  | .takeData d p =>
    some (f.put { t with todo := rest, wd := d, wbe := allEn, wpo := p, wend := false,
                         got := some (d, p, false) })
  | .log => stepLog f t rest
  | .logData => if t.wbe = 0 then go f else stepLog f t rest
  | .logWrite =>
    stepGate f t rest (fun _ => [{ TRec.mk0 6 t.slice t.la t.tenant with data := t.got.map (fun g => (g.1, g.2.1)) }])
  | .rewrite d =>
    let (v, dirty, _) := f.cache.bits t.tagr (subOf t.la)
    let f := { f with cache := f.cache.setBitsOf t.tagr (subOf t.la) v dirty true }
    let f := f.pushH { MemReq.wr (lineWord cfg t.tagr (subOf t.la)) d allEn true .none with acc := true }
    go f.countPoisoned
  | .mend word d => go (f.pushH { MemReq.wr word d allEn false .none with acc := true, cls := 3 })
  | .dataHome => go (f.sendData t .dataHome .i)
  | .compData st =>
    some ((f.sendData t .compData st).put { t with todo := rest, grant := st, ackDue := st ≠ .i || t.ackDue })
  | .comp st r =>
    some ((f.sendComp t st r).put { t with todo := rest, grant := st, result := r,
                                           ackDue := st ≠ .i || t.ackDue })
  | .regrant st =>
    let a := t.agent.getD 0
    let others := (f.gran.holders t.la).filter (fun h => h.1 ≠ a)
    let g := match st with
      | some g => g
      | none => if t.op = .req .rdShared && others ≠ [] then .s else .e
    some (f.put { t with fwd := false, ackDue := false, grant := g,
                         todo := .record g :: readP ++ [.log, .compData g, .ack] ++ rest })
  | .ack => if t.ackIn then go f else none
  | .walkRemove =>
    match t.who with
    | .walk _ loc =>
      match Tab.find f.gran.entries loc with
      | some e => if e.la ≠ t.la then go f else some (f.put { t with todo := departP loc e.st ++ rest })
      | none => go f
    | _ => go f
  | .unlink loc =>
    match Tab.find f.gran.entries loc with
    | some e =>
      if e.la = t.la && f.gran.walking (locSlot loc) then
        go ({ f with gran := f.gran.remove loc }.removalRec t.slice t.la t.tenant (locSlot loc))
      else go f
    | none => go f
  | .held => none
  | .evict => stepEvict f t rest
  | .hline => stepHline cfg f t rest
  | .gline =>
    if (f.cache.bits t.tagr (subOf t.la)).1 then
      some (f.put { t with todo := .fetch :: .data :: rest })
    else go f
  | .vread => go f
  | .vwrite =>
    match t.got with
    | none => none
    | some (d, p, _) =>
      some (f.put { t with wd := d, wbe := allEn, wpo := p, wend := false,
                           todo := .mapq :: .bwrite false :: rest })
  | .clearSub => go { f with cache := f.cache.setBitsOf t.tagr (subOf t.la) false false false }
  | .cleanSub =>
    let (v, _, p) := f.cache.bits t.tagr (subOf t.la)
    go { f with cache := f.cache.setBitsOf t.tagr (subOf t.la) v false p }

/-! ## Ends and settling -/

/-- What a Harrow line's slice answers (R247). -/
def Txn.answer (f : Fabric) (t : Txn) (ticket k : Nat) : HAns :=
  let (d, p) := match t.got with | some (d, p, _) => (d, p) | none => (0, false)
  let wrote := match t.op with
    | .harrow (.clean _) | .harrow .inval | .harrow .flush => t.wend || decide (t.value = 1)
    | _ => false
  let lk := if f.cache.lockedWay t.tagr then
      match t.tagr with
      | .sector k => some k
      | .cober k => some (2 ^ 40 + k)
      | _ => none
    else none
  { ticket := ticket, k := k, data := d, pois := p || t.servePois, wrote := wrote, locked := lk, lockRes := t.value,
    transient := t.retried, fail := t.result = .fail, value := t.value }

/-- A tracker whose program has ended is freed: its blocked flag clears, its CLOSE is logged, the
Harrow has its answer (R109, Table 13.5). -/
def Fabric.finish (f : Fabric) (t : Txn) : Fabric :=
  let f' := (f.drop t).tidyWay t.tagr t.la
  let f' := match t.spec with
    | some (some _) => f'.modStat t.slice (fun x => { x with specDiscard := bvSat x.specDiscard 1 })
    | _ => f'
  let f' := match t.who with
    | .harrow tk k =>
      { f' with hrw := { f'.hrw with answers := f'.hrw.answers ++ [t.answer f tk k] } }
    | _ => f'
  match t.who, t.op with
  | .agent a _, .req o =>
    let f' := f'.logFree { TRec.mk0 4 t.slice t.la t.tenant with
      agent := a, rseq := reqRseq o t.hdr,
      txn := some ⟨t.htag, o.code, t.grant, t.result, false, t.value⟩ }
    let key := dedupKey a (reqRseq o t.hdr)
    match Tab.find f'.twin.dedup key with
    | some e =>
      let e := { e with opn := false, live := false }
      { f' with twin := { f'.twin with dedup := Tab.set f'.twin.dedup key e } }
    | none => f'
  | _, _ => f'

/-- One step of a tracker's side program: a record, or the tag lookup of a request whose data comes
from an owner (R163, R193). -/
def sideStep (cfg : Cfg) (f : Fabric) (t : Txn) : Option Fabric :=
  match t.side with
  | [] => none
  | m :: srest =>
    (stepMicro cfg f t m t.todo).map (fun f' =>
      match f'.txnAt t.slice t.idx with
      | some u =>
        if (m = .tag && u.tagr = .unknown) || u.bankAt ≠ t.bankAt then f' else f'.put { u with side := srest }
      | none => f')

/-- A page fill waits for queue space in the tracker's page: every other request for the page waits (R282). -/
def Fabric.fillAhead (f : Fabric) (t : Txn) : Bool :=
  t.rgn.isSome && f.txns.any (fun u => t.other u && u.rgn.isSome && backPage u.back = backPage t.back &&
    u.todo.any (fun m => match m with | .fillWait _ => true | _ => false))

/-- One step of one tracker: its main program first, then its side program. -/
def advance (cfg : Cfg) (f : Fabric) (t : Txn) : Option Fabric :=
  if f.fillAhead t then none
  else match t.todo with
  | m :: rest =>
    match stepMicro cfg f t m rest with
    | some f' => some f'
    | none => sideStep cfg f t
  | [] =>
    if t.side.any (fun m => match m with | .record _ => true | _ => false) then sideStep cfg f t
    else some (f.finish t)

/-- The first tracker that can proceed proceeds. -/
def firstStep (cfg : Cfg) (f : Fabric) : List Txn → Option Fabric
  | [] => none
  | t :: ts =>
    match advance cfg f t with
    | some f' => some f'
    | none => firstStep cfg f ts

/-- Run trackers until every one waits. -/
def settleN (cfg : Cfg) : Nat → Fabric → Fabric
  | 0, f => f
  | n + 1, f =>
    match firstStep cfg f f.txns with
    | some f' => settleN cfg n f'
    | none => f

/-- Run every tracker as far as it goes. -/
def Fabric.settle (cfg : Cfg) (f : Fabric) : Fabric := settleN cfg 100000 f

end Sys2Proof.Machine
end

