-- ==== Sys2Proof/Machine/HomeEvents.lean ====
section
/-! DEFINITION. What reaches a home slice: acceptance by the arbiter, snoop answers, CompAck,
timers, agent death and departure (chapters 4, 5 and 7). -/
namespace Sys2Proof.Machine

/-! ## Acceptance (R111) -/

/-- The reports to PFU 0 for record entries that resolve (R205). -/
def Pfu.resolve (p : Pfu) (rs : List PfRec) (used : Bool) : List (Nat × Bool) :=
  (rs.filter (fun r => r.shadow == p.mode.toNat.testBit r.agent)).map (fun r => (r.agent, used))

/-- A demand read is accepted for a recorded line: the entries are used (R204); the flag says that
a prefetch filled the line. -/
def Fabric.recordUsed (f : Fabric) (s : Nat) (la : LAddr) : Fabric × Bool :=
  let mine := f.pfu.record.filter (fun r => r.la = la)
  if mine = [] then (f, false)
  else
    let real := mine.any (fun r => ¬ r.shadow)
    let f := { f with pfu := { f.pfu with record := f.pfu.record.filter (fun r => r.la ≠ la),
                                          reports := f.pfu.reports ++ f.pfu.resolve mine true } }
    (if real then f.modStat s (fun x => { x with used := bvSat x.used 1 }) else f, real)

/-- A write, eviction, Harrow or Gleaner request is accepted for a line with a prefetch in flight:
its fill will be discarded (Table 7.1). -/
def Fabric.pfCancel (f : Fabric) (la : LAddr) : Fabric :=
  if f.pfu.queue = [] then f
  else { f with pfu := { f.pfu with
    queue := modAll (fun (p : Pf) => p.la = la && p.issued && ¬ p.promoted)
      (fun p => { p with cancelled := true }) f.pfu.queue } }

/-- The request is a write or an atomic of an agent. -/
def Op.writes : Op → Bool
  | .wrInvFull | .wrPartial | .wrUncached | .stCond | .atomic => true
  | _ => false

/-- Prefetches and the prefetch record meet an accepted request (R203, R204). -/
def Fabric.pfMeet (f : Fabric) (t : Txn) : Fabric × Txn :=
  if t.demandRead then
    let (f, hit) := f.recordUsed t.slice t.la
    (f, { t with pfHit := hit })
  else
    let gone := match t.op with
      | .req o => o.writes || t.isEvict
      | .harrow .inval | .harrow .flush | .harrow (.invalNowb _) | .harrow .reclaim | .harrow .write
      | .harrow (.atomic _) => true
      | _ => false
    let meets := gone || (match t.op with | .harrow _ | .correct => true | _ => false)
    let f := if meets then f.pfCancel t.la else f
    (if gone then f.recordUnused t.la else f, t)

/-- Reservations at acceptance: a LdResv sets one, a StCond takes its agent's, a write ends those of
the other agents (R233 to R235, Table 8.6). -/
def Fabric.resvMeet (f : Fabric) (t : Txn) : Fabric × Txn :=
  match t.who, t.op with
  | .agent a _, .req .ldResv => (f.setResv a t.la (some (t.la, t.seq)), t)
  | .agent a _, .req .stCond =>
    let v := match f.resvOf a t.la with
      | some (l, k) => if l = t.la then k else 0
      | none => 0
    (f.setResv a t.la none, { t with value := v })
  | .agent a _, .req .wrInvFull => (f.loseResv t.la (some a) t.seq, t)
  | .agent a _, .req .wrPartial | .agent a _, .req .wrUncached =>
    (if t.be = 0 then f else f.loseResv t.la (some a) t.seq, t)
  | _, .harrow .write | _, .harrow (.invalNowb _) | _, .harrow .reclaim => (f.loseResv t.la none t.seq, t)
  | _, _ => (f, t)

/-- The arbiter accepts a message: a tracker is allocated, and everything happens that the slice
cycle of acceptance brings; none where no tracker is free. -/
def Fabric.acceptArr (cfg : Cfg) (f : Fabric) (s : Nat) (a : Arr) : Option Fabric :=
  match f.freeTracker s with
  | none => none
  | some i =>
    let t := a.toTxn cfg s i f.nextSeq
    let f := { f with nextSeq := f.nextSeq + 1 }
    let t := if t.isEvict then
        { t with todo := [if f.snoopOut (t.agent.getD 0) t.la then .held else .evict] }
      else t
    let (f, t) := f.pfMeet t
    let (f, t) := f.resvMeet t
    let f := match t.who with
      | .agent ag (some id) => f.modOrd ag (fun o => { o with tokens := o.tokens ++ [id] })
      | _ => f
    let f := if f.twin.pair = .failover || f.twin.pair = .survivor then f.dedupWrite t true true else f
    some { f with txns := f.txns ++ [t] }

/-- Rank of a message at a slice arbiter in a cycle with priority pointer `p` (R111). -/
def Arr.rank (p : Nat) (a : Arr) : Nat :=
  a.cls * 32 + (if a.cls ≤ 1 then (a.port + 16 - p) % 16 * 2 + a.half else 0)

/-- Ranked before another: what has waited longer goes first, then R111. -/
def Arr.before (p : Nat) (x y : Arr) : Bool :=
  decide (y.cyc < x.cyc) || (x.cyc == y.cyc && decide (x.rank p < y.rank p))

/-- Insert into a ranked list, behind its equals. -/
def insertArr (p : Nat) (a : Arr) : List Arr → List Arr
  | [] => [a]
  | b :: bs => if a.before p b then a :: b :: bs else b :: insertArr p a bs

/-- Rank a list of messages. -/
def rankArr (p : Nat) (l : List Arr) : List Arr := l.foldl (fun acc a => insertArr p a acc) []

/-- The ordering unit that released a message, where one did (R213, R220): one in each port. -/
def Fabric.arrUnit (f : Fabric) (a : Arr) : Option Nat :=
  match a.who, a.op with
  | .agent ag _, .req o => if o.isLine && f.caching ag then none else some (ag / 2)
  | .agent ag _, .resvClear => some (ag / 2)
  | _, _ => none

/-- What can be delivered in a slice cycle: of each ordering unit the message it released first (R220); the
others stay behind, in their order. -/
def Fabric.arrHeads (f : Fabric) : List Nat → List Arr → List Arr × List Arr
  | _, [] => ([], [])
  | units, a :: rest =>
    match f.arrUnit a with
    | some u =>
      let (h, b) := f.arrHeads (u :: units) rest
      if units.contains u then (h, a :: b) else (a :: h, b)
    | none =>
      let (h, b) := f.arrHeads units rest
      (a :: h, b)

/-- A reservation clear reaches a slice: the agent's entry there goes, and a ResvClear has its Comp (R232,
R234). -/
def Fabric.clearMark (f : Fabric) (a : Arr) : Fabric :=
  match a.who with
  | .agent ag _ =>
    let f := f.setResv ag a.la none
    a.txids.foldl (fun f x => (f.send ag (mkComp x 0 .i false .ok 0)).endLive ag x) f
  | _ => f

/-- Accept up to two messages of a ranked list (R111); markers take no tracker. -/
def arbGo (cfg : Cfg) (s : Nat) : List Arr → Nat → Fabric → Fabric × List Arr × Nat
  | [], n, f => (f, [], n)
  | a :: rest, n, f =>
    if a.op = .resvClear then arbGo cfg s rest n (f.clearMark a)
    else
      let r := if 2 ≤ n then none else f.acceptArr cfg s a
      match r with
      | none =>
        let (f, left, m) := arbGo cfg s rest n f
        (f, { a with cyc := a.cyc + 1 } :: left, m)
      | some f' => arbGo cfg s rest (n + 1) f'

/-- An unaligned write places the next `n` of its further parts in the DDR5 queue; the last one's acceptance is
its end point (R228). -/
def Fabric.placeParts (f : Fabric) (t : Txn) (n : Nat) : Fabric :=
  match t.todo with
  | .parts l :: rest =>
    let f := (l.take n).foldl (fun f p =>
      f.pushD (MemReq.wr t.back t.wd (t.wbe &&& spanEn p.1 p.2) t.wpo
        (if some p = l.getLast? then .txn t.slice t.idx else .none))) f
    f.put { t with todo := if l.length ≤ n then rest else .parts (l.drop n) :: rest }
  | _ => f

/-- The trackers of a slice that are placing parts. -/
def Fabric.placers (f : Fabric) (s : Nat) : List Txn := f.txns.filter (fun t => t.slice = s && t.placing)

/-- Trackers place the next `n` of their parts. -/
def Fabric.placeAll (f : Fabric) (l : List Txn) (n : Nat) : Fabric :=
  l.foldl (fun f t => match f.txnAt t.slice t.idx with | some t => f.placeParts t n | none => f) f

/-! ## Prefetch issue (R202) -/

/-- Prefetch data is in hand (Table 7.1, R204): it goes to the read that took it over, fills its line, or is
discarded and counted. -/
def Fabric.prefetchFill (cfg : Cfg) (f : Fabric) (la : LAddr) (data : Line) (pois : Bool) : Fabric :=
  match f.pfu.queue.find? (fun p => p.la = la && p.issued) with
  | none => f
  | some p =>
    let f := { f with pfu := { f.pfu with
      queue := dropFirst (fun (x : Pf) => x.la = la && x.issued) f.pfu.queue } }
    let (line, key) := p.key.getD (false, 0)
    let r : TagRes := if line then .cober key else .sector key
    if p.promoted then
      match f.txns.find? (fun t => t.la = la && t.spec = some none) with
      | some t => f.put { t with spec := some (some (data, pois)) }
      | none => f.tidyWay r la
    else if p.cancelled || pois || f.cache.find cfg line la ≠ r || (f.cache.bits r (subOf la)).1 then
      (f.modStat p.slice (fun x => { x with cancelled := bvSat x.cancelled 1 })).tidyWay r la
    else
      let f := { f with cache := f.cache.setBitsOf r (subOf la) true false false }
      let f := f.pushH { MemReq.wr (lineWord cfg r (subOf la)) data allEn false .none with acc := true }
      f.recordAdd { slice := p.slice, la := la, agent := p.agent, shadow := false }

/-- The page of an issued prefetch is known to its slice: at a marked page the zeros of R281 are its data and no
DDR5 access is made, at a lost map word its data is poisoned (R284), else its backing read issues in class 2,
or in class 0 where a demand read has taken it over (Table 10.3). -/
def Fabric.pfRead (cfg : Cfg) (f : Fabric) (s : Nat) (la : LAddr) (line : Nat) : Fabric :=
  let page := backPage line
  if f.mem.mapLost page then f.prefetchFill cfg la 0 true
  else if f.mem.marked page then
    (f.modStat s (fun x => { x with zeroReads := bvSat x.zeroReads 1 })).prefetchFill cfg la 0 false
  else
    let cls := if f.pfu.queue.any (fun p => p.la = la && p.issued && p.promoted) then 0 else 2
    f.pushD (MemReq.read line cls (.prefetch s la))

/-- Issue one queued prefetch (R202, R210): allocate its sector or line, count it, consult the zero-map and
start its backing read; a prefetch that cannot allocate at once is dropped and counted. -/
def Fabric.issuePf (cfg : Cfg) (f : Fabric) (p : Pf) : Fabric :=
  let s := p.slice
  let unq := fun (f : Fabric) =>
    { f with pfu := { f.pfu with queue := dropFirst (fun (x : Pf) => x.la = p.la && ¬ x.issued) f.pfu.queue } }
  let dropIt := fun (f : Fabric) =>
    (unq f).modStat s (fun x => { x with dropped := bvSat x.dropped 1 })
  match cfg.regionOf p.la with
  | none => unq f
  | some r =>
    if ¬ r.typ.cacheable || ¬ cfg.cacheEn s || ¬ f.activeHome p.la then unq f
    else
      let here := f.cache.find cfg r.line p.la
      let stby := match here with
        | .sector k => (match f.cache.sector k with | some x => x.stby | none => false)
        | _ => false
      let (f', key) := match here with
        | .sector k | .cober k => (f, some k)
        | _ => if r.line then f.allocCober cfg s p.la r.tenant
               else f.allocSector cfg s p.la (cfg.wayMask r.part) 3 r.tenant
      match key with
      | none => dropIt f'
      | some k =>
        let res : TagRes := if r.line then .cober k else .sector k
        if stby || (f'.cache.bits res (subOf p.la)).1 then unq f'
        else
          let line := r.backLine p.la
          let w := mapWord (backPage line)
          let known := f'.mem.mapLost (backPage line) || f'.mem.summaryClear s w || f'.mem.mapCached s w
          let f := f'.modStat s (fun x => { x with issued := bvSat x.issued 1 })
          let q := modFirst (fun (x : Pf) => x.la = p.la && ¬ x.issued)
            (fun x => { x with issued := true, key := some (r.line, k), mapAsked := ! known }) f.pfu.queue
          let f := { f with pfu := { f.pfu with queue := q } }
          if ¬ known then f.pushH (MemReq.read (mapPrimary w) 0 (.pmap s p.la))
          else
            let f := if f.mem.mapCached s w then { f with mem := f.mem.mapTouch s w } else f
            f.pfRead cfg s p.la line

/-- The oldest queued prefetch of a slice may issue now: its DDR5 queue is no fuller than
DDR_LIMIT. -/
def Fabric.pfReady (cfg : Cfg) (f : Fabric) (p : Pf) : Bool :=
  ¬ f.pfu.throttled && match cfg.regionOf p.la with
  | none => true
  | some r =>
    decide ((f.mem.dq.filter (fun q => ddrChan q.word = ddrChan (r.backLine p.la))).length ≤ cfg.ddrLimit)

/-- Use up to `n` spare tag lookups of a slice for prefetches, oldest first. -/
def issuePfs (cfg : Cfg) (s : Nat) : Nat → Fabric → Fabric
  | 0, f => f
  | n + 1, f =>
    match f.pfu.queue.find? (fun p => p.slice = s && ¬ p.issued) with
    | none => f
    | some p => if f.pfReady cfg p then issuePfs cfg s n (f.issuePf cfg p) else f

/-- One slice cycle of the arbiter of slice `s`, after `idle` cycles without arrivals, whose lookups are spare for
prefetches (R202).  `corr` are
the Granary entry words whose single-bit errors the lookups corrected (R149). -/
def Fabric.arbitrate (cfg : Cfg) (f : Fabric) (s idle : Nat) (corr : List Nat) : Fabric :=
  let f := corr.foldl (fun f loc =>
    { f with gran := f.gran.modBank (locBank loc) (fun b => { b with corr := bvSat b.corr 1 }) }) f
  let f := issuePfs cfg s (min f.pfu.queue.length (2 * idle)) f
  let f := (f.placeAll (f.placers s) idle).settle cfg
  let parts := f.placers s
  let p := (vget f.prio 0 s + idle) % 16
  let (heads, behind) := f.arrHeads [] (f.arr.filter (fun a => sliceOf a.la = s))
  let used := if ¬ f.slow then 0 else if p % 2 = 0 then 1 else 2
  let (f, left, n) := arbGo cfg s (rankArr p heads) used f
  let f := { f with arr := f.arr.filter (fun a => sliceOf a.la ≠ s) ++ left ++ behind,
                    prio := vset f.prio s ((p + 1) % 16) }
  let spare := min f.pfu.queue.length (2 - (n - used))
  (((issuePfs cfg s spare f).settle cfg).placeAll parts 1).settle cfg

/-- One slice cycle of every slice at which a message waits. -/
def Fabric.arbAll (cfg : Cfg) (f : Fabric) : Fabric :=
  (List.range 8).foldl (fun f s =>
    if f.arr.any (fun a => sliceOf a.la = s) then f.arbitrate cfg s 0 [] else f) f

/-- A home line request reaches an arbiter: Harrow, walk and reclaim in class 2, Gleaner in
class 3. -/
def lineArr (cls : Nat) (who : Who) (op : TOp) (la : LAddr) : Arr :=
  { cyc := 0, cls := cls, port := 0, half := 0, who := who, op := op, hdr := 0, la := la, data := 0,
    be := 0, pois := false, opnd := 0, txids := [] }

/-! ## Snoop answers (R91, R119, R124 to R126) -/

/-- Release the held evictions of an agent for a line that no snoop covers any longer (R112). -/
def Fabric.releaseHeld (f : Fabric) (a : Nat) (la : LAddr) : Fabric :=
  if f.snoopOut a la then f
  else
    let tx := modAll (fun (t : Txn) => t.isEvict && t.agent = some a && t.la = la && t.todo = [.held])
      (fun t => { t with todo := [.evict] }) f.txns
    { f with txns := tx }

/-- Change the outstanding snoop of a tracker to an agent. -/
def Txn.modSnoop (t : Txn) (a : Nat) (g : Snoop → Snoop) : Txn :=
  let sn := modFirst (fun (x : Snoop) => x.agent = a && ¬ x.done) g t.snoops
  { t with snoops := sn }

/-- A WbDirty or WbOwned of an agent that is held for a line. -/
def Fabric.heldWb (f : Fabric) (a : Nat) (la : LAddr) : Option Txn :=
  f.txns.find? (fun t => (t.op = .req .wbDirty || t.op = .req .wbOwned) && t.agent = some a &&
    t.la = la && t.todo = [.held])

/-- The program that serves a requester whose forward was not served by the owner: the waits for
other answers stay, everything else is replaced. -/
def regrantP (pre_ : List Micro) (st : Option LSt) : List Micro :=
  pre_ ++ [.snoops, .regrant st]

/-- The snoop was a forward. -/
def Snoop.isFwd (s : Snoop) : Bool := s.op = .snpFwdShared || s.op = .snpFwdOwn

/-- The record of a snoop response that changes the Granary (Table 13.5, RESP). -/
def Fabric.respRec (f : Fabric) (t : Txn) (a : Nat) (st : LSt) (loc : Option Nat) : Fabric :=
  let slot := f.gran.slotOf a
  let g : Gch := match st, slot, loc with
    | .i, _, _ => { Gch.none with remove := slotBit slot }
    | .s, _, _ => { Gch.none with toS := slotBit slot }
    | st', some k, some l => { Gch.none with write := some (k, st', locSet l, locWay l) }
    | _, _, _ => Gch.none
  f.logFree { TRec.mk0 3 t.slice t.la t.tenant with gch := some g }

/-- Act on a complete answer by Table 4.5.  `kind` is the response acted on; `silent` an answer that
an agent's death stands in for. -/
def Fabric.applyAnswer (f : Fabric) (t : Txn) (s : Snoop) (kind : Op) (kept : LSt)
    (d : Option (Line × Bool)) : Fabric :=
  let a := s.agent
  let t := t.modSnoop a (fun x => { x with done := true })
  let rec_ : Option LSt := (f.gran.recordOf a t.la).map (fun p => p.1)
  let loc : Option Nat := (f.gran.recordOf a t.la).map (fun p => p.2)
  let f := match kind with
    | .rspI => f.respRec t a .i loc
    | .rspS => f.respRec t a .s loc
    | .rspFwd => f.respRec t a kept loc
    | _ => f
  match kind with
  | .rspI =>
    let f := { f with gran := f.gran.removeAgent a t.la }
    match rec_ with
    | some .o | some .m =>
      if s.op = .snpInv then f.put t
      else
        let f := f.cohFault t.slice
        if s.isFwd && ¬ t.ackIn then
          f.put { t with servePois := true, todo := regrantP poisonP (some t.grant) }
        else f.put { t with servePois := true, todo := poisonThen t.todo }
    | _ =>
      if s.isFwd && ¬ t.ackIn then f.put { t with todo := regrantP [] none } else f.put t
  | .rspS => { f with gran := f.gran.setAgent a t.la .s }.put t
  | .rspFwd =>
    let f := { f with gran := f.gran.setAgent a t.la kept }
    match d with
    | some (l, p) => f.put { t with todo := ownerP l p t.todo }
    | none => f.put t
  | _ =>
    match f.heldWb a t.la with
    | some w =>
      let t := { t with got := some (w.data, w.pois, false) }
      if s.isFwd && ¬ t.ackIn then f.put { t with todo := regrantP [] none } else f.put t
    | none => f.put t

/-- The answer to a snoop is complete: the response, with the message it requires (R126). -/
def Snoop.complete (s : Snoop) (wb : Bool) : Bool :=
  match s.resp with
  | none => false
  | some (o, _, mis) =>
    if mis then true
    else match o with
      | .rspFwd => s.isFwd || s.dataIn.isSome
      | .rspWbCrossed => wb
      | _ => true

/-- Act on a snoop of a tracker when its answer is complete; one completed after the first expiry
counts a transient timeout. -/
def Fabric.tryAnswer (cfg : Cfg) (f : Fabric) (slice idx a : Nat) : Fabric :=
  match f.txnAt slice idx with
  | none => f
  | some t =>
    match t.snoops.find? (fun s => s.agent = a && ¬ s.done) with
    | none => f
    | some s =>
      if ¬ s.complete (f.heldWb a t.la).isSome then f
      else
        let f := if s.att then f.snpTransient t.slice else f
        let (o, kept, mis) := s.resp.getD (.rspI, 0, false)
        let o := if mis && o ≠ .rspWbCrossed then Op.rspI else o
        let f := f.applyAnswer t s o ((LSt.ofCode kept).getD .i)
          (if s.isFwd then none else s.dataIn)
        (f.releaseHeld a t.la).settle cfg

/-- The KEPT values that a response to a snoop may carry (R89, Table 3.7, Table 4.6). -/
def keptOk (snp rsp : Op) (kept : Nat) : Bool :=
  match rsp with
  | .rspI | .rspWbCrossed => kept = 0
  | .rspS => snp = .snpShared && kept = 1
  | .rspFwd =>
    match snp with
    | .snpShared => kept = 1
    | .snpOwn | .snpFwdOwn => kept = 0
    | .snpFwdShared => kept = 1 || kept = 3
    | _ => false
  | _ => false

/-- A snoop response arrives from agent `a` (R91, R104, R119, R125, R144). -/
def Fabric.snoopResp (cfg : Cfg) (f : Fabric) (a : Nat) (o : Op) (h : Slot) : Fabric :=
  match f.txns.find? (fun t => t.htag = hHtag h) with
  | none => f.protoErr a o.code 5
  | some t =>
    match t.snoops.find? (fun s => s.agent = a && ¬ s.done) with
    | none => if t.snoops.any (fun s => s.agent = a && s.att) then f else f.protoErr a o.code 5
    | some s =>
      if s.resp.isSome then (if s.att then f else f.protoErr a o.code 5)
      else
        let wb := (f.heldWb a t.la).isSome
        let cross := wb && o ≠ .rspWbCrossed
        if ¬ cross && ¬ keptOk s.op o (rsKept h) then f.protoErr a o.code 6
        else
          let f := if cross then f.protoErr a o.code 6 else f
          let f := if rsLocmis h && f.twin.pair ≠ .survivor && t.op ≠ .reconcile then
              match f.gran.slotOf a with
              | some k => f.mismatch (locNum k s.cset s.cway) 0
              | none => f
            else f
          let r := if cross then (Op.rspWbCrossed, 0, false)
            else if rsLocmis h then (.rspI, 0, true) else (o, rsKept h, false)
          let t' := t.modSnoop a (fun x => { x with resp := some r })
          (f.put t').tryAnswer cfg t.slice t.idx a

/-- Data from an owner for the home (R97, R119): it completes the RspFwd that it goes with.
DESIGN CHOICE (log entry 95): a DataFwd whose HTAG names no tracker that awaits data from this agent is
counted and captured like an unexpected response, FIRST_WHY 0101b, with source 2n + 1. -/
def Fabric.dataToHome (cfg : Cfg) (f : Fabric) (a : Nat) (h : Slot) (d : Line) : Fabric :=
  match f.txns.find? (fun t => t.htag = hHtag h) with
  | none => f.protoErr a Op.dataFwd.code 5
  | some t =>
    match t.snoops.find? (fun s => s.agent = a && ¬ s.done && (s.op = .snpShared || s.op = .snpOwn)) with
    | none =>
      if t.snoops.any (fun s => s.agent = a && s.att) then f else f.protoErr a Op.dataFwd.code 5
    | some s =>
      if s.dataIn.isSome then f
      else
        let t' := t.modSnoop a (fun x => { x with dataIn := some (d, dtPoison h) })
        (f.put t').tryAnswer cfg t.slice t.idx a

/-- An eviction that has just been accepted may be the writeback that a crossing waits for
(R124). -/
def Fabric.crossings (cfg : Cfg) (f : Fabric) (a : Nat) (la : LAddr) : Fabric :=
  match f.txns.find? (fun t => t.la = la && t.snoops.any (fun s => s.agent = a && ¬ s.done && s.resp.isSome)) with
  | some t => f.tryAnswer cfg t.slice t.idx a
  | none => f

/-- A CompAck reaches a home tracker (R109, R113). -/
def Fabric.compAck (cfg : Cfg) (f : Fabric) (a : Nat) (h : Slot) : Fabric :=
  match f.txns.find? (fun t => t.htag = hHtag h && t.agent = some a && t.ackDue && ¬ t.ackIn) with
  | none => f.protoErr a Op.compAck.code 5
  | some t =>
    let f := f.endLive a (hTxid h)
    let f := f.put { t with ackIn := true }
    let f := if t.grant = .e || t.grant = .m then f.startHold cfg t.slice t.la a else f
    f.settle cfg

/-! ## Departure of agents (R127, R128, R145, R209, R238) -/

/-- The steps of a program that store owner data or poison in the home copy, or remove a departed entry: what is
left of them is finished before a request is discarded. -/
def cohPart (l : List Micro) : List Micro :=
  let ends := fun (m : Micro) => match m with
    | .store .coh | .bwrite true | .fillWait true | .unlink _ => true
    | _ => false
  (l.reverse.dropWhile (fun m => ! ends m)).reverse

/-- A request of the departing agent that has not been granted is discarded (Table 4.9 step 3); answers to its
snoops are still awaited, and owner data that came for it is still stored.  A write whose bytes are being
stored runs to its end without a Comp, as does what the ordering unit released (Table 8.7).
DESIGN CHOICE (log entry 96): the copies that its invalidations removed are not restored, and the home copy
is not poisoned for them. -/
def Fabric.discard (f : Fabric) (t : Txn) : Fabric :=
  let acks := t.ackDue || t.fwd && t.snoops ≠ []
  let ordEntry := match t.who with | .agent _ o => o.isSome | _ => false
  if acks then f.put { t with ackIn := true, dead := true }
  else if ordEntry then f.put { t with dead := true }
  else
    let storing := match t.op with
      | .req o => o.writes && t.wbe ≠ 0 && ¬ t.todo.any (fun m => match m with | .loadReq | .look | .line => true | _ => false)
      | _ => false
    if storing then f.put { t with dead := true }
    else
      let wait : List Micro := if t.snoops.all (·.done) then [] else [.snoops]
      f.put { t with dead := true, side := [], todo := cohPart t.todo ++ wait }

/-- A snoop outstanding to a departing agent counts as timed out twice: R128 decides; the removal of its entry
is told to the partner (R148). -/
def Fabric.deadSnoop (f : Fabric) (t : Txn) (s : Snoop) : Fabric :=
  let a := s.agent
  if (f.heldWb a t.la).isSome then f.applyAnswer t s .rspWbCrossed .i none
  else
    let t := t.modSnoop a (fun x => { x with done := true })
    let st : Option LSt := (f.gran.recordOf a t.la).map (fun p => p.1)
    let f := match f.gran.recordOf a t.la with
      | some (_, loc) => { f with gran := f.gran.remove loc }.removalRec t.slice t.la t.tenant (locSlot loc)
      | none => f
    match st with
    | some .e =>
      if ¬ s.isFwd then f.put t
      else if ¬ t.ackIn then
        f.put { t with servePois := true, todo := regrantP poisonP (some t.grant) }
      else if s.op = .snpFwdOwn then f.put t
      else f.put { t with todo := poisonThen t.todo }
    | some .o | some .m =>
      if s.isFwd && t.ackIn then
        if s.op = .snpFwdOwn then f.put t else f.put { t with todo := poisonThen t.todo }
      else if s.isFwd then
        f.put { t with servePois := true, todo := regrantP poisonP (some t.grant) }
      else f.put { t with servePois := true, todo := poisonThen t.todo }
    | _ => if s.isFwd && ¬ t.ackIn then f.put { t with todo := regrantP [] none } else f.put t

/-- Steps 3 and 4 of Table 4.9 for agent `d`. -/
def Fabric.settleAgent (f : Fabric) (d : Nat) : Fabric :=
  let mine := f.txns.filter (fun t => t.agent = some d && ¬ t.isEvict)
  let f := mine.foldl (fun f t =>
    match f.txnAt t.slice t.idx with | some t => f.discard t | none => f) f
  let hit := f.txns.filter (fun t => t.snoops.any (fun s => s.agent = d && ¬ s.done))
  let f := hit.foldl (fun f t =>
    match f.txnAt t.slice t.idx with
    | some t =>
      match t.snoops.find? (fun s => s.agent = d && ¬ s.done) with
      | some s => f.deadSnoop t s
      | none => f
    | none => f) f
  { f with
    txns := modAll (fun (t : Txn) => t.isEvict && t.agent = some d && t.todo = [.held])
      (fun t => { t with todo := [.evict], dead := true }) f.txns
    holds := f.holds.filter (fun h => h.agent ≠ d)
    arr := f.arr.filter (fun a => match a.who, a.op with
      | .agent ag none, .req o => ¬ (ag = d && o.cls = clsREQ)
      | .agent ag _, .resvClear => ag ≠ d
      | _, _ => true)
    portHeld := f.portHeld.filter (fun p => p.1 ≠ d) }

/-- The ordering unit of a departing agent (Table 8.7): reads and markers are discarded, buffered
writes go on as orphans; the reservation is lost. -/
def Fabric.orphanUnit (f : Fabric) (d : Nat) : Fabric :=
  let keep := fun (x : OItem) => x.kind = .entry && x.inBuf && x.op ≠ .svcReq &&
    (x.op ≠ .rdUncached || x.released)
  let f := f.modOrd d (fun o =>
    let items := o.items.filter keep
    { o with items := items, orphaning := items ≠ [] || o.short ≠ [], resvAt := none })
  let w := f.hrw.waiting.filter (fun x => x.1 ≠ d)
  let f := f.dropResv d
  { f with hrw := { f.hrw with waiting := w } }

/-- The prefetch unit forgets a departing agent (R209). -/
def Pfu.depart (p : Pfu) (d : Nat) : Pfu :=
  { p with streams := p.streams.filter (fun s => s.agent ≠ d),
           record := p.record.filter (fun r => r.agent ≠ d),
           counts := vset p.counts d (0, 0),
           reports := p.reports.filter (fun r => r.1 ≠ d),
           mode := BitVec.ofNat 32 (putBit p.mode.toNat d false) }

/-- An agent-map change is told to the partner: over the HB class and as a STEW record (R354, Table
13.5). -/
def Fabric.tellMap (f : Fabric) (uid a slot : Nat) (present : Bool) : Fabric :=
  if f.twin.pair = .single then f
  else
    let w := packNat [(0, 64, uid), (64, 5, a), (69, 8, slot), (77, 1, b2n present)]
    (f.sendCtl 6 w).logFree { TRec.mk0 0xA 9 0 0 with agent := a, data := some (BitVec.ofNat 512 w, false) }

/-- The tenure of agent `d` ends (R145, R127 without its count): its work is settled, its ordering
unit orphaned, the walk of its caching slot starts, its event counts are dropped (R488), and the partner
learns of it (R354). -/
def Fabric.depart (cfg : Cfg) (f : Fabric) (d : Nat) : Fabric :=
  let f := f.settleAgent d
  let f := f.orphanUnit d
  let g := match f.gran.slotOf d with
    | some k => { f.gran with slots := vmod f.gran.slots k (fun c =>
        if c.walk.isSome then c else { c with walk := some 0 }) }
    | none => f.gran
  let f := { f with gran := g, pfu := f.pfu.depart d, agentDrops := f.agentDrops ++ [d] }
  let f := match (f.link d).decl with
    | some x => f.tellMap (dclUid x) d ((f.link d).slot.getD 0xFF) false
    | none => f
  let f := f.modLink d (fun l => { l with decl := none, slot := none, live := [], trk := [], txq := [] })
  f.settle cfg

/-- What a link-layer step means for the device: events and departures (R60, R70, R145). -/
def Fabric.linkFx (cfg : Cfg) (f : Fabric) (a : Nat) (fx : List LinkFx) : Fabric :=
  fx.foldl (fun f x =>
    match x with
    | .stateEvent =>
      if a = 32 then (if f.tlink.st = .recovery || f.tlink.st = .fenced then f.raise 33 else f)
      else f.raise (2 * (a / 2))
    | .errEvent => if a = 32 then f else f.raise (2 * (a / 2) + 1)
    | .fenced | .left => if a = 32 then f else if f.admitted a then f.depart cfg a else f
    | _ => f) f

/-- Fence agent `a`'s link with a captured protocol error (R46, R73, R74). -/
def Fabric.fenceLink (cfg : Cfg) (f : Fabric) (a op why : Nat) : Fabric :=
  let (l, fx) := (f.link a).perrFence op why
  (f.setLink a l).linkFx cfg a fx

/-- A slice declares agent `d` dead (R127). -/
def Fabric.declareDead (cfg : Cfg) (f : Fabric) (s d : Nat) : Fabric :=
  let hs := vmod f.homStat s (fun h => { h with dead := bvSat h.dead 1 })
  let f := ({ f with homStat := hs } : Fabric).raise (40 + 3 * s)
  let (l, fx) := (f.link d).fence
  (f.setLink d l).linkFx cfg d fx

/-- A snoop timer expires (R126). -/
def Fabric.snoopTimeout (cfg : Cfg) (f : Fabric) (slice idx a : Nat) : Fabric :=
  match f.txnAt slice idx with
  | none => f
  | some t =>
    match t.snoops.find? (fun s => s.agent = a && ¬ s.done) with
    | none => f
    | some s =>
      if s.att then f.declareDead cfg slice a
      else
        let crit := match t.op with | .req o => reqCrit o t.hdr | _ => 0
        let reqTx := match t.who with | .agent _ _ => t.txids.headD 0 | _ => 0
        let m := mkSnoop s.op reqTx t.htag (if s.isFwd then t.agent.getD 0 else 0) true s.wait crit
          t.tenant t.la s.cset s.cway
        let t' := t.modSnoop a (fun x => { x with att := true })
        (f.put t').send a m

/-- A hold ends (R113). -/
def Fabric.holdExpiry (cfg : Cfg) (f : Fabric) (la : LAddr) (a : Nat) : Fabric :=
  (f.endHold la a).settle cfg

/-- The location that a tracker's record waits for, with the entry that holds it (R141). -/
def Fabric.displacing (f : Fabric) (t : Txn) : Option (Nat × GEntry) :=
  let recs := fun (l : List Micro) => match l with | .record _ :: _ => true | _ => false
  match t.agent with
  | none => none
  | some a =>
    if ¬ (recs t.todo || recs t.side) then none
    else match f.gran.slotOf a with
      | none => none
      | some k =>
        let loc := locNum k (lnCset t.hdr) (lnCway t.hdr)
        match Tab.find f.gran.entries loc with
        | some e => if e.la = t.la then none else some (loc, e)
        | none => none

/-- A displacement wait reaches SNOOP_TIMEOUT (R142): counted, captured, and the home slice of the
other line is asked to reclaim the location. -/
def Fabric.displaceTimeout (f : Fabric) (slice idx : Nat) : Fabric :=
  match f.txnAt slice idx with
  | none => f
  | some t =>
    match f.displacing t with
    | none => f
    | some (loc, e) =>
      let f := f.mismatch loc 2
      { f with arr := f.arr ++ [lineArr 2 (.reclaim (t.agent.getD 0) loc) .reclaim e.la] }

/-- ALLOC_WAIT passes: the waiting request goes on without allocating (R169). -/
def Fabric.allocExpiry (cfg : Cfg) (f : Fabric) (slice idx : Nat) : Fabric :=
  match f.txnAt slice idx with
  | none => f
  | some t =>
    if ¬ t.allocating then f
    else ((f.countNoalloc slice).put { t with allocating := false, noalloc := true }).settle cfg

/-- The departure walk reads its next row in one bank order (R146): every entry of the row gets a
home line request; after the last row the slot is freed once nothing of it is recorded. -/
def Fabric.walkRow (f : Fabric) (k : Nat) : Fabric :=
  match (vget f.gran.slots ⟨none, none⟩ k).walk with
  | none => f
  | some row =>
    let setSlot := fun (f : Fabric) (c : CSlot) =>
      { f with gran := { f.gran with slots := vset f.gran.slots k c } }
    if row < 2 ^ 14 then
      let es := f.gran.entries.filter (fun p => locSlot p.1 = k && locSet p.1 = row)
      let more := es.map (fun p => lineArr 2 (.walk k p.1) .walk p.2.la)
      let nextRow := ((f.gran.entries.filter (fun p => locSlot p.1 = k && row < locSet p.1)).map
        (fun p => locSet p.1)).headD (2 ^ 14)
      setSlot { f with arr := f.arr ++ more } ⟨f.gran.agentOf k, some nextRow⟩
    else if f.gran.count k = 0 && ¬ f.arr.any (fun a => match a.who with | .walk s _ => s = k | _ => false)
        && ¬ f.txns.any (fun t => match t.who with | .walk s _ => s = k | _ => false) then
      setSlot f ⟨none, none⟩
    else f

end Sys2Proof.Machine
end

