-- ==== Sys2Proof/Machine/MemEvents.lean ====
section
/-! DEFINITION. What the memories answer (chapters 6, 7, 10 and 11): reads returned and decoded,
re-reads, lasting faults, tag-lost ways, zero-map words, page fills, accepted writes, refresh, row
closing, prefetch data, the patrol. -/
namespace Sys2Proof.Machine

/-! ## Helpers -/

/-- Change the memories. -/
def Fabric.modMem (f : Fabric) (g : Mem → Mem) : Fabric := { f with mem := g f.mem }

/-- A word decodes without a retry. -/
def Dec.usable (d : Dec) : Bool := d.kind ≠ .uncorrectable && d.kind ≠ .mismatch

/-- The word decodes as poisoned. -/
def Dec.poisoned (d : Dec) : Bool := d.kind = .poisoned || d.kind = .poisonedCorr

/-- Read a word of a memory: the request served, the fabric after it, and the decoding; none where
no such read is due.  A read whose queue entry lost its data carries poison (R318). -/
def Fabric.readReturn (f : Fabric) (ddr : Bool) (word : Nat) (again : Bool) (err : ErrPat) :
    Option (MemReq × Fabric × Dec) :=
  let q := if ddr then f.mem.dq else f.mem.hq
  let t := if ddr then f.mem.ddr else f.mem.hbm
  (takeRead word again q t).map (fun x =>
    let m := if ddr then { f.mem with dq := x.2.2, ddr := x.2.1 }
      else { f.mem with hq := x.2.2, hbm := x.2.1 }
    let m := m.countBytes ddr word false
    let m := (m.touchRow ddr word).makeUp ddr word
    let cw := getWord x.2.1 word
    let d := decodeWord ddr cw.data cw.pm err
    let d := if x.1.pois && d.usable then { d with kind := .poisoned } else d
    (x.1, { f with mem := m }, d))

/-- Read the same word once more, ahead of what the queue holds for it (R301). -/
def Fabric.reread (f : Fabric) (ddr : Bool) (r : MemReq) : Fabric :=
  let r := { r with again := true }
  f.modMem (fun m => if ddr then { m with dq := r :: m.dq } else { m with hq := r :: m.hq })

/-- Write a corrected word back in class `cls`: a whole write in HBM, a merge of no bytes in DDR5 (R313,
Table 10.3). -/
def Fabric.scrub (f : Fabric) (ddr : Bool) (word cls : Nat) (d : Line) : Fabric :=
  if ddr then f.pushD { MemReq.wr word 0 0 false .scrub with cls := cls }
  else f.pushH { MemReq.wr word d allEn false .none with acc := true, cls := cls }

/-- Counts of a usable read: a correction with its table, a transient fault after a re-read
(R301, R312). -/
def Fabric.readCounts (cfg : Cfg) (f : Fabric) (ddr : Bool) (word : Nat) (d : Dec) (again : Bool) :
    Fabric :=
  let f := if d.kind = .correctable then f.correction cfg ddr word d.sym else f
  if again && ¬ d.poisoned then f.transientFault ddr word else f

/-- The KIND of a lasting fault: a mismatch is named first (Table 11.22). -/
def kindOfFault (d : Dec) (k : Nat) : Nat := if d.kind = .mismatch then 2 else k

/-! ## Demand reads -/

/-- The next steps of a tracker merge a partial write into the word being read. -/
def Txn.merging (t : Txn) (ddr : Bool) : Bool :=
  match t.todo with
  | .data :: .merge :: _ => ¬ ddr
  | .data :: .compute :: _ =>
    (t.op = .req .atomic || t.op = .req .stCond || (match t.op with | .harrow (.atomic _) => true | _ => false))
      && (¬ ddr || (match t.tagr with | .sector _ | .cober _ => false | _ => true))
  | _ => false

/-- Data for a tracker. -/
def Fabric.give (f : Fabric) (t : Txn) (d : Line) (p ddr : Bool) : Fabric :=
  f.put { t with got := some (d, p, ddr), asked := false }

/-- A Gleaner line request, with what the patrol found. -/
def Txn.patrol (t : Txn) : Bool := match t.who with | .gleaner _ => true | _ => false

/-- The patrol found a lasting fault at the line's word, and counted it. -/
def Txn.foundLasting (t : Txn) : Bool := match t.who with | .gleaner (some _) => true | _ => false

/-- A lasting fault under a tracker's read of an HBM sub-block or Cober line (Tables 11.3, 11.4 and
11.6).  A victim's data goes on poisoned; nothing is rewritten and nothing counted in POISONED (R555). -/
def Fabric.hbmLasting (f : Fabric) (t : Txn) (word : Nat) (d : Dec) : Fabric :=
  let patrol := t.patrol
  let f := if t.foundLasting then f else f.lastingFault false word d
  let t := { t with tagr := f.cache.wayOf t }
  let sub := subOf t.la
  if t.merging false then
    let f := (f.elogMem false word 3 false false d t.tenant).countPoisoned
    f.give { t with errSeen := true } d.data true false
  else if t.op = .victim then
    (f.elogMem false word (kindOfFault d 1) false false d t.tenant).give t d.data true false
  else
    let (_, dirty, _) := f.cache.bits t.tagr sub
    let stby : Bool := match t.tagr with
      | .sector k => (match f.cache.sector k with | some x => x.stby | none => false)
      | _ => false
    if dirty then
      let f := f.elogMem false word (kindOfFault d (if patrol then 4 else 9)) patrol
        (f.mirrors && ¬ stby) d t.tenant
      let f := if stby && patrol then
          f.sendCtl 9 t.la.toNat
        else f
      let rest := match t.todo with | .data :: r => r | r => r
      let pre_ : List Micro := if stby then [.rewrite d.data] else [.logWrite, .rewrite d.data]
      f.put { t with got := some (d.data, true, false), asked := false, todo := pre_ ++ .data :: rest }
    else
      let f := (f.elogMem false word (kindOfFault d 5) patrol false d t.tenant).countRefetch
      let f := { f with cache := f.cache.setBitsOf t.tagr sub false false false }
      if patrol then f.put { t with asked := false, todo := [] }
      else if ¬ (f.cache.wayOf t).isWay then
        f.put { t with asked := false, tagr := .absent, todo := .alloc false :: .fetch :: t.todo }
      else f.put { t with asked := false, todo := .fetch :: t.todo }

/-- The system line of a backing line: the enabled region that maps its page (R179). -/
def Cfg.lineOfBack (c : Cfg) (line : Nat) : Option LAddr :=
  ((c.rgn.toList.filter (·.en)).find? (fun w =>
    decide ((line / 64 + 2 ^ 31 - bitsOf w.back.toNat 0 31) % 2 ^ 31 ≤ w.limit - w.base))).map (fun w =>
      lineOfPage (w.base + (line / 64 + 2 ^ 31 - bitsOf w.back.toNat 0 31) % 2 ^ 31) (line % 64))

/-- A lasting fault under a read of backing memory (Table 11.3, R315): the controller rewrites the word
poisoned, in the read's place in the order of R192. -/
def Fabric.ddrLasting (cfg : Cfg) (f : Fabric) (t : Option Txn) (word : Nat) (d : Dec) (patrol : Bool) : Fabric :=
  let f := f.lastingFault true word d
  let merge := match t with | some t => t.merging true | none => false
  let kind := if merge then 3 else kindOfFault d (if patrol then 1 else 9)
  let ten := match t with
    | some t => t.tenant
    | none => (((cfg.lineOfBack word).bind cfg.regionOf).map (·.tenant)).getD 0
  let f := (f.elogMem true word kind patrol false d ten).countPoisoned
  f.modMem (fun m => { m with ddr := putWord m.ddr (MemReq.wr word d.data allEn true .none) }.countBytes true word true)

/-- A Gleaner line request whose re-read finds the word good, correctable or poisoned: the word has been
replaced since the patrol found its lasting fault, which is logged with no action (R301, R315). -/
def Fabric.replacedLog (f : Fabric) (t : Txn) (word : Nat) : Fabric :=
  match t.who with
  | .gleaner (some d) => f.elogMem false word (kindOfFault d 1) true false d t.tenant
  | _ => f

/-- The line's copy in the device is dirty, and not a standby copy: the Gleaner's act on it is logged first (R21). -/
def Fabric.dirtyOwn (f : Fabric) (t : Txn) : Bool :=
  let way := f.cache.wayOf t
  let stby : Bool := match way with
    | .sector k => (match f.cache.sector k with | some x => x.stby | none => false)
    | _ => false
  (f.cache.bits way (subOf t.la)).2.1 && ¬ stby

/-- A tracker's read has returned and been decoded.  A correctable word is written back, but not a victim's:
its sector is no longer there (R313); the Gleaner's repair of a dirty sub-block is logged first (R21). -/
def Fabric.txnRead (cfg : Cfg) (f : Fabric) (ddr : Bool) (r : MemReq) (d : Dec) (again : Bool)
    (s i : Nat) : Fabric :=
  match f.txnAt s i with
  | none => if d.usable then f.readCounts cfg ddr r.word d again else f
  | some t =>
    if d.usable then
      let f := (f.readCounts cfg ddr r.word d again).replacedLog t r.word
      let mends := d.kind = .correctable && ¬ ddr && t.patrol
      let f := if d.kind = .correctable && ¬ mends && (ddr || t.op ≠ .victim) then f.scrub ddr r.word 1 d.data else f
      let mend : List Micro :=
        if ¬ mends then [] else if f.dirtyOwn t then [.logWrite, .mend r.word d.data] else [.mend r.word d.data]
      (f.give { t with retried := t.retried || again, todo := mend ++ t.todo } d.data d.poisoned ddr).settle cfg
    else if ¬ again && ¬ t.foundLasting then f.reread ddr r
    else if ddr then
      let f := f.ddrLasting cfg (some t) r.word d false
      (f.give { t with errSeen := t.merging true } d.data true true).settle cfg
    else (f.hbmLasting t r.word d).settle cfg

/-- A speculative backing read has returned (R164, R193): kept by its tracker, or discarded. -/
def Fabric.specRead (cfg : Cfg) (f : Fabric) (r : MemReq) (d : Dec) (again : Bool) (s i : Nat) :
    Fabric :=
  let discard := fun (f : Fabric) =>
    f.modStat s (fun x => { x with specDiscard := bvSat x.specDiscard 1 })
  if ¬ d.usable && ¬ again then f.reread true r
  else
    let t := f.txnAt s i
    let f := if d.usable then
        let f := f.readCounts cfg true r.word d again
        if d.kind = .correctable then f.scrub true r.word 1 d.data else f
      else f.ddrLasting cfg t r.word d false
    match t with
    | some t =>
      if t.spec = some none then
        (f.put { t with spec := some (some (d.data, d.poisoned || ¬ d.usable)) }).settle cfg
      else discard f
    | none => discard f

/-! ## Tag-store words (R163, R316) -/

/-- The set of a tracker's lookup and the way numbers that its tag word `w` holds. -/
def tagWays (cfg : Cfg) (t : Txn) (w : Nat) : List (Nat × Nat) :=
  if t.lineMode then
    let x := cfg.csetx t.la
    let first := (x * cfg.coberWays + 8 * w) / 8 * 8
    (List.range 8).map (fun j =>
      (2 ^ 21 + (first + j) / cfg.coberWays, (first + j) % cfg.coberWays))
  else [(setOf t.la, 2 * w), (setOf t.la, 2 * w + 1)]

/-- The HBM word of a tracker's tag word `w`. -/
def tagWordOf (cfg : Cfg) (t : Txn) (w : Nat) : Nat :=
  if t.lineMode then cfg.coberTagWord (cfg.csetx t.la) (8 * w) else tagWord (setOf t.la) (2 * w)

/-- Words of the lost list of a slice: entries of the list, one per lost tag word (R316). -/
def Fabric.lostWordsOf (cfg : Cfg) (f : Fabric) (s : Nat) : Nat :=
  let sect := (f.cache.lostList.filter (fun p => p.1 < 2 ^ 21 && p.1 / 2 ^ 18 = s)).length
  let cob := (f.cache.lostList.filter (fun p =>
    2 ^ 21 ≤ p.1 && (p.1 - 2 ^ 21) / 2 ^ cfg.coberM = s)).length
  sect / 2 + cob / 8

/-- Ways become tag-lost (R316): source 172; a full lost list makes the store unusable. -/
def Fabric.loseWays (cfg : Cfg) (f : Fabric) (s : Nat) (ways : List (Nat × Nat)) : Fabric :=
  let f := f.raise 172
  if 64 ≤ f.lostWordsOf cfg s then
    { f with gln := { f.gln with storeUnusable := addOnce s f.gln.storeUnusable } }
  else
    let c := ways.foldl (fun (c : Cache) p =>
      if p.1 < 2 ^ 21 then
        let c := match c.tcKey p.1 p.2 with
          | some k => { c with tc := Tab.erase c.tc k }
          | none => c
        { c with sectors := Tab.erase c.sectors (10 * p.1 + p.2),
                 lostList := addOnce p c.lostList }
      else
        { c with cober := Tab.erase c.cober (16 * (p.1 - 2 ^ 21) + p.2),
                 lostList := addOnce p c.lostList }) f.cache
    { f with cache := c, jreq := f.jreq ++ ways.map (fun (p : Nat × Nat) => (0x15, 16 * p.1 + p.2, 0)) }

/-- A lasting fault in a tag word (R316, R554): rewritten from the tag cache in class `cls`, or its ways become
tag-lost. -/
def Fabric.tagFault (cfg : Cfg) (f : Fabric) (s word : Nat) (ways : List (Nat × Nat)) (d : Dec)
    (patrol : Bool) : Fabric :=
  let f := f.lastingFault false word d
  let cached := ways.all (fun p => p.1 < 2 ^ 21 && (f.cache.tcKey p.1 p.2).isSome)
  if cached then
    (f.elogMem false word (kindOfFault d 1) patrol false d 0).pushH
      { MemReq.tagWr word with cls := if patrol then 3 else 1 }
  else
    (f.elogMem false word (kindOfFault d 6) patrol false d 0).loseWays cfg s ways

/-- The first reads of an owner leave the HBM queues, their words read. -/
def Fabric.takeReads (f : Fabric) (who : Owner) : Fabric :=
  let mine := f.mem.hq.filter (fun r => r.who = who && ¬ r.again)
  let f := f.modMem (fun m => { m with hq := m.hq.filter (fun r => ¬ (r.who = who && ¬ r.again)) })
  f.modMem (fun m => mine.foldl (fun (m : Mem) r => (m.countBytes false r.word false).touchRow false r.word) m)

/-- The tag words of a tracker's set have returned; word `w` carries the error pattern (R163). -/
def Fabric.tagReturn (cfg : Cfg) (f : Fabric) (s i w : Nat) (err : ErrPat) : Fabric :=
  let f := f.takeReads (.tags s i)
  match f.txnAt s i with
  | none => f
  | some t =>
    if t.tagStage ≠ 1 then f
    else
      let word := tagWordOf cfg t w
      let d := decodeWord false 0 false err
      if d.usable then
        let f := f.readCounts cfg false word d false
        (f.put { t with tagStage := 2 }).settle cfg
      else if f.mem.hq.any (fun r => r.again && r.word = word && r.who = .tags s i) then f
      else f.reread false (MemReq.read word 0 (.tags s i))

/-- The re-read of a tracker's tag word has returned. -/
def Fabric.tagReread (cfg : Cfg) (f : Fabric) (r : MemReq) (d : Dec) (s i : Nat) : Fabric :=
  match f.txnAt s i with
  | none => f
  | some t =>
    let f := if d.usable then f.readCounts cfg false r.word d true
      else
        let w := ((List.range 8).find? (fun w => tagWordOf cfg t w = r.word)).getD 0
        f.tagFault cfg s r.word (tagWays cfg t w) d false
    (f.put { t with tagStage := 2 }).settle cfg

/-! ## Zero-map words (R280, R284) -/

/-- A map word has been read: a copy found bad before is rewritten with the other (R284); the word is the slice's
most recent, and its summary bit clears when no page of it is marked (R280). -/
def Fabric.mapLearn (f : Fabric) (s w cls : Nat) : Fabric :=
  let f := if f.mem.mapBad.any (fun p => p.1 = w) then
      (f.pushH { MemReq.tagWr (mapPrimary w) with cls := cls }).pushH { MemReq.tagWr (mapMirror w) with cls := cls }
    else f
  f.modMem (fun m =>
    let m := { m with mapBad := m.mapBad.filter (fun p => p.1 ≠ w) }
    let m := if cls = 3 then m else m.mapTouch s w
    if m.wordClear w then { m with sumClear := Tab.set m.sumClear (s * 2 ^ 22 + w) () } else m)

/-- The copy of a map word that is being read: the mirror after the primary failed. -/
def Fabric.mapCopy (f : Fabric) (w : Nat) : Nat :=
  if f.mem.mapBad.contains (w, false) then mapMirror w else mapPrimary w

/-- A prefetch that waits for its page's map word goes on (R280). -/
def Fabric.pfMapped (cfg : Cfg) (f : Fabric) (s : Nat) (la : LAddr) : Fabric :=
  match cfg.regionOf la with
  | none => f
  | some r =>
    let q := modFirst (fun (p : Pf) => p.la = la && p.mapAsked) (fun p => { p with mapAsked := false }) f.pfu.queue
    ({ f with pfu := { f.pfu with queue := q } } : Fabric).pfRead cfg s la (r.backLine la)

/-- Who waits for a map word goes on: a tracker settles, a prefetch reads. -/
def Fabric.mapGo (cfg : Cfg) (f : Fabric) (who : Owner) : Fabric :=
  match who with
  | .pmap s la => (f.pfMapped cfg s la).settle cfg
  | _ => f.settle cfg

/-- The map word that an owner waits for, with its slice and tenant. -/
def Fabric.mapAwaited (cfg : Cfg) (f : Fabric) (who : Owner) : Option (Nat × Nat × Nat) :=
  match who with
  | .map s i =>
    match f.txnAt s i with
    | some t => if t.mapAsked then some (s, mapWord (backPage t.back), t.tenant) else none
    | none => none
  | .pmap s la =>
    if f.pfu.queue.any (fun p => p.la = la && p.mapAsked) then
      (cfg.regionOf la).map (fun r => (s, mapWord (backPage (r.backLine la)), r.tenant))
    else none
  | _ => none

/-- The owner of the map-word read that returns to slice `s` for tracker `i`; 4,096 stands for the slice's
oldest prefetch that waits for one. -/
def Fabric.mapOwner (f : Fabric) (s i : Nat) : Owner :=
  if i < 4096 then .map s i
  else match f.pfu.queue.find? (fun p => p.slice = s && p.mapAsked) with
    | some p => .pmap s p.la
    | none => .map s i

/-- A zero-map word returns from HBM. -/
def Fabric.mapReturn (cfg : Cfg) (f : Fabric) (s i : Nat) (err : ErrPat) : Fabric :=
  let who := f.mapOwner s i
  let f := f.takeReads who
  match f.mapAwaited cfg who with
  | none => f
  | some (s, w, _) =>
    let word := f.mapCopy w
    let d := decodeWord false 0 false err
    if d.usable then ((f.readCounts cfg false word d false).mapLearn s w 1).mapGo cfg who
    else if f.mem.hq.any (fun r => r.again && r.word = word && r.who = who) then f
    else f.reread false (MemReq.read word 0 who)

/-- A map word is uncorrectable in both copies: it is lost (R284). -/
def Fabric.mapLose (f : Fabric) (s w : Nat) : Fabric :=
  if f.mem.lostWords.contains w then f
  else
    let f := f.modMem (fun m => { m with lostWords := addOnce w m.lostWords,
                                         mapBad := m.mapBad.filter (fun p => p.1 ≠ w) })
    let f := f.modStat s (fun x => { x with lost := bvSat x.lost 1, lostSet := true })
    ({ f with jreq := f.jreq ++ [(0x14, w, 0)] } : Fabric).raise 124

/-- The re-read of a map word has returned: a copy that is bad for good leaves the other to be read. -/
def Fabric.mapReread (cfg : Cfg) (f : Fabric) (r : MemReq) (d : Dec) : Fabric :=
  match f.mapAwaited cfg r.who with
  | none => f
  | some (s, w, tenant) =>
    if d.usable then ((f.readCounts cfg false r.word d true).mapLearn s w 1).mapGo cfg r.who
    else
      let f := (f.lastingFault false r.word d).elogMem false r.word (kindOfFault d 1) false false d tenant
      if f.mem.mapBad.contains (w, r.word ≠ mapMirror w) || r.word = mapMirror w then
        (f.mapLose s w).mapGo cfg r.who
      else
        let f := f.modMem (fun m => { m with mapBad := m.mapBad ++ [(w, false)] })
        f.pushH (MemReq.read (mapMirror w) 0 r.who)

/-! ## Prefetch data (R203, R204) -/

/-- A prefetch's backing read has returned: its data goes where Table 7.1 says. -/
def Fabric.prefetchRead (cfg : Cfg) (f : Fabric) (r : MemReq) (d : Dec) (again : Bool) (la : LAddr) :
    Fabric :=
  if d.usable then
    let f := f.readCounts cfg true r.word d again
    let f := if d.kind = .correctable then f.scrub true r.word 1 d.data else f
    (f.prefetchFill cfg la d.data (d.poisoned || f.mem.mapLost (backPage r.word))).settle cfg
  else if ¬ again then f.reread true r
  else ((f.ddrLasting cfg none r.word d false).prefetchFill cfg la d.data true).settle cfg

/-! ## The patrol (R314 to R317) -/

/-- A Gleaner line request for a line reaches its slice's arbiter, with the lasting fault found at its word. -/
def Fabric.gleanerLine (f : Fabric) (la : LAddr) (found : Option Dec) : Fabric :=
  { f with arr := f.arr ++ [lineArr 3 (.gleaner found) .correct la] }

/-- The line held at an HBM word of the sector data or the Cober partition. -/
def Fabric.lineAt (cfg : Cfg) (f : Fabric) (word : Nat) : Option LAddr :=
  let key := word / 64
  match f.cache.sector key with
  | some x => if x.valid.toNat.testBit (word % 64) && word < 0x1400000000 / 64 then
      some (lineOfPage (pageOfTag (key / 10) x.tag.toNat) (word % 64)) else none
  | none =>
    let base := (0x1800000000 - cfg.coberGib * 2 ^ 30) / 64
    if cfg.coberGib ≠ 0 && base ≤ word then
      let n := word - base
      let ck := 16 * (n / cfg.coberWays) + n % cfg.coberWays
      match f.cache.cline ck with
      | some l => if l.v then some (f.cache.coberLine cfg ck) else none
      | none => none
    else none

/-- The ways that an HBM word of the tag store or line-tag area holds. -/
def waysAt (cfg : Cfg) (word : Nat) : List (Nat × Nat) :=
  let t0 := 0x1400000000 / 64
  if t0 ≤ word && word < 0x1428000000 / 64 then
    let e := (word - t0) * 2
    [(e / 10, e % 10), ((e + 1) / 10, (e + 1) % 10)]
  else
    let base := (0x1800000000 - 9 * (cfg.coberGib * 2 ^ 30) / 8) / 64
    if cfg.coberGib ≠ 0 && base ≤ word && word < (0x1800000000 - cfg.coberGib * 2 ^ 30) / 64 then
      (List.range 8).map (fun j =>
        (2 ^ 21 + ((word - base) * 8 + j) / cfg.coberWays, ((word - base) * 8 + j) % cfg.coberWays))
    else []

/-- The map word and copy at an HBM word of the service area: true for the mirror. -/
def mapAt (word : Nat) : Option (Nat × Bool) :=
  let p := 0x1428000000 / 64
  let m := 0x1434000000 / 64
  if p ≤ word && word < p + 12 * 0x40000 then
    some ((word - p) / 0x40000 * 262144 + (word - p) % 0x40000, false)
  else if m ≤ word && word < m + 12 * 0x40000 then
    some ((word - m) / 0x40000 * 262144 + ((word - m) % 0x40000 ^^^ 0x800), true)
  else none

/-- A patrolled map word is bad for good: the other copy is read, or the word is lost where that is bad too
(R284). -/
def Fabric.patrolMap (f : Fabric) (w : Nat) (mirror : Bool) : Fabric :=
  if f.mem.mapBad.contains (w, ¬ mirror) then f.mapLose (w % 8) w
  else if f.mem.lostWords.contains w then f
  else
    let f := f.modMem (fun m => { m with mapBad := addOnce (w, mirror) m.mapBad })
    f.pushH (MemReq.read (if mirror then mapPrimary w else mapMirror w) 3 .patrol)

/-- A patrol read of a usable word (R315): a correctable one is corrected, by a line request where a line holds
it, by a merge in DDR5, in place in a tag or map word; the copy of a map word that is good repairs the other. -/
def Fabric.patrolGood (cfg : Cfg) (f : Fabric) (ddr : Bool) (r : MemReq) (d : Dec) : Fabric :=
  let corr : Bool := d.kind = .correctable
  if ddr then (if corr then f.scrub true r.word 3 d.data else f)
  else match mapAt r.word with
    | some (w, mirror) =>
      if f.mem.mapBad.contains (w, ¬ mirror) then f.mapLearn (w % 8) w 3
      else if corr then f.pushH { MemReq.tagWr r.word with cls := 3 }
      else f
    | none =>
      if ¬ corr then f
      else match f.lineAt cfg r.word with
        | some la => f.gleanerLine la none
        | none => if waysAt cfg r.word = [] then f else f.pushH { MemReq.tagWr r.word with cls := 3 }

/-- A patrol read has been decoded (R315); `again` marks the re-read. -/
def Fabric.patrolRead (cfg : Cfg) (f : Fabric) (ddr : Bool) (r : MemReq) (d : Dec) (again : Bool) :
    Fabric :=
  if d.usable then (f.readCounts cfg ddr r.word d again).patrolGood cfg ddr r d
  else if ¬ again then f.reread ddr r
  else if ddr then f.ddrLasting cfg none r.word d true
  else match f.lineAt cfg r.word with
    | some la => (f.lastingFault false r.word d).gleanerLine la (some d)
    | none =>
      match mapAt r.word, waysAt cfg r.word with
      | some (w, mirror), _ =>
        ((f.lastingFault false r.word d).elogMem false r.word (kindOfFault d 1) true false d 0).patrolMap w mirror
      | none, p :: ps =>
        let s := if p.1 < 2 ^ 21 then p.1 / 2 ^ 18 else (p.1 - 2 ^ 21) / 2 ^ cfg.coberM
        f.tagFault cfg s r.word (p :: ps) d true
      | none, [] => (f.lastingFault false r.word d).elogMem false r.word (kindOfFault d 1) true false d 0

/-- The HBM word at place `p` of slice `s`'s pass, none where the place holds nothing to read; the
order is sets, Cober sets, map words. -/
def Fabric.patrolWord (cfg : Cfg) (f : Fabric) (s p : Nat) : Option Nat :=
  let n1 := 2 ^ 18 * 645
  let per := 2 * cfg.coberWays
  let n2 := if cfg.coberGib = 0 then 0 else 2 ^ cfg.coberM * per
  if p < n1 then
    let set := s * 2 ^ 18 + p / 645
    let j := p % 645
    if j < 5 then some (tagWord set (2 * j))
    else
      let key := 10 * set + (j - 5) / 64
      match f.cache.sector key with
      | some x => if x.valid.toNat.testBit ((j - 5) % 64) then some (key * 64 + (j - 5) % 64) else none
      | none => none
  else if p < n1 + n2 then
    let q := p - n1
    let x := s * 2 ^ cfg.coberM + q / per
    let j := q % per
    if j < cfg.coberWays then
      if j % 8 = 0 then some (cfg.coberTagWord x j) else none
    else match f.cache.cline (16 * x + (j - cfg.coberWays)) with
      | some l => if l.v then some (cfg.coberWord x (j - cfg.coberWays)) else none
      | none => none
  else
    let q := p - n1 - n2
    let w := q / 2 * 8 + s
    if w < 3145728 then some (if q % 2 = 0 then mapPrimary w else mapMirror w) else none

/-- Places of a slice's HBM pass. -/
def patrolPlaces (cfg : Cfg) : Nat :=
  2 ^ 18 * 645 + (if cfg.coberGib = 0 then 0 else 2 ^ cfg.coberM * (2 * cfg.coberWays)) + 2 * 393216

/-- The next place from `p` on, within `n` tries, that holds a word to read. -/
def Fabric.nextPlace (cfg : Cfg) (f : Fabric) (s : Nat) : Nat → Nat → Nat
  | 0, p => p
  | n + 1, p => if (f.patrolWord cfg s p).isSome then p else Fabric.nextPlace cfg f s n (p + 1)

/-- An enabled region maps the backing page. -/
def Cfg.backMapped (c : Cfg) (page : Nat) : Bool :=
  (c.rgn.toList.filter (·.en)).any (fun w =>
    let b := bitsOf w.back.toNat 0 31
    decide ((page + 2 ^ 31 - b) % 2 ^ 31 ≤ w.limit - w.base))

/-- The next unmarked, mapped backing line of a DDR5 channel from line `p` on. -/
def Fabric.nextDdr (cfg : Cfg) (f : Fabric) (ch p : Nat) : Option Nat :=
  if p % 64 ≠ 0 && ¬ f.mem.marked (p / 64) && cfg.backMapped (p / 64) then some p
  else ((f.mem.unmarked.find? (fun x =>
    (p + 63) / 64 ≤ x.1 && ddrChan (x.1 * 64) = ch && cfg.backMapped x.1)).map (fun x => x.1 * 64))

/-- The Gleaner issues its next patrol read in a slice's HBM share or a DDR5 channel; when every
share of a memory has ended, the pass is counted and starts again (R314, R323). -/
def Fabric.patrolIssue (cfg : Cfg) (f : Fabric) (ddr : Bool) (unit : Nat) : Fabric :=
  if ¬ cfg.patrolEn || f.gln.stopped then f
  else if ddr then
    match f.nextDdr cfg unit (vget f.gln.ddrPos 0 unit) with
    | some line =>
      let f := { f with gln := { f.gln with ddrPos := vset f.gln.ddrPos unit (line + 1) } }
      f.pushD (MemReq.read line 3 .patrol)
    | none =>
      let pos := vset f.gln.ddrPos unit (2 ^ 40)
      if (List.range 12).all (fun c => vget pos 0 c = 2 ^ 40) then
        ({ f with gln := { f.gln with ddrPos := Vector.replicate 12 0,
                                      ddrPasses := f.gln.ddrPasses + 1 } } : Fabric).raise 175
      else { f with gln := { f.gln with ddrPos := pos } }
  else
    let p := f.nextPlace cfg unit 1290 (vget f.gln.hbmPos 0 unit)
    match f.patrolWord cfg unit p with
    | some word =>
      let f := { f with gln := { f.gln with hbmPos := vset f.gln.hbmPos unit (p + 1) } }
      f.pushH (MemReq.read word 3 .patrol)
    | none =>
      let n := patrolPlaces cfg
      let pos := vset f.gln.hbmPos unit (min p n)
      if (List.range 8).all (fun s => n ≤ vget pos 0 s) then
        ({ f with gln := { f.gln with hbmPos := Vector.replicate 8 0,
                                      hbmPasses := f.gln.hbmPasses + 1 } } : Fabric).raise 175
      else { f with gln := { f.gln with hbmPos := pos } }

/-! ## The rows of returning reads -/

/-- The owner of the read of a word that is due next. -/
def nextReader (q : List MemReq) (word : Nat) (again : Bool) : Option Owner :=
  (q.find? (fun r => r.word = word && ¬ r.write && r.again = again)).map (·.who)

/-- HBM read data returns for a tracker (R298). -/
def Fabric.hbmReturn (cfg : Cfg) (f : Fabric) (word : Nat) (err : ErrPat) : Fabric :=
  match nextReader f.mem.hq word false with
  | some (.txn s i) =>
    match f.readReturn false word false err with
    | some (r, f, d) => f.txnRead cfg false r d false s i
    | none => f
  | _ => f

/-- Backing data returns for a tracker, demanded or speculative (R194). -/
def Fabric.ddrReturn (cfg : Cfg) (f : Fabric) (line : Nat) (err : ErrPat) : Fabric :=
  match nextReader f.mem.dq line false with
  | some (.txn s i) =>
    match f.readReturn true line false err with
    | some (r, f, d) => f.txnRead cfg true r d false s i
    | none => f
  | some (.spec s i) =>
    match f.readReturn true line false err with
    | some (r, f, d) => f.specRead cfg r d false s i
    | none => f
  | _ => f

/-- Backing data of a prefetch returns (R203). -/
def Fabric.prefetchReturn (cfg : Cfg) (f : Fabric) (line : Nat) (err : ErrPat) : Fabric :=
  match nextReader f.mem.dq line false with
  | some (.prefetch _ la) =>
    match f.readReturn true line false err with
    | some (r, f, d) => f.prefetchRead cfg r d false la
    | none => f
  | _ => f

/-- A patrol read returns (R315). -/
def Fabric.patrolReturn (cfg : Cfg) (f : Fabric) (ddr : Bool) (word : Nat) (err : ErrPat) : Fabric :=
  match nextReader (if ddr then f.mem.dq else f.mem.hq) word false with
  | some .patrol =>
    match f.readReturn ddr word false err with
    | some (r, f, d) => f.patrolRead cfg ddr r d false
    | none => f
  | _ => f

/-- A re-read returns and classifies the fault (R301). -/
def Fabric.rereadReturn (cfg : Cfg) (f : Fabric) (ddr : Bool) (word : Nat) (err : ErrPat) : Fabric :=
  match f.readReturn ddr word true err with
  | none => f
  | some (r, f, d) =>
    match r.who with
    | .txn s i => f.txnRead cfg ddr r d true s i
    | .spec s i => f.specRead cfg r d true s i
    | .tags s i => f.tagReread cfg r d s i
    | .map _ _ | .pmap _ _ => f.mapReread cfg r d
    | .prefetch _ la => f.prefetchRead cfg r d true la
    | .patrol => f.patrolRead cfg ddr r d true
    | _ => f

/-! ## Writes (R215, R275, R282) -/

/-- A page fill reaches the DDR5 queue (R282): the written line merged onto zeros and zeros to the
other lines; the mark clears. -/
def Fabric.pageFill (cfg : Cfg) (f : Fabric) (s i : Nat) : Fabric :=
  match f.txnAt s i with
  | none => f
  | some t =>
    match t.todo with
    | .fillWait through :: rest =>
      let page := backPage t.back
      let who : Owner := if through then .through t.la else .txn s i
      let f := (List.range 64).foldl (fun f k =>
        if page * 64 + k = t.back then f.pushD (MemReq.wr t.back (mergeLine 0 t.wd t.wbe) allEn t.wpo who)
        else f.pushD { MemReq.wr (page * 64 + k) 0 allEn false (.fill s i) with acc := true }) f
      let f := ((f.modMem (fun m => m.unmark page)).mapWrites page).staleSpec (fun u => u.rgn.isSome && backPage u.back = page && t.other u)
      let f := f.modStat s (fun x => { x with pageFills := bvSat x.pageFills 1 })
      let f := f.trackPage page
      let f := f.logFree { TRec.mk0 8 s (lineOfPage (t.la.toNat / 64) 0) t.tenant with rseq := 1 }
      (f.put { t with todo := rest, wend := t.wend || through }).settle cfg
    | _ => f

/-- HBM accepts the oldest waiting write of a word: the end point of its request (R215). -/
def Fabric.hbmAccept (cfg : Cfg) (f : Fabric) (word : Nat) : Fabric :=
  if ¬ acceptable false f.mem.hq word then f
  else match takeWrite word f.mem.hq f.mem.hbm with
    | none => f
    | some (r, _) =>
      let f := f.modMem (fun m =>
        { m with hq := acceptWrite word (fun x => { x with acc := true }) m.hq }.countBytes false word true)
      match r.who with
      | .txn s i =>
        match f.txnAt s i with
        | some t => (f.put { t with wend := true }).settle cfg
        | none => f.settle cfg
      | _ => f.settle cfg

/-- The DDR5 controller accepts the oldest waiting write of a line; a sub-line write reads, merges
and rewrites the burst, reading once more where the first read fails (R275, R305). -/
def Fabric.ddrAccept (cfg : Cfg) (f : Fabric) (line : Nat) (e1 e2 : ErrPat) : Fabric :=
  if ¬ acceptable true f.mem.dq line then f
  else match takeWrite line f.mem.dq f.mem.ddr with
    | none => f
    | some (r, mem) =>
      let fin := fun (f : Fabric) (g : MemReq → MemReq) =>
        f.modMem (fun m =>
          ({ m with dq := acceptWrite line g m.dq }.countBytes true line true).touchRow true line)
      let f :=
        if r.be = allEn then fin f (fun x => { x with acc := true })
        else if r.be = 0 && f.mem.marked (backPage line) then
          let q := dropFirst (fun (x : MemReq) => x.word = line && x.write && ¬ x.acc) f.mem.dq
          f.modMem (fun m => { m with dq := q })
        else
          let cw := getWord mem line
          let d1 := decodeWord true cw.data cw.pm e1
          let d := if d1.usable then d1 else decodeWord true cw.data cw.pm e2
          let ten := match r.who with
            | .txn s i => (match f.txnAt s i with | some t => t.tenant | none => 0)
            | _ => 0
          let f := f.mergeLog cfg true line ten d (¬ d1.usable)
          let w := mergeOnto d r.data r.be r.pois
          fin f (fun x => { x with acc := true, data := w.data, be := allEn, pois := w.pm })
      match r.who with
      | .txn s i =>
        match f.txnAt s i with
        | some t => (f.put { t with wend := true }).settle cfg
        | none => f.settle cfg
      | .through la =>
        match cfg.regionOf la with
        | some rg =>
          let res := f.cache.find cfg rg.line la
          let (v, _, p) := f.cache.bits res (subOf la)
          let f := if rg.typ = .wt then { f with cache := f.cache.setBitsOf res (subOf la) v false p } else f
          f.settle cfg
        | none => f.settle cfg
      | _ => f.settle cfg

/-- A channel queue at its high mark, or without a read of classes 0 to 2, issues its writes in the order of R276
(R277). -/
def Fabric.writeDrain (f : Fabric) (ddr : Bool) (ch : Nat) : Fabric :=
  let q := if ddr then f.mem.dq else f.mem.hq
  let n := chanWrites ddr q ch
  let high := if ddr then 128 else 64
  let go := fun (low : Nat) => f.modMem (fun m =>
    let m := Mem.issueWrites ddr ch (n - low) m
    match q.find? (fun r => r.chan ddr = ch) with
    | some r => m.makeUp ddr r.word
    | none => m)
  if high ≤ n then go (if ddr then 64 else 16)
  else if ¬ chanReads ddr q ch then go 0
  else f

/-- An entry that has waited its limit moves to class 0 (R276). -/
def Fabric.ageEntry (f : Fabric) (ddr : Bool) (word : Nat) : Fabric :=
  let g := modFirst (fun (r : MemReq) => r.word = word && ¬ r.aged) (fun r => { r with aged := true, cls := 0 })
  f.modMem (fun m => if ddr then { m with dq := g m.dq } else { m with hq := g m.hq })

/-- The refresh bank of an HBM word: channel, SID, PC, BG and BA (R266, R268). -/
def hbmBank (word : Nat) : Nat := hbmLoc word % 2 ^ 13
/-- The refresh unit of a DDR5 line: channel, sub-channel, rank and bank (R272, R274). -/
def ddrBank (r line : Nat) : Nat :=
  let p := ddrPlace r (ddrLB line)
  packNat [(0, 4, ddrChan line), (4, 1, p.sc), (5, 4, p.rnk), (9, 2, p.ba)]

/-- The rank of a refresh unit of DDR5: channel, sub-channel and rank.  A same-bank refresh takes the bank in
every bank group of it. -/
def refreshRank (bank : Nat) : Nat := bank % 2 ^ 9

/-- A refresh falls due (R268, R272): postponed while its bank has queued accesses (HBM) or its bank groups have
queued reads (DDR5), up to the memory's limit `limit`, past which one is issued for each that falls due.
Postponed HBM refreshes are issued once the bank is free, postponed DDR5 ones when the channel is idle. -/
def Fabric.refreshDue (f : Fabric) (ddr : Bool) (bank limit : Nat) : Fabric :=
  let key := if ddr then 2 ^ 20 + bank else bank
  let busy := if ddr then
      f.mem.dq.any (fun r => ¬ r.write && refreshRank (ddrBank f.mem.rbits r.word) = refreshRank bank)
    else f.mem.hq.any (fun r => hbmBank r.word = bank)
  let idle := f.mem.dq.all (fun r => ddrChan r.word ≠ bank % 16)
  let n := Tab.get f.mem.refresh 0 key
  if busy && n < limit then f.modMem (fun m => { m with refresh := Tab.set m.refresh key (n + 1) })
  else f.modMem (fun m =>
    let m := if (if ddr then idle else ! busy) then { m with refresh := Tab.erase m.refresh key } else m
    let unit := fun (k : Nat) =>
      packNat [(0, 4, bitsOf k 0 4), (4, 1, bitsOf k 4 1), (5, 4, bitsOf k 5 4), (9, 2, bitsOf k 12 2)]
    if ddr then { m with openRows := m.openRows.filter (fun k => unit k ≠ bank) }
    else { m with hbmRows := m.hbmRows.filter (fun k => k % 2 ^ 13 ≠ bank) })

/-- A DDR5 row without access for 200 ns is closed (R277). -/
def Fabric.closeRow (f : Fabric) (row : Nat) : Fabric :=
  f.modMem (fun m => { m with openRows := m.openRows.filter (fun k => k ≠ row) })

/-! ## Prefetch commands (R200, R205 to R207) -/

/-- A queued prefetch has waited 2 µs: dropped and counted (R200). -/
def Fabric.pfTimeout (f : Fabric) (la : LAddr) : Fabric :=
  match f.pfu.queue.find? (fun p => p.la = la && ¬ p.issued) with
  | none => f
  | some p =>
    let f := { f with pfu := { f.pfu with
      queue := dropFirst (fun (x : Pf) => x.la = la && ¬ x.issued) f.pfu.queue } }
    f.modStat p.slice (fun x => { x with dropped := bvSat x.dropped 1 })

/-- A resolution reaches PFU 0 (R205). -/
def Fabric.pfReport (cfg : Cfg) (f : Fabric) : Fabric :=
  match f.pfu.reports with
  | [] => f
  | (a, used) :: rest =>
    let p := { f.pfu with reports := rest }
    let (n, u) := vget p.counts (0, 0) a
    let n := n + 1
    let u := u + b2n used
    let p := if n < 256 then { p with counts := vset p.counts a (n, u) }
      else
        let stride := p.mode.toNat.testBit a
        let mode := if stride then (if cfg.accHi ≤ u then putBit p.mode.toNat a false else p.mode.toNat)
          else (if u < cfg.accLo then putBit p.mode.toNat a true else p.mode.toNat)
        { p with counts := vset p.counts a (0, 0), mode := BitVec.ofNat 32 mode }
    { f with pfu := p }

/-- The targets that a stream issues: those beyond NEXT in the stride's direction (R206). -/
def strideTargets (line stride : Int) : Nat → Nat → Int → List Int × Int
  | 0, _, next => ([], next)
  | n + 1, j, next =>
    let t := line + j * stride
    if (0 < stride ∧ next < t) ∨ (stride < 0 ∧ t < next) then
      let (ts, nx) := strideTargets line stride n (j + 1) t
      (t :: ts, nx)
    else strideTargets line stride n (j + 1) next

/-- A training record reaches its host PFU (R206). -/
def Fabric.train (cfg : Cfg) (f : Fabric) : Fabric :=
  match f.pfu.training with
  | [] => f
  | tr :: rest =>
    let la := tr.la.toNat
    let k := if tr.stream = 0 then bitsOf la 16 3 else tr.stream
    let pfu := (tr.agent + k) % 8
    let key := if tr.stream = 0 then 8 + la / 2 ^ 16 else tr.stream
    let same := fun (s : Stream) => s.pfu = pfu && s.agent = tr.agent && s.key = key
    let p := { f.pfu with training := rest }
    let line : Int := (la : Int)
    match p.streams.find? same with
    | none =>
      let mine := p.streams.filter (fun s => s.pfu = pfu)
      let keep := if mine.length < 64 then p.streams
        else dropFirst (fun (s : Stream) => s.pfu = pfu) p.streams
      let s : Stream := { pfu := pfu, agent := tr.agent, key := key, last := line, stride := 0,
                          conf := 0, next := line }
      { f with pfu := { p with streams := keep ++ [s] } }
    | some s =>
      let d := line - s.last
      let s := if d = 0 then s
        else if 1024 < d ∨ d < -1024 then { s with stride := 0, conf := 0, last := line }
        else if d = s.stride then { s with conf := min 3 (s.conf + 1), last := line }
        else { s with stride := d, conf := 1, next := line, last := line }
      let go := d ≠ 0 && 2 ≤ s.conf && p.mode.toNat.testBit tr.agent && cfg.pfEn && ¬ p.stopped
      let (ts, nx) := if go then strideTargets line s.stride cfg.strideDegree 1 s.next else ([], s.next)
      let rgn := (cfg.regionOf tr.la).map (·.idx)
      let ts := ts.filterMap (fun t =>
        if t < 0 ∨ (2 ^ 46 : Int) ≤ t then none
        else
          let l : LAddr := BitVec.ofNat 46 t.toNat
          if (cfg.regionOf l).map (·.idx) = rgn then some (tr.agent, l) else none)
      let others := dropFirst same p.streams
      { f with pfu := { p with streams := others ++ [{ s with next := nx }],
                               targets := p.targets ++ ts } }

/-- A stride target reaches its home slice's queue (R207). -/
def Fabric.strideTarget (cfg : Cfg) (f : Fabric) : Fabric :=
  match f.pfu.targets with
  | [] => f
  | (a, la) :: rest =>
    let f := { f with pfu := { f.pfu with targets := rest } }
    if f.pfu.stopped || ¬ f.activeHome la then f
    else f.queuePrefetch cfg (cfg.regionOf la) a la

end Sys2Proof.Machine
end

