-- ==== Sys2Proof/Machine/HarrowOps.lean ====
section
/-! DEFINITION. The Harrow (chapter 9): acceptance of descriptors, their line requests, what each
answer changes, marks, completion records. -/
namespace Sys2Proof.Machine

/-! ## Descriptor fields (Table 9.2) -/

/-- FLAGS. -/
def dscFlags (d : Line) : Nat := dscField d 1 1
/-- TAG. -/
def dscTag (d : Line) : Nat := dscField d 4 4
/-- DST. -/
def dscDst (d : Line) : Nat := dscField d 8 8
/-- SRC. -/
def dscSrc (d : Line) : Nat := dscField d 16 8
/-- LENGTH. -/
def dscLen (d : Line) : Nat := dscField d 24 8
/-- PATTERN. -/
def dscPat (d : Line) : Nat := dscField d 32 8
/-- CADDR. -/
def dscCaddr (d : Line) : Nat := dscField d 40 8
/-- IRQ. -/
def dscIrq (d : Line) : Bool := (dscFlags d).testBit 0
/-- SCOPE, as INVAL and FLUSH fix it (Table 9.3). -/
def dscScope (d : Line) : Bool :=
  if dscOp d = 2 then false else if dscOp d = 3 then true else (dscFlags d).testBit 1
/-- ZMAP. -/
def dscZmap (d : Line) : Bool := (dscFlags d).testBit 2
/-- ALL. -/
def dscAll (d : Line) : Bool := (dscFlags d).testBit 3

/-- A descriptor built by the Steward for an internal queue (Table 9.1); `fill` is the FILL option
of a lock. -/
def mkDesc (op flags dst len : Nat) (fill : Bool) : Line :=
  pack 512 [(0, 8, op), (8, 8, flags + 128 * b2n fill), (64, 64, dst), (192, 64, len)]

/-- The agent of an agent queue. -/
def Desc.agent (d : Desc) : Option Nat := if 17 ≤ d.queue && d.queue < 49 then some (d.queue - 17) else none

/-! ## Acceptance (R242, R243, R246) -/

/-- Every page from `p` to `last` lies in a region that satisfies `ok` (R178). -/
def Cfg.covers (c : Cfg) (ok : Region → Bool) : Nat → Nat → Nat → Bool
  | 0, _, _ => false
  | n + 1, p, last =>
    if last < p then true
    else match c.regionOfPage p with
      | none => false
      | some r =>
        let above := ((c.rgn.toList.take r.idx).filter (fun w => w.en && decide (p < w.base))).map (·.base)
        let next := above.foldl min (r.limit + 1)
        ok r && Cfg.covers c ok n next last

/-- A byte range lies wholly in regions that satisfy `ok`. -/
def Cfg.rangeIn (c : Cfg) (ok : Region → Bool) (lo len : Nat) : Bool :=
  c.covers ok 160 (lo / 4096) ((lo + len - 1) / 4096)

/-- The byte ranges that a descriptor names (Table 9.3). -/
def dscRanges (d : Line) : List (Nat × Nat) :=
  let op := dscOp d
  if dscAll d then []
  else if op = 0x0B then [(dscSrc d, 32 * dscLen d)]
  else if op = 7 || op = 8 || op = 9 then [(dscSrc d, dscLen d), (dscDst d, dscLen d)]
  else [(dscDst d, dscLen d)]

/-- Condition 1 of R246. -/
def dscFieldsOk (queue : Nat) (d : Line) : Bool :=
  let op := dscOp d
  let fl := dscFlags d
  let usesSrc := op = 7 || op = 8 || op = 9 || op = 0x0B
  (1 ≤ op && op ≤ 0x0B) && fl / 16 = 0 && dscField d 2 2 = 0
    && bitsOf (dscDst d) 52 12 = 0 && bitsOf (dscLen d) 40 24 = 0
    && (usesSrc || dscSrc d = 0) && (op ≠ 0x0B || dscDst d = 0)
    && (op = 6 || (op = 0x0A && dscPat d < 256) || dscPat d = 0)
    && (1 ≤ op && op ≤ 4 || ¬ fl.testBit 1) && (op = 5 || ¬ fl.testBit 2)
    && (17 ≤ queue || dscCaddr d = 0) && dscField d 48 16 = 0

/-- Condition 2 of R246. -/
def dscRangeOk (d : Line) : Bool :=
  let op := dscOp d
  let len := dscLen d
  if dscAll d then
    (op = 1 || op = 2 || op = 4) && ¬ dscScope d && dscDst d = 0 && len = 0
  else
    len ≠ 0 && (op ≠ 0x0B || len ≤ 4096)
      && (dscRanges d).all (fun r => decide (r.1 + r.2 ≤ 2 ^ 52))
      && (¬ (op = 9 || op = 0x0A || (op = 5 && dscZmap d)) || (dscDst d % 4096 = 0 && len % 4096 = 0))
      && (op ≠ 9 || (dscSrc d % 4096 = 0
            && (dscSrc d + len ≤ dscDst d || dscDst d + len ≤ dscSrc d)))

/-- The acceptance status of a descriptor: the first condition of R246 that fails, or 0. -/
def dscStatus (cfg : Cfg) (queue : Nat) (d : Line) : Nat :=
  let plain := fun (r : Region) => r.typ ≠ .dev
  let agent := 17 ≤ queue && queue < 49
  let perm := (vget cfg.aperm 0 (queue - 17)).toNat
  let ten := fun (r : Region) => r.tenant = bitsOf perm 17 8
  if ¬ dscFieldsOk queue d then 0x0101
  else if ¬ dscRangeOk d then 0x0102
  else if ¬ (dscRanges d).all (fun r => cfg.rangeIn plain r.1 r.2) then 0x0103
  else if dscOp d = 0x0A && ¬ (dscRanges d).all (fun r =>
      cfg.rangeIn (fun g => g.tenant = bitsOf (dscPat d) 0 8) r.1 r.2) then 0x0105
  else if agent && ¬ (cfg.rangeIn plain (dscCaddr d) 64 && dscCaddr d % 64 = 0) then 0x0104
  else if agent && ¬ (cfg.agentEn && perm.testBit (dscOp d) && (¬ perm.testBit 16 ||
      ((dscRanges d).all (fun r => cfg.rangeIn ten r.1 r.2) && cfg.rangeIn ten (dscCaddr d) 64))) then
    0x0501
  else 0

/-- Descriptors in a queue. -/
def Harrow.count (h : Harrow) (q : Nat) : Nat := (h.descs.filter (fun d => d.queue = q && ¬ d.mirror)).length

/-- Slots taken from the shared pool: what every queue holds beyond its 16 reserved ones (R242). -/
def Harrow.poolUsed (h : Harrow) : Nat :=
  (List.range 51).foldl (fun n q => n + (h.count q - 16)) 0

/-- A queue can take a descriptor now (R242, R243, R259).  DEDUCED (log entry 104): at step 2 of a drain, which ends
when every accepted request has completed, the Harrow takes the SvcReqs still in the write buffers. -/
def Harrow.room (h : Harrow) (q : Nat) : Bool :=
  let c := h.count q
  decide (c < 1024) && (decide (c < 16) || decide (h.poolUsed < 7376)) && (¬ h.paused || h.cutting && 17 ≤ q || 49 ≤ q)

/-- A queue can take a descriptor now, and the twin log can take its record (R242, R243, R259, R357). -/
def Fabric.roomFor (f : Fabric) (q : Nat) : Bool := f.hrw.room q && (49 ≤ q || ¬ f.gateShut)

/-- The first line of the first pass of a descriptor. -/
def dscStart (d : Line) : Nat :=
  let op := dscOp d
  if op = 7 || op = 8 || op = 9 || op = 0x0B then 0 else dscDst d / 64

/-- A descriptor just accepted. -/
def Desc.new (ticket queue : Nat) (raw : Line) : Desc :=
  { ticket := ticket, queue := queue, raw := raw, running := false, stop := 0, pos := dscStart raw,
    wpos := 0, mpos := 0, marked := 0, nextK := 0, flight := [], reads := [], wq := [], locked := [],
    notLocked := 0, lockedCnt := 0, result := if dscOp raw = 8 then 2 ^ 64 - 1 else 0, poisoned := 0,
    transient := 0, progress := 0, status := 0, recording := false, mirror := false,
    partnerDone := false, ending := false, marks := [], rescan := false, gate := none, owed := none }

/-- Put an accepted descriptor into its queue; source 148 when the pool becomes empty. -/
def Fabric.enqueue (f : Fabric) (queue : Nat) (raw : Line) (owed : Option Nat) : Fabric × Nat :=
  let tk := f.hrw.nextTicket
  let d := { Desc.new tk queue raw with owed := owed }
  let before := f.hrw.poolUsed
  let (f, g) := if f.mirrors && queue < 49 then
      let (f, g) := f.logRec (hrwRec tk queue (some raw) 0 false)
      (f, some g)
    else (f, none)
  let h := { f.hrw with descs := f.hrw.descs ++ [{ d with gate := g }],
                        nextTicket := (tk + 1) % 2 ^ 32 }
  let f := { f with hrw := h }
  (if before < 7376 && h.poolUsed = 7376 then f.raise 148 else f, tk)

/-- The acceptance word (Table 9.5). -/
def acceptWord (status ticket : Nat) : Nat := packNat [(0, 16, status), (32, 32, ticket)]

/-- Check a descriptor for a queue that has room: accepted with a ticket, or refused and counted. -/
def Fabric.submit (cfg : Cfg) (f : Fabric) (queue : Nat) (raw : Line) (owed : Option Nat) :
    Fabric × Nat × Nat :=
  let st := dscStatus cfg queue raw
  if st = 0 then
    let (f, tk) := f.enqueue queue raw owed
    (f, 0, tk)
  else ({ f with hrw := { f.hrw with refused := bvSat f.hrw.refused 1 } }, st, 0)

/-- A completion without a home tracker: HTAG 0, STATE I (R75). -/
def Fabric.bareComp (f : Fabric) (a txid : Nat) (r : Res) (value : Nat) : Fabric :=
  (f.send a (mkComp txid 0 .i false r value)).endLive a txid

/-- Take the SvcReqs that were released to the Harrow, in order, while their queues have room: the
entry has reached its end point, and its Comp carries the acceptance word (R227, R248). -/
def svcRunN (cfg : Cfg) : Nat → Fabric → Fabric
  | 0, f => f
  | n + 1, f =>
    match f.hrw.waiting.find? (fun w => f.roomFor (17 + w.1)) with
    | none => f
    | some (a, id, tx, raw) =>
      let rest := dropFirst (fun (w : Nat × Nat × Nat × Line) => w.1 = a && w.2.1 = id) f.hrw.waiting
      let f := { f with hrw := { f.hrw with waiting := rest } }
      let (f, st, tk) := f.submit cfg (17 + a) raw (some tx)
      let f := f.modOrd a (fun o => { o with tokens := o.tokens ++ [id], notices := o.notices ++ [id] })
      let gated := st = 0 && f.hrw.descs.any (fun d => d.ticket = tk && d.gate.isSome)
      let f := if gated then f else f.bareComp a tx .ok (acceptWord st tk)
      let ds := modAll (fun (d : Desc) => d.ticket = tk && d.gate.isNone)
        (fun d => { d with owed := none }) f.hrw.descs
      svcRunN cfg n { f with hrw := { f.hrw with descs := ds } }

/-- Take every SvcReq that can be taken. -/
def Fabric.svcRun (cfg : Cfg) (f : Fabric) : Fabric := svcRunN cfg (f.hrw.waiting.length + 1) f

/-! ## Starting (R244) -/

/-- Change the descriptor with a ticket. -/
def Fabric.modDesc (f : Fabric) (tk : Nat) (g : Desc → Desc) : Fabric :=
  { f with hrw := { f.hrw with descs := modFirst (fun (d : Desc) => d.ticket = tk) g f.hrw.descs } }

/-- The descriptor with a ticket. -/
def Fabric.desc (f : Fabric) (tk : Nat) : Option Desc := f.hrw.descs.find? (fun d => d.ticket = tk)

/-- The head of a queue, where it may start: it does not run, its acceptance was logged, and a host
or BMC descriptor needs a free place in the ring (R249). -/
def Harrow.startable (h : Harrow) (q : Nat) : Option Desc :=
  match h.descs.find? (fun d => d.queue = q && ¬ d.mirror) with
  | none => none
  | some d =>
    if d.running || d.recording || d.ending || d.stop ≠ 0 || d.gate.isSome || (q < 17 && 256 ≤ h.ring.length)
        || (h.paused && q < 49) then none
    else some d

/-- Descriptors running at once: this device's own (R244). -/
def Harrow.active (h : Harrow) : Nat := (h.descs.filter (fun d => d.running && ¬ d.mirror)).length

/-- Start the next head by priority and round-robin (R244). -/
def Fabric.startDesc (cfg : Cfg) (f : Fabric) : Fabric :=
  let h := f.hrw
  if cfg.activeMax ≤ h.active then f
  else
    let order := [49, 50] ++ (List.range 49).map (fun i => (h.rr + 1 + i) % 49)
    match order.findSome? h.startable with
    | none => f
    | some d =>
      let f := f.modDesc d.ticket (fun d => { d with running := true })
      if d.queue < 49 then { f with hrw := { f.hrw with rr := d.queue } } else f

/-! ## Lines of a descriptor -/

/-- Bytes of a line that a byte range covers, as a mask (R247). -/
def coverEn (lo len la : Nat) : BitVec 64 :=
  let a := max lo (la * 64)
  let b := min (lo + len) (la * 64 + 64)
  if b ≤ a then 0 else spanEn (a - la * 64) (b - a)

/-- Lines of a byte range. -/
def rangeLines (lo len : Nat) : Nat := if len = 0 then 0 else (lo + len - 1) / 64 - lo / 64 + 1

/-- The least line in `[pos, stop)` whose copy in the device is valid, or dirty where asked. -/
def Fabric.nextPresent (cfg : Cfg) (f : Fabric) (pos stop : Nat) (dirty : Bool) : Option Nat :=
  let pick := fun (b : Option Nat) (la : Nat) =>
    if pos ≤ la && la < stop then (match b with | some x => some (min x la) | none => some la) else b
  let b := f.cache.sectors.foldl (fun b p =>
    if p.2.stby then b
    else
      let m := if dirty then p.2.dirty else p.2.valid
      let page := pageOfTag (p.1 / 10) p.2.tag.toNat
      (onesOf m.toNat 64).foldl (fun b k => pick b (page * 64 + k)) b) none
  f.cache.cober.foldl (fun b p =>
    if (if dirty then p.2.d else p.2.v) then pick b (f.cache.coberLine cfg p.1).toNat else b) b

/-- COPY runs downwards when its destination starts above its source and overlaps it (R250). -/
def dscDown (d : Line) : Bool :=
  dscOp d = 7 && dscSrc d < dscDst d && dscDst d < dscSrc d + dscLen d

/-- The `o`-th of `n` lines in issue order. -/
def nthLine (down : Bool) (lo n o : Nat) : Nat := if down then lo / 64 + (n - 1 - o) else lo / 64 + o

/-- The byte of the read lines at a byte address. -/
def readByte (rs : List (Nat × Line × Bool)) (addr : Nat) : Nat :=
  match rs.find? (fun r => r.1 = addr / 64) with
  | some r => byteOf r.2.1.toNat (addr % 64)
  | none => 0

/-- Source lines that the bytes of a destination line come from. -/
def srcLines (d : Line) (la : Nat) : List Nat :=
  let a := max (dscDst d) (la * 64)
  let b := min (dscDst d + dscLen d) (la * 64 + 64)
  let s := dscSrc d + (a - dscDst d)
  let e := dscSrc d + (b - 1 - dscDst d)
  if s / 64 = e / 64 then [s / 64] else [s / 64, e / 64]

/-- The data that a destination line of a COPY receives. -/
def copyData (d : Line) (rs : List (Nat × Line × Bool)) (la : Nat) : Line :=
  BitVec.ofNat 512 ((List.range 64).foldl (fun acc i =>
    let a := la * 64 + i
    if dscDst d ≤ a && a < dscDst d + dscLen d then
      acc ||| (readByte rs (dscSrc d + (a - dscDst d)) <<< (8 * i))
    else acc) 0)

/-- The first byte offset at which a destination line differs from its source bytes. -/
def diffAt (d : Line) (rs : List (Nat × Line × Bool)) (la : Nat) : Option Nat :=
  ((List.range 64).find? (fun i =>
    let a := la * 64 + i
    dscDst d ≤ a && a < dscDst d + dscLen d &&
      readByte rs (dscSrc d + (a - dscDst d)) ≠ readByte rs a)).map (fun i => la * 64 + i - dscDst d)

/-- A line of the first pass has been read: issued and answered. -/
def Desc.hasRead (d : Desc) (la : Nat) : Bool := d.reads.any (fun r => r.1 = la)

/-- A read of the line is still in flight, or not issued although it lies in the source range. -/
def Desc.readPending (d : Desc) (la : Nat) : Bool :=
  let n := rangeLines (dscSrc d.raw) (dscLen d.raw)
  let first := dscSrc d.raw / 64
  let down := dscDown d.raw
  d.flight.any (fun x => x.2.1 = 0 && x.2.2 = la) ||
    (first ≤ la && la < first + n &&
      (if down then decide (la < first + n - d.pos) else decide (first + d.pos ≤ la)))

/-- COPY and MOVE: destination lines whose sources are in become writes (R253, R256). -/
def Desc.readyCopy : Nat → Desc → Desc
  | 0, d => d
  | n + 1, d =>
    let nd := rangeLines (dscDst d.raw) (dscLen d.raw)
    if nd ≤ d.wpos then d
    else
      let la := nthLine (dscDown d.raw) (dscDst d.raw) nd d.wpos
      let src := srcLines d.raw la
      if src.all d.hasRead && ¬ d.readPending la then
        let p := d.reads.any (fun r => src.contains r.1 && r.2.2)
        let w := (la, copyData d.raw d.reads la, coverEn (dscDst d.raw) (dscLen d.raw) la, p)
        let keep := fun (r : Nat × Line × Bool) =>
          if dscDown d.raw then decide (r.1 ≤ (src.foldl max 0)) else decide (src.foldl min r.1 ≤ r.1) &&
            decide ((src.getLast?.getD 0) ≤ r.1)
        Desc.readyCopy n { d with wq := d.wq ++ [w], wpos := d.wpos + 1,
                                  reads := d.reads.filter keep }
      else d

/-- COMPARE: destination lines whose data is in are compared; a poisoned line stops it (R256). -/
def Desc.readyCompare : Nat → Desc → Desc
  | 0, d => d
  | n + 1, d =>
    let nd := rangeLines (dscDst d.raw) (dscLen d.raw)
    if nd ≤ d.wpos || d.stop = 3 then d
    else
      let la := dscDst d.raw / 64 + d.wpos
      let src := srcLines d.raw la
      if src.all d.hasRead && d.hasRead la then
        let bad := fun (x : Nat) => d.reads.any (fun r => r.1 = x && r.2.2)
        if bad la then { d with stop := 3, result := min d.result (max (la * 64) (dscDst d.raw) - dscDst d.raw) }
        else match src.find? bad with
          | some x => { d with stop := 3, result := min d.result (max (x * 64) (dscSrc d.raw) - dscSrc d.raw) }
          | none =>
            let r := match diffAt d.raw d.reads la with
              | some o => min d.result o
              | none => d.result
            Desc.readyCompare n { d with result := r, wpos := d.wpos + 1 }
      else d

/-- The line request that a descriptor issues next: its pass, line, action, data, byte enables and
poison, and the descriptor after it.  none: nothing can be issued now. -/
structure Issue where
  pass : Nat
  la : Nat
  act : HAct
  hdr : Slot
  data : Line
  be : BitVec 64
  pois : Bool
  opnd : Slot
  next : Desc

/-- The eight-byte pattern over a line. -/
def patLine (p : Nat) : Line := BitVec.ofNat 512 ((List.range 8).foldl (fun a i => a ||| (p <<< (64 * i))) 0)

/-- The entry `e` of a BATCH list: its 32 bytes as a number, where its lines are in. -/
def Desc.entry (d : Desc) (e : Nat) : Option Nat :=
  let a := dscSrc d.raw + 32 * e
  if d.hasRead (a / 64) && d.hasRead ((a + 31) / 64) then
    some ((List.range 32).foldl (fun acc i => acc ||| (readByte d.reads (a + i) <<< (8 * i))) 0)
  else none

/-- The write-backs of eight bytes over bytes 23:16 of a BATCH entry. -/
def batchBack (d : Desc) (e v : Nat) : List (Nat × Line × BitVec 64 × Bool) :=
  let a := dscSrc d.raw + 32 * e + 16
  let one := fun (la : Nat) =>
    (la, (BitVec.ofNat 512 ((List.range 64).foldl (fun acc i =>
      let x := la * 64 + i
      if a ≤ x && x < a + 8 then acc ||| (byteOf v (x - a) <<< (8 * i)) else acc) 0) : Line),
      coverEn a 8 la, false)
  if a / 64 = (a + 7) / 64 then [one (a / 64)] else [one (a / 64), one ((a + 7) / 64)]

/-- A BATCH entry may be performed: R83 for Atomic, in a region the descriptor may use (R255). -/
def batchOk (cfg : Cfg) (d : Desc) (ent : Nat) : Bool :=
  let addr := bitsOf ent 0 64
  let len := 2 ^ bitsOf ent 68 2
  let ok := fun (r : Region) => r.typ ≠ .dev && (match d.agent with
    | some a =>
      let p := (vget cfg.aperm 0 a).toNat
      ¬ p.testBit 16 || r.tenant = bitsOf p 17 8
    | none => true)
  addr + len ≤ 2 ^ 52 && addr % len = 0 && bitsOf ent 64 4 ≤ 9 && cfg.rangeIn ok addr len

/-- The uncached header that a BATCH entry acts as. -/
def batchHdr (ent : Nat) : Slot :=
  pack 128 [(0, 6, Op.atomic.code), (18, 52, bitsOf ent 0 52), (102, 7, 2 ^ bitsOf ent 68 2),
    (109, 4, bitsOf ent 64 4)]

/-- The operand slot of a BATCH entry. -/
def batchOpnd (ent : Nat) : Slot := BitVec.ofNat 128 (bitsOf ent 128 128)

/-- A plain issue of the first pass. -/
def Desc.plain (d : Desc) (la : Nat) (act : HAct) (data : Line) (be : BitVec 64) (pos : Nat) : Issue :=
  { pass := 0, la := la, act := act, hdr := 0, data := data, be := be, pois := false, opnd := 0,
    next := { d with pos := pos } }

/-- The line is this Harrow's to act on: this device is its active home; the Steward's own descriptors act on
every line of a device that is no home at all (R28, R260). -/
def Fabric.acts (f : Fabric) (d : Desc) (la : Nat) : Bool :=
  f.activeHome (BitVec.ofNat 46 la) ||
    (d.internal && (f.twin.pair = .isolated || (f.twin.pair = .resync && f.twin.rejoiner)))

/-- The next line from `la` on that this Harrow acts on: no three pages in a row are the other device's (R28). -/
def Fabric.homeFrom (f : Fabric) (d : Desc) : Nat → Nat → Nat
  | 0, la => la
  | n + 1, la => if f.acts d la then la else Fabric.homeFrom f d n ((la / 64 + 1) * 64)

/-- A MOVE's source page may go once its destination page is written: by the partner, where that is its active
home (R260). -/
def Fabric.destDone (f : Fabric) (d : Desc) (p : Nat) : Bool :=
  let page := dscDst d.raw / 4096 + p
  f.activeHome (lineOfPage page 0) || (List.range 64).all (fun k => d.marks.contains (page * 64 + k))

/-- Choose the next line request of a descriptor (R247, R250 to R255). -/
def Fabric.nextIssue (cfg : Cfg) (f : Fabric) (d : Desc) : Option Issue :=
  let raw := d.raw
  let op := d.op
  let len := dscLen raw
  let stopLa := if dscAll raw then 2 ^ 46 else if len = 0 then 0 else (dscDst raw + len - 1) / 64 + 1
  if d.stop ≠ 0 || d.rescan then none
  else match d.wq with
    | (la, data, be, p) :: rest =>
      let act := if be = 0 then HAct.read else .write
      some { pass := if op = 0x0B then 2 else 1, la := la, act := act, hdr := 0, data := data, be := be,
             pois := p, opnd := 0, next := { d with wq := rest } }
    | [] =>
      if op = 7 || op = 9 then
        let n := rangeLines (dscSrc raw) len
        let ended := d.wpos / 64
        let pageDone := fun (p : Nat) => d.flight.all (fun x => ¬ (x.2.1 = 1 && x.2.2 / 64 = dscDst raw / 4096 + p))
        if op = 9 && d.mpos / 64 < ended && pageDone (d.mpos / 64) && f.destDone d (d.mpos / 64) then
          let la := dscSrc raw / 64 + d.mpos
          some { pass := 2, la := la, act := .reclaim, hdr := 0, data := 0, be := 0, pois := false,
                 opnd := 0, next := { d with mpos := d.mpos + 1 } }
        else if d.pos < n then
          some (d.plain (nthLine (dscDown raw) (dscSrc raw) n d.pos) .read 0 0 (d.pos + 1))
        else none
      else if op = 8 then
        let ns := rangeLines (dscSrc raw) len
        let nd := rangeLines (dscDst raw) len
        if d.pos < 2 * max ns nd then
          let i := d.pos / 2
          if d.pos % 2 = 0 then
            if i < ns then some (d.plain (dscSrc raw / 64 + i) .read 0 0 (d.pos + 1))
            else if i < nd then some (d.plain (dscDst raw / 64 + i) .read 0 0 (d.pos + 2)) else none
          else if i < nd then some (d.plain (dscDst raw / 64 + i) .read 0 0 (d.pos + 1))
          else if i + 1 < ns then some (d.plain (dscSrc raw / 64 + i + 1) .read 0 0 (d.pos + 2))
          else none
        else none
      else if op = 0x0B then
        let n := rangeLines (dscSrc raw) (32 * len)
        let busy := d.flight.any (fun x => x.2.1 = 1)
        match if d.wpos < len && ¬ busy then d.entry d.wpos else none with
        | some ent =>
          if batchOk cfg d ent then
            some { pass := 1, la := bitsOf ent 0 52 / 64, act := .atomic d.wpos, hdr := batchHdr ent,
                   data := 0, be := spanEn (bitsOf ent 0 6) (2 ^ bitsOf ent 68 2), pois := false,
                   opnd := batchOpnd ent, next := d }
          else
            match batchBack d d.wpos (2 ^ 64 - 1) with
            | (la, data, be, p) :: rest =>
              some { pass := 2, la := la, act := .write, hdr := 0, data := data, be := be, pois := p,
                     opnd := 0, next := { d with wq := rest, wpos := d.wpos + 1,
                                                 result := d.result + 1 } }
            | [] => none
        | none =>
          if d.pos < n then some (d.plain (dscSrc raw / 64 + d.pos) .read 0 0 (d.pos + 1)) else none
      else
        let pos := f.homeFrom d 4 d.pos
        if op = 0x10 || op = 0x11 then
          if pos < stopLa then
            let line := match cfg.regionOf (BitVec.ofNat 46 pos) with | some r => r.line | none => false
            let next := if line then pos + 1 else (pos / 64 + 1) * 64
            some (d.plain pos (if op = 0x10 then .lock else .unlock) 0 0 next)
          else none
        else
          let wide := dscScope raw || op = 5 || op = 6 || op = 0x0A
          let la := if wide then (if pos < stopLa then some pos else none)
            else f.nextPresent cfg pos stopLa (op = 1)
          la.map (fun la =>
            let act : HAct := match op with
              | 1 => .clean (dscScope raw)
              | 2 => .inval
              | 3 => .flush
              | 4 => .invalNowb (dscScope raw)
              | 5 => if dscZmap raw then .reclaim else .write
              | 6 => .write
              | _ => .reclaim
            let data := if op = 6 then patLine (dscPat raw) else 0
            d.plain la act data (coverEn (dscDst raw) len la) (la + 1))

/-- Line requests of running descriptors in flight in a slice. -/
def Harrow.inFlight (h : Harrow) (s : Nat) : Nat :=
  h.descs.foldl (fun n d => n + (d.flight.filter (fun x => sliceOf (BitVec.ofNat 46 x.2.2) = s)).length) 0

/-! ## Marks (R252) -/

/-- The page of a descriptor that its next mark covers, once every line of it is applied. -/
def Desc.markable (d : Desc) : Option Nat :=
  let op := d.op
  let pages := dscLen d.raw / 4096
  let none_ := fun (pass page : Nat) => d.flight.all (fun x => ¬ (x.2.1 = pass && x.2.2 / 64 = page))
  if pages ≤ d.marked then none
  else if op = 9 then
    let p := dscSrc d.raw / 4096 + d.marked
    if 64 * (d.marked + 1) ≤ d.mpos && none_ 2 p then some p else none
  else if op = 0x0A || (op = 5 && dscZmap d.raw) then
    let p := dscDst d.raw / 4096 + d.marked
    if 64 * (p + 1) ≤ d.pos && none_ 0 p then some p else none
  else none

/-- A page whose lines have all been applied awaits its mark (R258). -/
def Fabric.markDue (f : Fabric) (d : Desc) : Bool :=
  match d.markable with
  | some page => f.activeHome (lineOfPage page 0)
  | none => false

/-- The progress mark of a page that has been marked in the zero-map. -/
def pageMark (page : Nat) : Nat := 2 ^ 46 + page

/-- A page's mark in the zero-map: what the device still holds of its lines, and the prefetches in flight for
them, go with it (R252, R254).
DEDUCED (log entry 100): a write accepted after its line was applied may lie in the device's copy. -/
def Fabric.markPage (cfg : Cfg) (f : Fabric) (la : LAddr) : Fabric :=
  match cfg.regionOf la with
  | none => f
  | some r =>
    let page := la.toNat / 64
    let q := modAll (fun (p : Pf) => p.la.toNat / 64 = page && p.issued) (fun p => { p with cancelled := true })
      f.pfu.queue
    let f := { f with cache := f.cache.dropPage cfg page, pfu := { f.pfu with queue := q } }
    (f.modMem (fun m => m.mark (sliceOf la) (backPage (r.backLine la)))).mapWrites (backPage (r.backLine la))

/-- A request for a line of the page is open: the mark is ordered behind it (R252). -/
def Fabric.pageOpen (f : Fabric) (page : Nat) : Bool :=
  f.txns.any (fun t => t.la.toNat / 64 = page && t.blk && t.rgn.isSome)

/-- Mark the pages that are due; a mirrored mark waits for the acknowledgement of its record, and a page of the
partner's is marked there (R28, R260). -/
def markRunN (cfg : Cfg) (tk : Nat) : Nat → Fabric → Fabric
  | 0, f => f
  | n + 1, f =>
    match f.desc tk with
    | none => f
    | some d =>
      match d.markable with
      | none => f
      | some page =>
        let la := lineOfPage page 0
        let next := fun (f : Fabric) => f.modDesc tk (fun d => { d with marked := d.marked + 1, gate := none })
        let act := fun (f : Fabric) =>
          let f := next (f.markPage cfg la)
          if cfg.twinEn then f.modDesc tk (fun d => { d with marks := d.marks ++ [pageMark page] }) else f
        if d.marks.contains (pageMark page) then markRunN cfg tk n (next f)
        else if f.pageOpen page then f
        else match d.gate with
        | some g => if f.unacked g then f else markRunN cfg tk n (act f)
        | none =>
          if ¬ f.activeHome la then markRunN cfg tk n (next f)
          else if f.gateShut then f
          else if f.mirrors then
            let (f, g) := f.logRec (TRec.mk0 8 (sliceOf la) la 0)
            f.modDesc tk (fun d => { d with gate := some g })
          else markRunN cfg tk n (act f)

/-! ## Ends (R248, R249, R257, R258) -/

/-- PROGRESS of a descriptor that has stopped (R257). -/
def Desc.progressNow (d : Desc) (complete : Bool) : Nat :=
  let op := d.op
  let len := dscLen d.raw
  if complete then len
  else if op = 9 then 4096 * d.marked
  else if op = 0x0B then d.wpos
  else if op = 7 then
    let w := d.wpos - d.wq.length
    let lo := dscDst d.raw
    if w = 0 then 0
    else if dscDown d.raw then min len (lo + len - ((lo + len - 1) / 64 + 1 - w) * 64)
    else min len ((lo / 64 + w) * 64 - lo)
  else if op = 8 then
    let at_ := fun (lo i : Nat) => if i = 0 then 0 else (lo / 64 + i) * 64 - lo
    min len (min (at_ (dscSrc d.raw) ((d.pos + 1) / 2)) (at_ (dscDst d.raw) (d.pos / 2)))
  else if d.pos * 64 ≤ dscDst d.raw then 0
  else min len (d.pos * 64 - dscDst d.raw)

/-- PROGRESS of a descriptor at a moment of its run: up to the first line request that has not ended (R257,
R452). -/
def Desc.progressRun (d : Desc) : Nat :=
  let wr := (d.flight.filter (fun x => x.2.1 = 1)).length
  let e := if d.op = 7 then { d with wpos := d.wpos - wr }
    else if d.op = 8 then { d with pos := 2 * d.wpos }
    else if d.op = 9 || d.op = 0x0B then d
    else { d with pos := d.flight.foldl (fun m x => min m x.2.2) d.pos }
  e.progressNow false

/-- The completion record (Table 9.5). -/
def Desc.record (d : Desc) (epoch : Nat) : Line :=
  pack 512 [(0, 32, dscTag d.raw), (32, 32, d.ticket), (64, 16, d.status), (80, 8, d.op),
    (96, 32, d.locked.length), (128, 64, d.progress), (192, 64, d.result), (256, 32, d.poisoned),
    (288, 32, d.transient), (320, 32, epoch)]

/-- A descriptor leaves the Harrow: its ended copy is kept, its slot is free. -/
def Fabric.retire (cfg : Cfg) (f : Fabric) (d : Desc) : Fabric :=
  let h := { f.hrw with descs := f.hrw.descs.filter (fun x => x.ticket ≠ d.ticket),
                        ended := f.hrw.ended ++ [{ d with running := false, reads := [], wq := [] }] }
  ({ f with hrw := h } : Fabric).svcRun cfg

/-- A completion record enters the host ring: source 144 (R249, R451). -/
def Fabric.ringPut (f : Fabric) (l : Line) : Fabric :=
  ({ f with hrw := { f.hrw with ring := f.hrw.ring ++ [(f.hrw.ringSeq, l)],
                                ringSeq := (f.hrw.ringSeq + 1) % 2 ^ 32 } } : Fabric).raise 144

/-- Records that wait enter the ring while it holds fewer than 256 (R249). -/
def ringRunN : Nat → Fabric → Fabric
  | 0, f => f
  | n + 1, f =>
    match f.hrw.ringLate with
    | [] => f
    | l :: rest =>
      if 256 ≤ f.hrw.ring.length then f
      else ringRunN n (({ f with hrw := { f.hrw with ringLate := rest } } : Fabric).ringPut l)

/-- The completion record goes to CADDR, as a line write of its own, or to the host ring (R248, R249).
DESIGN CHOICE (log entry 101): a record that ends while the ring holds 256 waits for a place. -/
def Fabric.writeRecord (cfg : Cfg) (f : Fabric) (d : Desc) : Fabric :=
  match d.agent with
  | none =>
    let f := { f with hrw := { f.hrw with ringLate := f.hrw.ringLate ++ [d.record f.epoch] } }
    (ringRunN f.hrw.ringLate.length f).retire cfg { d with ending := false, gate := none }
  | some _ =>
    let k := d.nextK
    let f := f.modDesc d.ticket (fun _ =>
      { d with recording := true, ending := false, gate := none, nextK := k + 1, flight := [(k, 9, dscCaddr d.raw / 64)] })
    let a := { lineArr 2 (.harrow d.ticket k) (.harrow .write) (BitVec.ofNat 46 (dscCaddr d.raw / 64)) with
      data := d.record f.epoch, be := allEn }
    { f with arr := f.arr ++ [a] }

/-- A descriptor that has ended: status and events; its end is logged before its completion record is written,
and a mirror copy's end is reported to the device that accepted it, which ends the descriptor (R248, R249, R258, R260, R264). -/
def Fabric.conclude (cfg : Cfg) (f : Fabric) (d : Desc) (complete : Bool) : Fabric :=
  let st := if d.stop = 1 then 0x0201 else if d.stop = 2 then 0x0202
    else if d.poisoned ≠ 0 then 0x0401 else if d.transient ≠ 0 then 0x0601 else 0
  let d := { d with status := st, progress := d.progressNow complete, running := false }
  let own := ¬ d.mirror
  let f := if own && st = 0x0401 then f.raise 146 else f
  let f := if own && d.locked ≠ [] then f.raise 147 else f
  let f := if own && d.stop = 1 then
      ({ f with hrw := { f.hrw with aborted := bvSat f.hrw.aborted 1 } } : Fabric).raise 149
    else f
  let f := if d.op = 0x10 && d.notLocked ≠ 0 then f.raise 89 else f
  let endRec := hrwRec d.ticket d.queue none 0 true
  if d.internal then f.retire cfg d
  else if d.mirror then (f.logFree endRec).modDesc d.ticket (fun _ => { d with ending := true })
  else if f.mirrors then
    let (f, g) := f.logRec endRec
    f.modDesc d.ticket (fun _ => { d with ending := true, gate := some g })
  else f.writeRecord cfg d

/-- Every line request of the descriptor has been issued. -/
def Fabric.exhausted (cfg : Cfg) (f : Fabric) (d : Desc) : Bool :=
  (f.nextIssue cfg { d with stop := 0, running := true }).isNone && d.flight = [] && ¬ d.rescan &&
    (d.op ≠ 9 || d.marked = dscLen d.raw / 4096) &&
    (¬ (d.op = 0x0A || (d.op = 5 && dscZmap d.raw)) || d.marked = dscLen d.raw / 4096)

/-- What the descriptor's reads bring, put to use (R253, R256). -/
def Desc.readsIn (d : Desc) : Desc :=
  if d.op = 8 then Desc.readyCompare 256 d else if d.op = 0x0B then d else Desc.readyCopy 256 d

/-- This device's image of a line: its copy, or its backing memory (R359). -/
def Fabric.image (cfg : Cfg) (f : Fabric) (la : LAddr) : Line × Bool :=
  match cfg.regionOf la with
  | none => (0, false)
  | some r =>
    let way := f.cache.find cfg r.line la
    let back := r.backLine la
    if (f.cache.bits way (subOf la)).1 then
      let w := wordNow f.mem.hq f.mem.hbm (lineWord cfg way (subOf la))
      (w.data, w.pm)
    else if f.mem.marked (backPage back) then (0, false)
    else
      let w := wordNow f.mem.dq f.mem.ddr back
      (w.data, w.pm)

/-- A line request that is not this Harrow's to make: the partner's Harrow makes it, or has made it (R260).
DESIGN CHOICE (log entry 102): what it reads is taken from this device's image of the line (R359). -/
def Fabric.elsewhere (cfg : Cfg) (f : Fabric) (i : Issue) : Desc :=
  let la : LAddr := BitVec.ofNat 46 i.la
  match i.act with
  | .read =>
    let w := f.image cfg la
    Desc.readsIn { i.next with reads := i.next.reads ++ [(i.la, w.1, w.2)] }
  | .atomic e =>
    let done := i.next.marks.contains e
    let old := bitsOf (f.image cfg la).1.toNat (8 * bitsOf (unAddr i.hdr).toNat 0 6) (8 * unLen i.hdr)
    { i.next with wq := if done then i.next.wq else i.next.wq ++ batchBack i.next e old, wpos := e + 1 }
  | _ => i.next

/-- The line request is made here: this device is the line's active home, and neither device has made it. -/
def Fabric.madeHere (f : Fabric) (d : Desc) (i : Issue) : Bool :=
  f.acts d i.la &&
    (match d.markOf i.pass i.la with | some m => ¬ d.marks.contains m | none => true)

/-- Pass over the line requests that are not this Harrow's to make; a descriptor taken over goes through its
range once more, when what it has in flight is answered (R260). -/
def passOverN (cfg : Cfg) (tk : Nat) : Nat → Fabric → Fabric
  | 0, f => f
  | n + 1, f =>
    match f.desc tk with
    | none => f
    | some d =>
      if ¬ d.running then f
      else if d.rescan then
        if d.flight = [] then
          passOverN cfg tk n (f.modDesc tk (fun d =>
            { d with rescan := false, pos := dscStart d.raw, wpos := 0, mpos := 0, marked := 0, reads := [],
                     wq := if d.op = 0x0B then d.wq else [] }))
        else f
      else match f.nextIssue cfg d with
        | none => f
        | some i =>
          if f.madeHere d i then f
          else passOverN cfg tk n (f.modDesc tk (fun _ => f.elsewhere cfg i))

/-- The same, through a range of any length. -/
def Fabric.passOver (cfg : Cfg) (f : Fabric) (tk : Nat) : Fabric :=
  if f.homeOfAll && f.hrw.descs.any (fun d => d.ticket = tk && d.marks = [] && ¬ d.rescan) then f
  else passOverN cfg tk 100000 f

/-- End the descriptor when nothing of it is left to do (R257, R258, R260); one that a drain cuts short ends at
its step 2 (R259). -/
def Fabric.tryEnd (cfg : Cfg) (f : Fabric) (tk : Nat) : Fabric :=
  let f := markRunN cfg tk 64 (f.passOver cfg tk)
  match f.desc tk with
  | none => f
  | some d =>
    if d.recording || ¬ d.running || d.flight ≠ [] || d.gate.isSome || (d.stop = 2 && ¬ f.hrw.cutting) then f
    else
      let done := d.stop = 0 && f.exhausted cfg d
      if ¬ done && (d.stop = 0 || f.markDue d) then f
      else if done && ¬ f.homeOfAll && ¬ d.mirror && ¬ d.internal && ¬ d.partnerDone then f
      else f.conclude cfg d (decide (done))

/-- Issue one line request of a running descriptor, within LINES_INFLIGHT per slice (R250); one with no
line left to issue, and none in flight, ends (R257). -/
def Fabric.lineIssue (cfg : Cfg) (f : Fabric) (tk : Nat) : Fabric :=
  let f := f.passOver cfg tk
  match f.desc tk with
  | none => f
  | some d =>
    if ¬ d.running then f
    else match f.nextIssue cfg d with
      | none => f.tryEnd cfg tk
      | some i =>
        let la : LAddr := BitVec.ofNat 46 i.la
        if cfg.linesInflight ≤ f.hrw.inFlight (sliceOf la) then f
        else
          let k := d.nextK
          let f := f.modDesc tk (fun _ =>
            { i.next with nextK := k + 1, flight := i.next.flight ++ [(k, i.pass, i.la)] })
          let a : Arr := { lineArr 2 (.harrow tk k) (.harrow i.act) la with
            hdr := i.hdr, data := i.data, be := i.be, pois := i.pois, opnd := i.opnd }
          { f with arr := f.arr ++ [a] }

/-- Begin descriptors (R244); one whose range holds nothing to do ends at once (R257). -/
def Fabric.startNext (cfg : Cfg) (f : Fabric) : Fabric :=
  let g := f.startDesc cfg
  g.hrw.descs.foldl (fun h d => if d.running then h.tryEnd cfg d.ticket else h) g

/-- A drain's cut ends: the descriptors that had not started, after those that ran (R259). -/
def Fabric.cutRest (cfg : Cfg) (f : Fabric) : Fabric :=
  let cut := f.hrw.descs.filter (fun d => d.stop = 2 && ¬ d.mirror)
  let began := cut.any (fun d => d.running || d.recording || d.ending)
  if ¬ f.hrw.cutting || began then f
  else cut.foldl (fun f d => f.conclude cfg d false) f

/-- The progress mark of an answered line request is noted in twin mode; one whose effect had no record of its
own is logged now (R260). -/
def Fabric.lineMark (cfg : Cfg) (f : Fabric) (d : Desc) (pass la : Nat) : Fabric :=
  match d.markOf pass la with
  | none => f
  | some m =>
    let logged := d.op = 5 || d.op = 6 || pass = 1
    let f := if logged && ¬ dscZmap d.raw then f else f.logFree (hrwRec d.ticket d.queue none m false)
    if cfg.twinEn then f.modDesc d.ticket (fun d => { d with marks := d.marks ++ [m] }) else f

/-- A line request has reached its end point: progress advances (R247, R255 to R257). -/
def Fabric.lineAnswer (cfg : Cfg) (f : Fabric) (tk : Nat) : Fabric :=
  match f.hrw.answers.find? (fun a => a.ticket = tk) with
  | none => f
  | some a =>
    let f := { f with hrw := { f.hrw with
      answers := dropFirst (fun (x : HAns) => x.ticket = tk) f.hrw.answers } }
    match f.desc tk with
    | none => f
    | some d =>
      match d.flight.find? (fun x => x.1 = a.k) with
      | none => f
      | some (_, pass, la) =>
        let d0 := d
        let d := { d with flight := d.flight.filter (fun x => x.1 ≠ a.k) }
        if pass = 9 then
          let f := if dscIrq d.raw then f.raise 145 else f
          (f.retire cfg d).cutRest cfg
        else
          let op := d.op
          let reading := op = 7 || op = 8 || op = 9 || op = 0x0B
          let met := reading && a.pois && (pass = 0 || op = 0x0B && pass = 1)
          let d := { d with
            locked := match a.locked with | some k => addOnce k d.locked | none => d.locked
            transient := d.transient + b2n a.transient
            poisoned := d.poisoned + b2n met
            result := if (op = 1 || op = 2 || op = 3) && a.wrote then d.result + 1
                      else if op = 0x0B && pass = 1 && a.fail then d.result + 1 else d.result }
          let f := if met then
              { f with hrw := { f.hrw with poisoned := bvSat f.hrw.poisoned 1 } } else f
          let d := if op = 0x11 then
              { d with lockedCnt := d.lockedCnt + a.lockRes }
            else if op = 0x10 then
              { d with lockedCnt := d.lockedCnt + (if a.lockRes = 0 then 0 else 1),
                       notLocked := d.notLocked + (if a.lockRes = 0 then 1 else 0),
                       wq := if (dscFlags d.raw).testBit 7 && a.lockRes ≠ 0 && pass = 0 then
                           d.wq ++ ((match cfg.regionOf (BitVec.ofNat 46 la) with
                             | some r => if r.line then [la] else (List.range 64).map (fun k => la / 64 * 64 + k)
                             | none => []).map (fun x => (x, 0, 0, false)))
                         else d.wq }
            else if pass = 0 && reading then
              Desc.readsIn { d with reads := d.reads ++ [(la, a.data, a.pois)] }
            else if op = 0x0B && pass = 1 then
              { d with wq := d.wq ++ batchBack d d.wpos a.value, wpos := d.wpos + 1 }
            else d
          let before := d0
          let f := (f.modDesc tk (fun _ => d)).lineMark cfg before pass la
          (f.tryEnd cfg tk).cutRest cfg

/-- HARROW_ABORT (R258): a queued descriptor ends at once, a running one stops issuing. -/
def Fabric.abort (cfg : Cfg) (f : Fabric) (tk : Nat) : Fabric :=
  match f.desc tk with
  | none => f
  | some d =>
    if d.recording || d.ending || d.stop ≠ 0 then f
    else
      let f := f.modDesc tk (fun d => { d with stop := 1 })
      if d.running then f.tryEnd cfg tk
      else f.conclude cfg { d with stop := 1, pos := dscStart d.raw } false

/-- The descriptors of the host, BMC and agent queues that a drain cuts short (R259). -/
def Harrow.cutAll (h : Harrow) : List Desc :=
  modAll (fun (d : Desc) => d.queue < 49 && d.stop = 0 && ¬ d.recording && ¬ d.ending) (fun d => { d with stop := 2 })
    h.descs

/-- Step 1 of a drain: running descriptors stop issuing (R259). -/
def Fabric.harrowPause (f : Fabric) : Fabric :=
  { f with hrw := { f.hrw with paused := true, descs := f.hrw.cutAll } }

/-- Step 2 of a drain: the records of the cut descriptors that ran, then the ends of those that had not started
(R259). -/
def Fabric.harrowCut (cfg : Cfg) (f : Fabric) : Fabric :=
  let f := ({ f with hrw := { f.hrw with cutting := true } } : Fabric).svcRun cfg
  let f := { f with hrw := { f.hrw with descs := f.hrw.cutAll } }
  ((f.hrw.descs.filter (fun d => d.stop = 2 && d.running)).foldl (fun f d => f.tryEnd cfg d.ticket) f).cutRest cfg

end Sys2Proof.Machine
end

