-- ==== Sys2Proof/Machine/State.lean ====
section
/-! DEFINITION. The machine's state, its faults and refusals, and the state right after power-on
reset with PORST_N still asserted. -/
namespace Sys2Proof.Machine

/-- Why the machine stops. -/
inductive Fault where
  /-- Raised by PORST_RELEASE when TEST_EN is sampled 1: the device is held in manufacturing test
  and nothing in the manual applies (R529, Table 19.6).  Safe: no behaviour is claimed. -/
  | manufacturingTest
  deriving DecidableEq, Repr

/-- Why a command has no meaning. -/
inductive Refusal where
  /-- A command rejected by name in `exec`; no meaning answers with it.  Safe. -/
  | notModelled (mnemonic : String)
  deriving DecidableEq, Repr

/-- The state of the block: the commands that wait, and everything the spec gives the device. -/
structure State where
  /-- Commands waiting, first in first out. -/
  pending : List Instr
  /-- The applied configuration: every RWE field of every block. -/
  cfg : Cfg
  /-- Links, slices, Granary, caches, memories, ordering units, prefetch, Harrow, integrity, twin. -/
  fab : Fabric
  /-- The Steward: mailboxes, journal, flash, staged configuration, drain. -/
  stw : Stw
  /-- Interrupt controller and Oasis. -/
  irq : Irq
  /-- Power, clock and reset control, memory bring-up, sensors. -/
  pcr : Pcr
  /-- PCI Express endpoint. -/
  pci : Pci
  /-- The Weighbridge. -/
  wgb : Wgb
  deriving DecidableEq, Repr

/-- The fabric after the n-th power-on reset, with the fuses and repairs of the part; ports deliver
nothing until start-up has ended (R531). -/
def Fabric.cold (n : Nat) (fuses : List Word32) : Fabric :=
  { Fabric.init (Config.granaryKey n) fuses with draining := true }

/-- The machine right after power-on reset, PORST_N asserted (Table 12.7). -/
def State.reset : State :=
  { pending := [], cfg := Cfg.reset, fab := Fabric.cold 0 [], stw := Stw.init, irq := Irq.init,
    pcr := Pcr.init, pci := Pci.init, wgb := Wgb.init }

end Sys2Proof.Machine
end

