-- ==== Sys2Proof/Machine/Journal.lean ====
section
/-! DEFINITION. The configuration journal (R433 to R435) and its records, and the configuration as
an image of register words (R331, R433). -/
namespace Sys2Proof.Machine

/-! ## Records -/

/-- One bit of the CRC-32C division, least significant bit first. -/
def crc32Bit (c : Nat) : Nat := if c % 2 = 1 then (c / 2) ^^^ 0x82F63B78 else c / 2

/-- CRC-32C over a byte string. -/
def crc32c (l : List Nat) : Nat :=
  (l.foldl (fun c b => (List.range 8).foldl (fun c _ => crc32Bit c) (c ^^^ (b % 256))) (2 ^ 32 - 1)) ^^^ (2 ^ 32 - 1)

/-- Records that an entry takes: 52 bytes of BODY each, at least one (Table 15.10). -/
def JEntry.nrec (e : JEntry) : Nat := max 1 ((e.body.length + 51) / 52)

/-- The 64 bytes of record `i` of an entry. -/
def JEntry.record (e : JEntry) (i : Nat) : List Nat :=
  let body := (e.body.drop (52 * i)).take 52
  let head := (if i = 0 then [e.rtype, e.nrec] else [0xFF, i]) ++ leBytes e.key 2 ++ leBytes e.jseq 4
    ++ body ++ List.replicate (52 - body.length) 0
  head ++ leBytes (crc32c head) 4

/-- Every record of an entry. -/
def JEntry.records (e : JEntry) : List (List Nat) := (List.range e.nrec).map e.record

/-- Records of a list of entries. -/
def recCount (l : List JEntry) : Nat := l.foldl (fun n e => n + e.nrec) 0

/-- Records in the current segment, its header included (STW_JRNL.USED). -/
def Journal.used (j : Journal) : Nat := 1 + recCount j.entries

/-! ## Liveness (Table 15.12) -/

/-- Entry `e` is the latest of its type and KEY among `later` ones. -/
def JEntry.latest (e : JEntry) (later : List JEntry) : Bool :=
  ¬ later.any (fun x => x.rtype = e.rtype && x.key = e.key)

/-- Whether an entry is live, given the entries after it and the commit records that are live. -/
def JEntry.live (e : JEntry) (later : List JEntry) (commits : List Nat) : Bool :=
  ¬ e.gone && match e.rtype with
  | 0x10 => if e.key = 1 then ¬ later.any (fun x => x.rtype = 0x10 && x.key = 1)
            else e.key = 0 && ¬ later.any (fun x => x.rtype = 0x10)
  | 0x12 => ¬ later.any (fun x => x.rtype = 0x12)
  | 0x20 => commits.contains e.jseq
  | 0x30 => e.body.getD 1 0 = 2 || e.latest later
  | 0x31 => true
  | 0x32 => true
  | 0x33 => decide ((later.filter (fun x => x.rtype = 0x33)).length < 1024)
  | 0x50 => decide ((later.filter (fun x => x.rtype = 0x50)).length < 256)
  | _ => e.latest later

/-- The live entries, in JSEQ order. -/
def liveEntries (commits : List Nat) : List JEntry → List JEntry
  | [] => []
  | e :: rest => if e.live rest commits then e :: liveEntries commits rest else liveEntries commits rest

/-- Live commit records: those of completions not acknowledged, for 1 s (Table 15.12). -/
def Stw.liveCommits (w : Stw) (now : Nat) : List Nat :=
  (w.commits.filter (fun c => now < c.2.2 + 1000000)).map (fun c => c.2.1)

/-- Compaction (R435): the live entries move to the next segment, whose SEGSEQ is one higher; FULL
follows the records they fill. -/
def Journal.compact (j : Journal) (commits : List Nat) : Journal :=
  let l := liveEntries commits j.entries
  { j with entries := l, segSeq := j.segSeq + 1, segment := (j.segment + 1) % 4, compacting := false,
           full := decide (8192 < recCount l) }

/-- Append an entry; past 75 % of the segment compaction is due (R435). -/
def Journal.append (j : Journal) (rtype key : Nat) (body : List Nat) : Journal :=
  let e : JEntry := { jseq := j.nextSeq, rtype := rtype, key := key, body := body, gone := false }
  let j := { j with entries := j.entries ++ [e], nextSeq := j.nextSeq + 1 }
  { j with compacting := j.compacting || decide (12288 < j.used) }

/-- Append an entry to the Steward's journal. -/
def Stw.log (w : Stw) (rtype key : Nat) (body : List Nat) : Stw :=
  { w with jrnl := w.jrnl.append rtype key body }

/-- The body of the latest entry of a type and KEY. -/
def Journal.last (j : Journal) (rtype key : Nat) : Option (List Nat) :=
  ((j.entries.filter (fun e => e.rtype = rtype && e.key = key && ¬ e.gone)).getLast?).map (·.body)

/-- The number last committed: that of the latest applied record; 0 for an empty journal (R324). -/
def Journal.committed (j : Journal) : Nat :=
  match j.last 0x10 1 with
  | some b => leNat (b.take 4)
  | none => 0

/-- An entry that describes `key` is cleared by a command. -/
def Stw.clearEntries (w : Stw) (rtype key : Nat) (body : List Nat → Bool) : Stw :=
  let es := modAll (fun (e : JEntry) => e.rtype = rtype && e.key = key && body e.body)
    (fun (e : JEntry) => { e with gone := true }) w.jrnl.entries
  { w with jrnl := { w.jrnl with entries := es } }

/-! ## Configuration registers by BAR0 offset (Table 18.4) -/

/-- A register that holds RWE fields. -/
inductive CfgReg where
  | wlp (n : Nat) | twn | hom (s : Nat) | tag (s : Nat) | part (p : Nat) | rgn (n k : Nat)
  | ord | pfu | hrw | aperm (a : Nat) | gln
  deriving DecidableEq, Repr

/-- The instance number of an offset in an array of registers. -/
def instNo (off base stride n : Nat) : Option Nat :=
  if base ≤ off && off < base + n * stride && (off - base) % stride = 0 then some ((off - base) / stride)
  else none

/-- The register with RWE fields at an offset. -/
def cfgReg (off : Nat) : Option CfgReg :=
  if off = 0x1000 then some .ord
  else if off = 0x2000 then some .twn
  else if off = 0x7000 then some .pfu
  else if off = 0x9000 then some .hrw
  else if off = 0xA000 then some .gln
  else ((instNo off 0 0x40 16).map CfgReg.wlp)
    <|> ((instNo off 0x3000 0x10 8).map CfgReg.hom)
    <|> ((instNo off 0x5000 0x20 8).map CfgReg.tag)
    <|> ((instNo off 0x5100 4 16).map CfgReg.part)
    <|> ((instNo off 0x9100 4 32).map CfgReg.aperm)
    <|> (if 0x6000 ≤ off && off < 0x6800 && off % 4 = 0 && off % 0x20 < 0x18 then
          some (.rgn ((off - 0x6000) / 0x20) (off % 0x20 / 4)) else none)

/-- Word `k` of a region entry. -/
def RgnWords.word (r : RgnWords) (k : Nat) : Word32 :=
  match k with
  | 0 => r.attr | 1 => r.baseL | 2 => r.baseH | 3 => r.limitL | 4 => r.limitH | _ => r.back

/-- A region entry with word `k` replaced. -/
def RgnWords.setWord (r : RgnWords) (k : Nat) (x : Word32) : RgnWords :=
  match k with
  | 0 => { r with attr := x } | 1 => { r with baseL := x } | 2 => { r with baseH := x }
  | 3 => { r with limitL := x } | 4 => { r with limitH := x } | _ => { r with back := x }

/-- The value of a configuration register. -/
def CfgReg.get (r : CfgReg) (c : Cfg) : Word32 :=
  match r with
  | .wlp n => vget c.wlp 0 n | .twn => c.twn | .hom s => vget c.hom 0 s | .tag s => vget c.tag 0 s
  | .part p => vget c.part 0 p | .rgn n k => (vget c.rgn RgnWords.zero n).word k | .ord => c.ord
  | .pfu => c.pfu | .hrw => c.hrw | .aperm a => vget c.aperm 0 a | .gln => c.gln

/-- A configuration with one register replaced. -/
def CfgReg.set (r : CfgReg) (c : Cfg) (x : Word32) : Cfg :=
  match r with
  | .wlp n => { c with wlp := vset c.wlp n x }
  | .twn => { c with twn := x }
  | .hom s => { c with hom := vset c.hom s x }
  | .tag s => { c with tag := vset c.tag s x }
  | .part p => { c with part := vset c.part p x }
  | .rgn n k => { c with rgn := vmod c.rgn n (fun e => e.setWord k x) }
  | .ord => { c with ord := x }
  | .pfu => { c with pfu := x }
  | .hrw => { c with hrw := x }
  | .aperm a => { c with aperm := vset c.aperm a x }
  | .gln => { c with gln := x }

/-- The RWE bits of a register (the Access columns of its table). -/
def CfgReg.mask (r : CfgReg) : Nat :=
  match r with
  | .wlp _ => 0xFFFF001F | .twn => 0x03FFFFFF | .hom _ => 0x03FF03FF | .tag _ => 0x00FF007F
  | .part _ => 0x3FF
  | .rgn _ k => match k with
    | 0 => 0x000FFF3F | 1 => 0xFFFFFFFF | 2 => 0xFF | 3 => 0xFFFFFFFF | 4 => 0xFF | _ => 0x7FFFFFFF
  | .ord => 3 | .pfu => 0xFFFFFF7F | .hrw => 0x3FFF | .aperm _ => 0x01FFFFFF | .gln => 0x003FFFFF

/-- The bit of Table 18.1 of the owning block. -/
def CfgReg.block (r : CfgReg) : Nat :=
  match r with
  | .wlp _ => 0 | .twn => 1 | .hom _ => 2 | .tag _ => 3 | .part _ => 3 | .rgn _ _ => 3 | .ord => 4
  | .pfu => 5 | .hrw => 6 | .aperm _ => 6 | .gln => 7

/-- The power domain (PCR_PD_STAT bit) of the owning block: the domain of its fields. -/
def CfgReg.domain (r : CfgReg) : Nat :=
  match r with
  | .wlp n => n / 2 | .twn => 8 | .hom s => 10 + s | .tag s => 10 + s | .hrw => 31 | .aperm _ => 31
  | .gln => 31 | _ => 28

/-- A value holds no reserved encoding (R444). -/
def CfgReg.legal (r : CfgReg) (x : Nat) : Bool :=
  match r with
  | .wlp _ => bitsOf x 2 2 ≠ 3
  | .tag _ => bitsOf x 1 3 ≤ 4
  | .rgn _ 0 => bitsOf x 1 3 ≤ 4
  | _ => true

/-- Every configuration register in BAR0 order. -/
def cfgOffsets : List Nat :=
  (List.range 16).map (· * 0x40) ++ [0x1000, 0x2000] ++ (List.range 8).map (fun s => 0x3000 + s * 0x10)
    ++ (List.range 8).map (fun s => 0x5000 + s * 0x20) ++ (List.range 16).map (fun p => 0x5100 + 4 * p)
    ++ (List.range 64).flatMap (fun n => (List.range 6).map (fun k => 0x6000 + n * 0x20 + 4 * k))
    ++ [0x7000, 0x9000] ++ (List.range 32).map (fun a => 0x9100 + 4 * a) ++ [0xA000]

/-- The words of a configuration in BAR0 order. -/
def Cfg.words (c : Cfg) : List Nat :=
  cfgOffsets.map (fun o => match cfgReg o with | some r => (r.get c).toNat | none => 0)

/-- The bytes of a configuration image. -/
def Cfg.image (c : Cfg) : List Nat := c.words.flatMap (fun w => leBytes w 4)

/-- The SHA-384 digest of a configuration image (R331, Table 13.4). -/
def Cfg.digest (c : Cfg) : BitVec 384 := Config.sha384 c.image

/-- The configuration that an image holds. -/
def Cfg.ofImage (l : List Nat) : Cfg :=
  cfgOffsets.zipIdx.foldl (fun c p =>
    match cfgReg p.1 with
    | some r => r.set c (BitVec.ofNat 32 (leNat ((l.drop (4 * p.2)).take 4)))
    | none => c) Cfg.reset

/-- Journal an image as entries of type 0x11: `kind` 0 staged, 1 applied; an entry holds at most 16
records. -/
def Stw.logImage (w : Stw) (kind : Nat) (c : Cfg) : Stw :=
  (List.range 3).foldl (fun w i => w.log 0x11 (16 * kind + i) ((c.image.drop (832 * i)).take 832)) w

/-- The latest applied configuration; the reset values for an empty journal (R531). -/
def Journal.appliedCfg (j : Journal) : Cfg :=
  match j.last 0x11 16, j.last 0x11 17, j.last 0x11 18 with
  | some a, some b, some c => Cfg.ofImage (a ++ b ++ c)
  | _, _, _ => Cfg.reset

end Sys2Proof.Machine
end

