-- ==== Sys2Proof/Machine/Ordering.lean ====
section
/-! DEFINITION. The ordering units (chapter 8): acceptance, merging, forwarding, release in entry
order, markers, ordered tokens and end-point notices. -/
namespace Sys2Proof.Machine

/-! ## Readers -/

/-- The entry supplies data: a WrUncached, WrInvFull or WrPartial (R222). -/
def OItem.isWrite (x : OItem) : Bool :=
  x.kind = .entry && (x.op = .wrUncached || x.op = .wrInvFull || x.op = .wrPartial)

/-- The entry is a StCond or an Atomic: it overlaps its bytes and supplies nothing (R222). -/
def OItem.isAtom (x : OItem) : Bool := x.kind = .entry && (x.op = .stCond || x.op = .atomic)

/-- An entry of the buffer proper (R217). -/
def OItem.entry (x : OItem) : Bool := x.kind = .entry && x.inBuf

/-- Entries held in the buffer. -/
def Ord.entries (o : Ord) : List OItem := o.items.filter (·.entry)

/-- OCC (Table 8.9). -/
def Ord.occ (o : Ord) : Nat := o.entries.length

/-- How the ordering unit treats a request of an operation and region type (Table 8.2). -/
def ordKind (o : Op) (t : RType) : OKind :=
  match o with
  | .rdUncached => if t = .dev then .entry else .read
  | .rdOnce => .read
  | .ldResv => .ldresv
  | .cBar => .cbar
  | .resvClear => .resvClear
  | _ => .entry

/-- Table 8.1: the region type accepts the request. -/
def typeAccepts (o : Op) (t : Option RType) : Bool :=
  match o with
  | .cBar | .resvClear | .svcReq => true
  | .rdUncached | .wrUncached => t.isSome
  | _ => match t with | some .dev => false | some _ => true | none => false

/-! ## Merging (R221) -/

/-- The Line header of a merged write: the older write's fields under the new opcode. -/
def mergedHdr (op : Op) (x : OItem) : Slot :=
  if op = x.op then x.hdr
  else pack 128 [(0, 6, op.code), (6, 12, hTxid x.hdr), (18, 46, x.la.toNat),
    (64, 32, (reqRseq x.op x.hdr).toNat), (119, 1, b2n x.pois), (120, 8, x.tenant)]

/-- A write merged into an entry: its bytes overwrite the entry's where enabled; the entry keeps its
place and both Comps leave at its end point. -/
def OItem.merge (x y : OItem) : OItem :=
  let be := x.be ||| y.be
  let op : Op := if be = allEn then .wrInvFull
    else if x.op = .wrUncached && y.op = .wrUncached then .wrUncached else .wrPartial
  { x with op := op, hdr := mergedHdr op x, data := mergeLine x.data y.data y.be, be := be,
           txids := x.txids ++ y.txids }

/-- The youngest entry, where the write `y` may merge into it. -/
def Ord.mergeTarget (cfg : Cfg) (o : Ord) (y : OItem) : Option OItem :=
  let waiting := o.items.any (fun x => x.kind = .entry && ¬ x.inBuf)
  match o.entries.getLast? with
  | none => none
  | some x =>
    let barred := o.items.any (fun z => z.kind = .cbar && decide (x.id < z.id))
    if cfg.mergeEn && y.isWrite && x.isWrite && ¬ x.released && ¬ waiting && ¬ barred &&
        x.la = y.la && y.typ ≠ .dev && x.pois == y.pois && x.tenant = y.tenant
      then some x else none

/-! ## Forwarding (R222) -/

/-- Bytes that the entries of the buffer enable in a line. -/
def Ord.covered (o : Ord) (la : LAddr) : BitVec 64 :=
  o.entries.foldl (fun m x => if x.isWrite && x.la = la then m ||| x.be else m) 0

/-- The bytes of a line as the youngest entries give them. -/
def Ord.gather (o : Ord) (la : LAddr) : Line :=
  o.entries.foldl (fun d x => if x.isWrite && x.la = la then mergeLine d x.data x.be else d) 0

/-- Poison of the entries that supply bytes: the youngest one for each byte. -/
def Ord.gatherPoison (o : Ord) (la : LAddr) (be : BitVec 64) : Bool :=
  (o.entries.foldr (fun x (acc : BitVec 64 × Bool) =>
    if x.isWrite && x.la = la then
      let mine := x.be &&& acc.1
      (acc.1 &&& ~~~mine, acc.2 || (x.pois && mine ≠ 0))
    else acc) (be, false)).2

/-- Entries that overlap a request's bytes: enabled bytes, or the bytes of a StCond or Atomic. -/
def Ord.overlaps (o : Ord) (la : LAddr) (be : BitVec 64) : List Nat :=
  (o.entries.filter (fun x => (x.isWrite || x.isAtom) && x.la = la && x.be &&& be ≠ 0)).map (·.id)

/-- A read that the buffer can answer. -/
def Ord.forwards (cfg : Cfg) (o : Ord) (y : OItem) : Bool :=
  cfg.fwdEn && y.be &&& ~~~(o.covered y.la) = 0 &&
    ¬ o.entries.any (fun x => x.isAtom && x.la = y.la && x.be &&& y.be ≠ 0)

/-! ## Acceptance -/

/-- The ordering unit takes a request: forwarded, merged, entered, or waiting for an entry. -/
def Fabric.ordTake (cfg : Cfg) (f : Fabric) (a : Nat) (y : OItem) : Fabric :=
  let o := f.ordOf a
  let id := o.nextId
  match y.kind with
  | .read =>
    if o.forwards cfg y then
      let d := o.gather y.la
      let x := y.txids.headD 0
      let f := f.modOrd a (fun o => { o with forwarded := bvSat o.forwarded 1 })
      let tenant := match cfg.regionOf y.la with | some r => r.tenant | none => 0
      let m := mkData .compData x 0 .i (o.gatherPoison y.la y.be) false (reqCrit y.op y.hdr) tenant
        y.la 32 (keepBytes d y.be)
      (f.send a m).endLive a x
    else
      let item := { y with id := id, inBuf := true, waits := o.overlaps y.la y.be }
      f.modOrd a (fun o => { o with items := o.items ++ [item], nextId := id + 1 })
  | .ldresv =>
    let item := { y with id := id, inBuf := true, waits := o.overlaps y.la allEn }
    f.modOrd a (fun o => { o with items := o.items ++ [item], nextId := id + 1 })
  | .cbar | .resvClear =>
    let item := { y with id := id, inBuf := true }
    f.modOrd a (fun o => { o with items := o.items ++ [item], nextId := id + 1 })
  | .entry =>
    match o.mergeTarget cfg y with
    | some x =>
      let z := x.merge y
      f.modOrd a (fun o =>
        { o with items := modFirst (fun (w : OItem) => w.id = x.id) (fun _ => z) o.items,
                 merged := bvSat o.merged 1 })
    | none =>
      let waits := decide (256 ≤ o.occ) || o.items.any (fun x => x.kind = .entry && ¬ x.inBuf)
      let item := { y with id := id, inBuf := ¬ waits }
      f.modOrd a (fun o => { o with items := o.items ++ [item], nextId := id + 1 })

/-! ## Release -/

/-- The item `x`, behind the items `earlier`, may leave the ordering unit now (R219, R222 to R227,
R234). -/
def Ord.canGo (o : Ord) (earlier : List OItem) (x : OItem) : Bool :=
  let ents := earlier.filter (·.entry)
  let shortBefore := o.short.any (fun n => decide (n < x.id))
  if ¬ x.inBuf || earlier.any (fun z => z.kind = .cbar) || ents.any (fun z => z.typ = .dev) then false
  else match x.kind with
    | .entry =>
      ¬ x.released && ents.all (·.released) &&
        (ents = [] || (x.op ≠ .svcReq && o.lastSlice = some (sliceOf x.la))) &&
        (x.op ≠ .svcReq || ¬ shortBefore)
    | .read => x.waits.all (fun n => ¬ ents.any (fun z => z.id = n))
    | .ldresv => x.waits.all (fun n => ¬ ents.any (fun z => z.id = n))
    | .cbar => ents = [] && ¬ shortBefore
    | .resvClear => ents = []

/-- The first item that may leave. -/
def Ord.nextGo (o : Ord) : List OItem → List OItem → Option OItem
  | _, [] => none
  | earlier, x :: xs =>
    if o.canGo earlier x then some x else o.nextGo (earlier ++ [x]) xs

/-- The message that a released item becomes at its home slice. -/
def OItem.arr (x : OItem) (a : Nat) : Arr :=
  { cyc := 0, cls := 1, port := a / 2, half := a % 2,
    who := .agent a (if x.kind = .entry then some x.id else none), op := .req x.op, hdr := x.hdr,
    la := x.la, data := x.data, be := x.be, pois := x.pois, opnd := x.opnd, txids := x.txids }

/-- A reservation clear on its way to the slice that holds it; a ResvClear's TXID goes with it (R232, R234). -/
def clearArr (a : Nat) (la : LAddr) (txids : List Nat) : Arr :=
  { cyc := 0, cls := 1, port := a / 2, half := a % 2, who := .agent a none, op := .resvClear, hdr := 0, la := la,
    data := 0, be := 0, pois := false, opnd := 0, txids := txids }

/-- Release an item.  A LdResv for another slice than the last sends that one a clear first (R232). -/
def Fabric.ordGo (cfg : Cfg) (f : Fabric) (a : Nat) (x : OItem) : Fabric :=
  let gone := fun (f : Fabric) => f.modOrd a (fun o =>
    { o with items := dropFirst (fun (z : OItem) => z.id = x.id) o.items })
  let rel := fun (f : Fabric) (s : Option Nat) => f.modOrd a (fun o =>
    { o with items := modFirst (fun (z : OItem) => z.id = x.id) (fun z => { z with released := true })
               o.items, lastSlice := s })
  match x.kind with
  | .entry =>
    if x.op = .svcReq then
      let f := rel f none
      ({ f with hrw := { f.hrw with
        waiting := f.hrw.waiting ++ [(a, x.id, x.txids.headD 0, x.data)] } } : Fabric).svcRun cfg
    else
      let f := rel f (some (sliceOf x.la))
      { f with arr := f.arr ++ [x.arr a] }
  | .read => let f := gone f; { f with arr := f.arr ++ [x.arr a] }
  | .ldresv =>
    let f := gone f
    let f := match (f.ordOf a).resvAt with
      | some l => if sliceOf l ≠ sliceOf x.la then { f with arr := f.arr ++ [clearArr a l []] } else f
      | none => f
    let f := f.modOrd a (fun o => { o with resvAt := some x.la })
    { f with arr := f.arr ++ [x.arr a] }
  | .cbar => (gone f).bareComp a (x.txids.headD 0) .ok 0
  | .resvClear =>
    let f := gone f
    match (f.ordOf a).resvAt with
    | some l =>
      let f := f.modOrd a (fun o => { o with resvAt := none })
      { f with arr := f.arr ++ [clearArr a l x.txids] }
    | none => f.bareComp a (x.txids.headD 0) .ok 0

/-- Release what may leave agent `a`'s unit. -/
def ordRunN (cfg : Cfg) (a : Nat) : Nat → Fabric → Fabric
  | 0, f => f
  | n + 1, f =>
    let o := f.ordOf a
    match o.nextGo [] o.items with
    | none => f
    | some x => ordRunN cfg a n (f.ordGo cfg a x)

/-- Accept waiting requests while they merge into the youngest entry or an entry is free (R218, R221). -/
def ordPromoteN (cfg : Cfg) (a : Nat) : Nat → Fabric → Fabric
  | 0, f => f
  | n + 1, f =>
    let o := f.ordOf a
    match o.items.find? (fun x => x.kind = .entry && ¬ x.inBuf) with
    | none => f
    | some y =>
      let items := dropFirst (fun (z : OItem) => z.id = y.id) o.items
      match ({ o with items := items.filter (fun x => ¬ (x.kind = .entry && ¬ x.inBuf)) } : Ord).mergeTarget cfg y with
      | some x =>
        ordPromoteN cfg a n (f.modOrd a (fun o =>
          { o with items := modFirst (fun (w : OItem) => w.id = x.id) (fun _ => x.merge y) items,
                   merged := bvSat o.merged 1 }))
      | none =>
        if 256 ≤ o.occ then f
        else
          ordPromoteN cfg a n (f.modOrd a (fun o =>
            { o with items := items ++ [{ y with id := o.nextId, inBuf := true }], nextId := o.nextId + 1 }))

/-- Waiting requests are accepted when entries have become free. -/
def Fabric.ordPromote (cfg : Cfg) (f : Fabric) (a : Nat) : Fabric :=
  ordPromoteN cfg a (f.ordOf a).items.length f

/-- Release what may leave agent `a`'s unit. -/
def Fabric.ordRun (cfg : Cfg) (f : Fabric) (a : Nat) : Fabric :=
  ordRunN cfg a ((f.ordOf a).items.length + 1) f

/-- Release what may leave any unit. -/
def Fabric.ordAll (cfg : Cfg) (f : Fabric) : Fabric :=
  (List.range 32).foldl (fun f a => if (f.ordOf a).items = [] then f else f.ordRun cfg a) f

/-- An agent's orphans are done: the buffer is empty and nothing lacks its end point; the event comes where
there were orphaned writes (R238, R240). -/
def Fabric.orphansDone (f : Fabric) (a : Nat) : Fabric :=
  let o := f.ordOf a
  if o.orphaning && o.items = [] && o.short = [] then
    let f := f.modOrd a (fun o => { o with orphaning := false, orphaned := false })
    if o.orphaned then f.raise (128 + a / 2) else f
  else f

/-- An ordered token reaches agent `a`'s unit: the entry is freed and others may go (R219). -/
def Fabric.orderedToken (cfg : Cfg) (f : Fabric) (a : Nat) : Fabric :=
  let o := f.ordOf a
  match o.tokens with
  | [] => f
  | id :: rest =>
    let f := match o.items.find? (fun (x : OItem) => x.id = id) with
      | none => f.modOrd a (fun o => { o with tokens := rest })
      | some x =>
        let done : Bool := x.endp || x.op == Op.rdUncached
        f.modOrd a (fun o =>
          { o with tokens := rest, items := dropFirst (fun (z : OItem) => z.id = id) o.items,
                   short := if done then o.short else o.short ++ [id] })
    ((((f.ordPromote cfg a).ordRun cfg a).orphansDone a).arbAll cfg)

/-- An end-point notice reaches agent `a`'s unit (R226). -/
def Fabric.endPointNotice (cfg : Cfg) (f : Fabric) (a : Nat) : Fabric :=
  let o := f.ordOf a
  match o.notices with
  | [] => f
  | id :: rest =>
    let f := f.modOrd a (fun o =>
      { o with notices := rest, short := o.short.filter (fun n => n ≠ id),
               items := modFirst (fun (z : OItem) => z.id = id) (fun z => { z with endp := true }) o.items })
    (((f.ordRun cfg a).orphansDone a).arbAll cfg)

end Sys2Proof.Machine
end

