-- ==== Sys2Proof/Machine/Regs.lean ====
section
/-! DEFINITION. The direct registers of BAR0 (chapter 18): the value each holds in its block, the
copies that the endpoint keeps, and what a read returns. -/
namespace Sys2Proof.Machine

/-- A value cut to 32 bits out of fields (offset, width, value). -/
def word32 (fs : List (Nat × Nat × Nat)) : Nat := packNat fs % 2 ^ 32

/-- PCR_PD_STAT (Table 18.7): bit 29 shows the Weighbridge's own supply (R517). -/
def State.pdStat (s : State) : Nat := putBit s.pcr.pd.toNat 29 s.wgb.powered

/-- Power domain `i` is on. -/
def State.on (s : State) (i : Nat) : Bool := s.pdStat.testBit i

/-- The hottest sensor of a channel's DIMMs (Table 10.6). -/
def Bring.chanTemp (b : Bring) (c : Nat) : Nat :=
  [2 * c, 2 * c + 1].foldl (fun m i =>
    let t := vget b.dimm 0xFF i
    if t = 0xFF then m else max m t) 0

/-! ## Registers by block -/

/-- WLP_n registers (Tables 2.13 to 2.15, 3.16). -/
def State.wlpReg (s : State) (n k : Nat) : Nat :=
  let l0 := s.fab.link (2 * n)
  let l1 := s.fab.link (2 * n + 1)
  let err := fun (l : Link) => word32 [(0, 16, l.err.transient.toNat), (16, 8, l.err.lasting.toNat),
    (24, 8, l.err.fecUncorr.toNat)]
  let perr := fun (l : Link) => word32 [(0, 6, l.err.firstOp.toNat), (6, 4, l.err.firstWhy.toNat),
    (10, 1, b2n l.err.firstValid), (16, 8, l.err.count.toNat), (24, 8, l.err.tenantMis.toNat)]
  match k with
  | 0 => s.cfg.wlpWord n
  | 4 => word32 [(0, 4, l0.st.code), (4, 4, if s.cfg.split n then l1.st.code else 0),
      (8, 2, l0.rate.toNat), (10, 2, l0.width.toNat), (16, 8, (vget s.fab.laneFault 0 n).toNat)]
  | 8 => err l0
  | 0xC => err l1
  | 0x10 => perr l0
  | 0x14 => perr l1
  | _ => 0

/-- TWN registers (Tables 13.11 to 13.15). -/
def State.twnReg (s : State) (k : Nat) : Nat :=
  let t := s.fab.twin
  match k with
  | 0 => s.cfg.twn.toNat
  | 4 => word32 [(0, 3, t.pair.code), (3, 2, t.role.toNat), (5, 4, s.fab.tlink.st.code),
      (9, 2, t.witness.toNat), (11, 1, b2n t.strap), (12, 1, b2n t.disagree), (13, 4, t.disCode.toNat),
      (17, 1, b2n t.timeStep)]
  | 8 => word32 [(0, 13, t.outstanding.length), (13, 13, t.backlog.length)]
  | 0xC => word32 [(0, 16, t.dedupHits.toNat), (16, 8, t.failovers.toNat), (24, 8, t.voided.toNat)]
  | 0x10 => word32 [(0, 7, t.percent.toNat), (7, 1, b2n t.full)]
  | _ => 0

/-- GRN_b registers (Tables 5.9 to 5.11). -/
def Fabric.grnReg (f : Fabric) (b k : Nat) : Nat :=
  let g := vget f.gran.banks GrnBank.zero b
  match k with
  | 0 => word32 [(0, 8, g.locmis.toNat), (8, 8, g.locMis.toNat), (16, 8, g.displaceTo.toNat), (24, 8, g.corr.toNat)]
  | 4 => word32 [(0, 16, g.transient.toNat), (16, 4, g.lasting.toNat), (20, 1, b2n g.rebuild), (21, 1, b2n g.taintSet)]
  | 8 => word32 [(0, 22, g.capLoc.toNat), (22, 2, g.capKind.toNat), (24, 1, b2n g.capValid)]
  | _ => 0

/-- GRN_OCC_k (Table 5.12). -/
def Fabric.occReg (f : Fabric) (k : Nat) : Nat :=
  let c := vget f.gran.slots ⟨none, none⟩ k
  word32 [(0, 19, f.gran.count k), (19, 5, c.agent.getD 0), (24, 1, b2n c.agent.isSome), (25, 1, b2n c.walk.isSome)]

/-- TAG_s registers (Tables 6.8, 6.10 to 6.13). -/
def State.tagReg (s : State) (i k : Nat) : Nat :=
  let x := vget s.fab.sstat SliceStat.zero i
  match k with
  | 0 => (vget s.cfg.tag 0 i).toNat
  | 4 => word32 [(0, 16, x.noalloc.toNat), (16, 16, x.pinWait.toNat)]
  | 8 => word32 [(0, 22, s.fab.cache.sectorCount i)]
  | 0xC => word32 [(0, 28, s.fab.cache.dirtyCount s.cfg i)]
  | 0x10 => word32 [(0, 22, s.fab.cache.lockCount i)]
  | _ => 0

/-- PFU_s registers (Tables 7.6 to 7.8). -/
def Fabric.pfuReg (f : Fabric) (i k : Nat) : Nat :=
  let x := vget f.sstat SliceStat.zero i
  match k with
  | 0 => word32 [(0, 16, x.issued.toNat), (16, 16, x.dropped.toNat)]
  | 4 => word32 [(0, 16, x.used.toNat), (16, 16, x.late.toNat)]
  | 8 => word32 [(0, 16, x.cancelled.toNat), (16, 16, x.specDiscard.toNat)]
  | _ => 0

/-- DDC_c registers (Tables 10.6, 10.7). -/
def State.ddcReg (s : State) (c k : Nat) : Nat :=
  let d := vget s.pcr.bring.ddc ⟨0, 0, false, 0, 0, 0, 0, false, ⟨0, 0, 0, 0, 0⟩⟩ c
  if k = 0 then
    word32 [(0, 2, d.train.toNat), (2, 2, d.speed.toNat), (4, 1, b2n d.dpc2), (5, 3, d.rbits.toNat),
      (8, 4, d.idle), (12, 8, s.pcr.bring.chanTemp c), (20, 4, d.sppr), (24, 4, d.hppr), (28, 1, b2n d.out)]
  else
    let l := chanEntries true s.fab.mem.dq c
    word32 [(0, 9, l.length), (9, 9, (l.filter (·.write)).length),
      (18, 9, (l.filter (fun r => ¬ r.write && r.cls = 2)).length)]

/-- HBC_k_STAT (Table 10.5). -/
def HbcStat.word (h : HbcStat) : Nat :=
  word32 [(0, 2, h.train.toNat), (2, 16, h.laneRep.toNat), (18, 8, h.temp), (26, 4, h.pprDone), (30, 1, b2n h.hot)]

/-- DDC_ZM_s (Table 10.8). -/
def SliceStat.zmWord (x : SliceStat) : Nat :=
  word32 [(0, 16, x.zeroReads.toNat), (16, 12, x.pageFills.toNat), (28, 3, x.lost.toNat), (31, 1, b2n x.lostSet)]

/-- HRW registers (Tables 9.9 to 9.12). -/
def State.hrwReg (s : State) (k : Nat) : Nat :=
  let h := s.fab.hrw
  let own := h.descs.filter (fun d => ¬ d.mirror)
  let busy := fun (q : Nat) => own.any (fun d => d.queue = q)
  match k with
  | 0 => s.cfg.hrw.toNat
  | 4 => word32 ((List.range 16).map (fun q => (q, 1, b2n (busy q))) ++
      [(16, 1, b2n (busy 16)), (17, 1, b2n (busy 49 || busy 50)),
       (18, 5, (own.filter (·.running)).length), (23, 1, b2n h.paused), (24, 8, min 255 h.ring.length)])
  | 8 => word32 ((List.range 32).map (fun a => (a, 1, b2n (busy (17 + a)))))
  | 0xC => word32 [(0, 16, h.poisoned.toNat), (16, 8, h.aborted.toNat), (24, 8, h.refused.toNat)]
  | _ => 0

/-- Repairs that await the next epoch. -/
def Gln.pendingCount (g : Gln) : Nat := (g.repairs.filter (fun r => r.state = 1)).length

/-- GLN registers but for the tables by instance (Tables 11.14 to 11.16, 11.19, 11.20). -/
def State.glnReg (s : State) (k : Nat) : Nat :=
  let g := s.fab.gln
  match k with
  | 0 => s.cfg.gln.toNat
  | 4 => word32 [(0, 12, g.refetch.toNat), (12, 12, g.poisoned.toNat), (24, 8, g.poisonWr.toNat)]
  | 8 => word32 [(0, 16, g.hbmPasses.toNat), (16, 16, g.ddrPasses.toNat)]
  | 0xC => word32 [(0, 10, g.fuses.length), (10, 7, g.pendingCount), (17, 1, b2n (decide (512 ≤ g.fuses.length)))]
  | 0x10 => word32 [(0, 4, g.elogNext.toNat), (4, 1, b2n g.overrun)]
  | _ => 0

/-- GLN_ELOG_i words A to D (Tables 11.12, 11.13). -/
def Elog.word (e : Elog) (k : Nat) : Nat :=
  match k with
  | 0 => word32 [(0, 4, e.block.toNat), (4, 4, e.kind.toNat), (8, 1, b2n e.gleaner), (9, 1, b2n e.twin),
      (10, 3, e.altIdx.toNat), (24, 7, e.sym.toNat), (31, 1, b2n e.valid)]
  | 1 => bitsOf e.loc.toNat 0 32
  | 2 => word32 [(0, 16, bitsOf e.loc.toNat 32 16), (16, 8, e.altVal.toNat), (24, 8, e.tenant.toNat)]
  | _ => e.time.toNat

/-- PCR registers (Tables 12.12, 18.7 to 18.11); TIME_H is the latch. -/
def State.pcrReg (s : State) (k : Nat) : Nat :=
  let p := s.pcr
  match k with
  | 0 => word32 [(0, 1, b2n p.powerOn), (1, 1, b2n p.deviceRst), (2, 1, b2n p.unclean), (3, 1, b2n p.noWarning),
      (4, 1, b2n p.perstSeen), (8, 8, p.restarts), (16, 1, b2n s.stw.safe)]
  | 4 => s.pdStat
  | 8 => bitsOf s.fab.time.toNat 0 32
  | 0xC => s.pci.timeHi.toNat
  | 0x10 => p.cfgIgn.toNat
  | 0x14 => word32 [(0, 20, p.ignOff), (20, 4, p.ignBe), (31, 1, b2n p.ignValid)]
  | 0x18 => p.cond.toNat
  | _ => 0

/-- STW_MB_m_STS (Table 15.13). -/
def Mbox.status (b : Mbox) : Nat :=
  word32 [(0, 2, match b.st with | .idle => 0 | .busy => 1 | .done => 2), (2, 1, b2n b.bufViol),
    (3, 1, b2n b.dbViol), (4, 1, b2n b.lost), (16, 16, b.tag)]

/-- Mailbox `m`. -/
def Stw.mb (w : Stw) (m : Nat) : Mbox := vget w.mbox Mbox.init m

/-- STW_BOOT (Table 15.16). -/
def Stw.bootWord (w : Stw) : Nat :=
  word32 [(0, 2, w.running), (2, 1, w.preferred), (3, 1, b2n (decide (w.running < 2) && decide (w.running ≠ w.preferred))),
    (4, 1, b2n w.accepted), (5, 7, w.rollback)]

/-- STW_DRAIN (Table 12.11). -/
def Stw.drainWord (w : Stw) : Nat :=
  word32 [(0, 4, w.step), (4, 3, w.sub), (7, 1, b2n w.preclean), (16, 8, w.resumed)]

/-- STW_JRNL (Table 15.17). -/
def Journal.word (j : Journal) : Nat :=
  word32 [(0, 14, j.used), (14, 2, j.segment), (16, 1, b2n j.compacting), (17, 1, b2n j.full)]

/-- The STW registers after the mailboxes. -/
def State.stwReg (s : State) (k : Nat) : Nat :=
  match k with
  | 0x100 => s.stw.version
  | 0x104 => s.stw.bootWord
  | 0x108 => s.stw.jrnl.word
  | 0x10C => s.fab.epoch
  | 0x110 => s.stw.drainWord
  | _ => 0

/-! ## Interrupt registers -/

/-- Source `n` is a level source (Table 17.1). -/
def levelSource (n : Nat) : Bool := 200 ≤ n && n ≤ 223

/-- Source `n`. -/
def Irq.source (q : Irq) (n : Nat) : Src := vget q.src Src.zero n

/-- PENDING of a source (R477). -/
def Src.pending (x : Src) : Bool := x.count ≠ 0 && ¬ x.mask && x.target ≠ 0xFF

/-- The target number 0 to 95 that a target byte names: 64 vectors, then 32 agents. -/
def targetNo (b : Nat) : Option Nat :=
  if b < 64 then some b else if 0x80 ≤ b && b < 0xA0 then some (64 + (b - 0x80)) else none

/-- ACC of target `t`: the COUNTs of its pending sources, and what earlier routes accumulated for it
(R463, R479); 0 between steps 6 and 8 of a drain (R491). -/
def Irq.acc (q : Irq) (t : Nat) : Nat :=
  if q.quiet then 0
  else
    let now := q.src.toList.foldl (fun n x =>
      if x.pending && targetNo x.target.toNat = some t then n + x.count else n) 0
    let before := (q.old.filter (fun o => o.2.1 = t && ¬ (q.source o.1).mask)).foldl (fun n o => n + o.2.2) 0
    min 4095 (now + before)

/-- Target `t`'s coalescing entry. -/
def Irq.coalOf (q : Irq) (t : Nat) : Coal := vget q.coal Coal.zero t

/-- Events of a source not yet claimed or delivered. -/
def Irq.countOf (q : Irq) (n : Nat) : Nat :=
  min 4095 ((q.source n).count + (q.old.filter (fun o => o.1 = n)).foldl (fun k o => k + o.2.2) 0)

/-- IRQ_SRC_n (Table 17.5). -/
def Irq.srcWord (q : Irq) (n : Nat) : Nat :=
  let x := q.source n
  word32 [(0, 8, x.target.toNat), (8, 1, b2n x.mask), (9, 1, b2n (levelSource n)), (10, 1, b2n x.asserted),
    (11, 1, b2n x.pending), (12, 12, q.countOf n), (24, 1, b2n (q.list.contains n))]

/-- IRQ_VEC_v_STAT (Table 17.7). -/
def Irq.vecWord (q : Irq) (v : Nat) : Nat :=
  let c := q.coalOf v
  let l := vget q.claims [] v
  word32 [(0, 12, q.acc v), (12, 1, b2n c.start.isSome), (13, 1, b2n c.due), (14, 1, b2n (l ≠ [])),
    (15, 8, l.length)]

/-- IRQ_COAL_t (Table 17.8). -/
def Irq.coalWord (q : Irq) (t : Nat) : Nat := word32 [(0, 12, (q.coalOf t).ct), (12, 16, (q.coalOf t).tt)]

/-- IRQ_STAT (Table 17.9). -/
def Irq.statWord (q : Irq) : Nat := word32 [(0, 16, q.spurious), (16, 8, q.agentDrop), (24, 8, q.maskLate)]

/-- OAS_STAT (Table 17.10). -/
def Irq.oasWord (q : Irq) : Nat :=
  word32 [(0, 1, b2n q.watching), (1, 1, b2n (decide (0 < q.waking))), (8, 8, q.wakes), (16, 16, q.lost)]

/-- OAS_LIST_i (Table 17.11). -/
def Irq.listWord (q : Irq) (i : Nat) : Nat :=
  match q.list[i]? with
  | some n => word32 [(0, 8, n), (8, 1, 1), (9, 12, Tab.get q.latch 0 n)]
  | none => 0

/-! ## The whole map (Tables 18.4 to 18.6) -/

/-- The value that the register at an offset holds in its block; 0 for reserved space (R419),
doorbells and IRQ_VEC_v_CAUSE, whose read has its own command. -/
def State.live (s : State) (off : Nat) : Nat :=
  if off < 0x400 then s.wlpReg (off / 0x40) (off % 0x40)
  else match cfgReg off with
  | some r => (r.get s.cfg).toNat
  | none =>
    if 0x1100 ≤ off && off < 0x1200 then
      let o := s.fab.ordOf ((off - 0x1100) / 8)
      if off % 8 = 0 then word32 [(0, 9, o.occ), (16, 8, o.stcFail.toNat), (24, 8, o.orphan.toNat)]
      else word32 [(0, 16, o.merged.toNat), (16, 16, o.forwarded.toNat)]
    else if 0x2000 ≤ off && off < 0x2014 then s.twnReg (off - 0x2000)
    else if 0x3000 ≤ off && off < 0x3080 then
      let h := vget s.fab.homStat HomStat.zero ((off - 0x3000) / 0x10)
      if off % 0x10 = 4 then word32 [(0, 16, h.snpTransient.toNat), (16, 4, h.dead.toNat),
        (20, 8, h.holdEvict.toNat), (28, 4, h.fault.toNat)] else 0
    else if 0x4000 ≤ off && off < 0x4080 then s.fab.grnReg ((off - 0x4000) / 0x10) (off % 0x10)
    else if 0x4100 ≤ off && off < 0x4140 then s.fab.occReg ((off - 0x4100) / 4)
    else if 0x5000 ≤ off && off < 0x5100 then s.tagReg ((off - 0x5000) / 0x20) (off % 0x20)
    else if off = 0x7004 then s.fab.pfu.mode.toNat
    else if 0x7100 ≤ off && off < 0x7180 then s.fab.pfuReg ((off - 0x7100) / 0x10) (off % 0x10)
    else if 0x8000 ≤ off && off < 0x8010 then (vget s.pcr.bring.hbc ⟨0, 0, 0, 0, false⟩ ((off - 0x8000) / 4)).word
    else if 0x8100 ≤ off && off < 0x8160 then s.ddcReg ((off - 0x8100) / 8) (off % 8)
    else if 0x8200 ≤ off && off < 0x8220 then (vget s.fab.sstat SliceStat.zero ((off - 0x8200) / 4)).zmWord
    else if off = 0x8300 then s.pcr.bring.cap
    else if 0x9000 ≤ off && off < 0x9010 then s.hrwReg (off - 0x9000)
    else if 0xA000 ≤ off && off < 0xA014 then s.glnReg (off - 0xA000)
    else if 0xA100 ≤ off && off < 0xA150 then
      let b := vget s.fab.gln.blks GlnBlk.zero ((off - 0xA100) / 8)
      if off % 8 = 0 then word32 [(0, 16, b.corr.toNat), (16, 8, b.transient.toNat), (24, 8, b.lasting.toNat)]
      else b.ceOvf.toNat
    else if 0xA200 ≤ off && off < 0xA300 then
      (vget s.fab.gln.elog Elog.zero ((off - 0xA200) / 0x10)).word (off % 0x10 / 4)
    else if off = 0xB000 then s.wgb.stat.toNat
    else if off = 0xB004 then s.wgb.cur.ino
    else if off = 0xB008 then s.wgb.auditCnt
    else if 0xC000 ≤ off && off < 0xC01C then s.pcrReg (off - 0xC000)
    else if 0x200000 ≤ off && off < 0x200080 then
      if off % 8 = 0 then (s.stw.mb ((off - 0x200000) / 8)).status else 0
    else if 0x200100 ≤ off && off < 0x200114 then s.stwReg (off - 0x200000)
    else if 0x300000 ≤ off && off < 0x300400 then s.irq.srcWord ((off - 0x300000) / 4)
    else if 0x301000 ≤ off && off < 0x301200 then
      if off % 8 = 4 then s.irq.vecWord ((off - 0x301000) / 8) else 0
    else if 0x301400 ≤ off && off < 0x301580 then s.irq.coalWord ((off - 0x301400) / 4)
    else if off = 0x301600 then s.irq.statWord
    else if off = 0x301700 then s.irq.oasWord
    else if 0x301800 ≤ off && off < 0x301880 then s.irq.listWord ((off - 0x301800) / 4)
    else 0

/-- The power domain whose S fields the register at an offset holds; none for a register without S
fields, which is read as it stands. -/
def shadowDomain (off : Nat) : Option Nat :=
  if off < 0x400 then (if off % 0x40 ≤ 0x14 then some (off / 0x40 / 2) else none)
  else if 0x1100 ≤ off && off < 0x1200 then some ((off - 0x1100) / 8 / 4)
  else if 0x2000 ≤ off && off < 0x2014 then some 8
  else if 0x3000 ≤ off && off < 0x3080 then some (10 + (off - 0x3000) / 0x10)
  else if 0x4000 ≤ off && off < 0x4080 then some (10 + (off - 0x4000) / 0x10)
  else if 0x4100 ≤ off && off < 0x4140 then some 10
  else if 0x5000 ≤ off && off < 0x5100 then some (10 + (off - 0x5000) / 0x20)
  else if off = 0x7004 then some 10
  else if 0x7100 ≤ off && off < 0x7180 then some (10 + (off - 0x7100) / 0x10)
  else if 0x8000 ≤ off && off < 0x8010 then some (18 + (off - 0x8000) / 4)
  else if 0x8100 ≤ off && off < 0x8160 then some (22 + (off - 0x8100) / 8 / 2)
  else if 0x8200 ≤ off && off < 0x8220 then some (10 + (off - 0x8200) / 4)
  else if 0x9004 ≤ off && off < 0x9010 then some 31
  else if off = 0xA00C then some 28
  else if 0xA004 ≤ off && off < 0xA300 then some 31
  else if 0xB000 ≤ off && off < 0xB00C then some 29
  else if off = 0xC00C then none
  else if off = 0xC010 || off = 0xC014 then some 28
  else if 0xC000 ≤ off && off < 0xC01C then some 30
  else if 0x200100 ≤ off && off < 0x200114 then some 28
  else if 0x301700 ≤ off && off < 0x301880 then some 30
  else none

/-- The offsets of every register that holds S fields. -/
def shadowOffsets : List Nat :=
  (List.range 16).flatMap (fun n => [0, 4, 8, 0xC, 0x10, 0x14].map (· + n * 0x40))
    ++ (List.range 64).map (fun i => 0x1100 + 4 * i) ++ [0x2000, 0x2004, 0x2008, 0x200C, 0x2010]
    ++ (List.range 8).flatMap (fun i => [0x3000 + i * 0x10, 0x3004 + i * 0x10])
    ++ (List.range 8).flatMap (fun i => [0x4000, 0x4004, 0x4008].map (· + i * 0x10))
    ++ (List.range 16).map (fun k => 0x4100 + 4 * k)
    ++ (List.range 8).flatMap (fun i => [0x5000, 0x5004, 0x5008, 0x500C, 0x5010].map (· + i * 0x20))
    ++ [0x7004] ++ (List.range 8).flatMap (fun i => [0x7100, 0x7104, 0x7108].map (· + i * 0x10))
    ++ (List.range 4).map (fun k => 0x8000 + 4 * k) ++ (List.range 24).map (fun k => 0x8100 + 4 * k)
    ++ (List.range 8).map (fun k => 0x8200 + 4 * k) ++ [0x9004, 0x9008, 0x900C, 0xA004, 0xA008, 0xA00C, 0xA010]
    ++ (List.range 20).map (fun k => 0xA100 + 4 * k) ++ (List.range 64).map (fun k => 0xA200 + 4 * k)
    ++ [0xB000, 0xB004, 0xB008, 0xC000, 0xC004, 0xC008, 0xC010, 0xC014, 0xC018]
    ++ [0x200100, 0x200104, 0x200108, 0x20010C, 0x200110, 0x301700]
    ++ (List.range 32).map (fun i => 0x301800 + 4 * i)

/-- The copy of one register at a capture: that of a block without power keeps its value (R503). -/
def State.captureOne (s : State) (t : Tab Nat) (off : Nat) : Tab Nat :=
  match shadowDomain off with
  | some d => if s.on d then Tab.set t off (s.live off) else t
  | none => t

/-- Every powered block captures its S fields, and the copies are replaced (R501). -/
def State.capture (s : State) : Tab Nat := shadowOffsets.foldl s.captureOne s.pci.shadow

/-- The fields without the S code in a register that has S fields: PAIR_ROLE of TWN_STAT alone (Table 13.12). -/
def plainFields (off : Nat) : Nat := if off = 0x2004 then 2 ^ 11 else 0

/-- What a read of the register at an offset returns (R500, R501): the copy of its S fields, as captured last,
and every other field as it stands. -/
def State.readReg (s : State) (off : Nat) : Nat :=
  match shadowDomain off with
  | some _ =>
    let plain := plainFields off
    if plain = 0 then Tab.get s.pci.shadow (State.reset.live off) off
    else
      let w := fun (n : Nat) => BitVec.ofNat 32 n
      ((w (Tab.get s.pci.shadow (State.reset.live off) off) &&& ~~~ (w plain)) ||| (w (s.live off) &&& w plain)).toNat
  | none => s.live off

end Sys2Proof.Machine
end

