-- ==== Sys2Proof/Machine/Interrupts.lean ====
section
/-! DEFINITION. The interrupt controller and Oasis (chapter 17): counting, targets, timers, claims,
delivery to agents, masks, sleep and wake. -/
namespace Sys2Proof.Machine

/-! ## Targets -/

/-- Bring one target's due state and timer in line after its ACC changed from `old` (R479). -/
def Irq.retime (q : Irq) (t old : Nat) : Irq :=
  let n := q.acc t
  let c := q.coalOf t
  let c := if n = 0 then { c with due := false, armed := false, start := none }
    else { c with due := c.due || decide (c.ct ≤ n), armed := c.armed || decide (old = 0) }
  { q with coal := vset q.coal t c }

/-- Change the controller where the ACC of a target may change with it. -/
def Irq.change (q : Irq) (t : Option Nat) (g : Irq → Irq) : Irq :=
  match t with
  | none => g q
  | some t => (g q).retime t (q.acc t)

/-- Change source `n`. -/
def Irq.modSrc (q : Irq) (n : Nat) (g : Src → Src) : Irq := { q with src := vmod q.src n g }

/-- The target number of source `n`. -/
def Irq.targetOf (q : Irq) (n : Nat) : Option Nat := targetNo (q.source n).target.toNat

/-- `k` events of source `n` are counted (R477). -/
def Irq.count (q : Irq) (n k : Nat) : Irq :=
  q.change (q.targetOf n) (fun q => q.modSrc n (fun x => { x with count := min 4095 (x.count + k) }))

/-- An event reaches the controller: 0 an edge source's, 1 and 2 a level source asserted and
deasserted (R475, R477). -/
def Irq.arrive (q : Irq) (n kind : Nat) : Irq :=
  if kind = 0 then q.count n 1
  else if kind = 1 then
    let was := (q.source n).asserted
    let q := q.modSrc n (fun x => { x with asserted := true })
    if was then q else q.count n 1
  else q.modSrc n (fun x => { x with asserted := false })

/-- A coalescing timer expires: due where ACC is above 0 (R479). -/
def Irq.expire (q : Irq) (t now : Nat) : Irq :=
  let c := q.coalOf t
  match c.start with
  | none => q
  | some s =>
    if now < s + c.tt then q
    else { q with coal := vset q.coal t { c with start := none, due := c.due || decide (0 < q.acc t) } }

/-- The always-on edge starts the timers that wait for it (R479). -/
def Irq.edge (q : Irq) (now : Nat) : Irq :=
  { q with coal := q.coal.map (fun c => if c.armed then { c with armed := false, start := some now } else c) }

/-- The pending sources of a target with their COUNTs, in ascending order, what earlier routes
accumulated included. -/
def Irq.pendingOf (q : Irq) (t : Nat) : List (Nat × Nat) :=
  (List.range 256).filterMap (fun n =>
    let x := q.source n
    let now := if x.pending && targetNo x.target.toNat = some t then x.count else 0
    let before := if x.mask then 0 else
      (q.old.filter (fun o => o.1 = n && o.2.1 = t)).foldl (fun k o => k + o.2.2) 0
    if now + before = 0 then none else some (n, min 4095 (now + before)))

/-- Take what a target has accumulated: COUNTs and ACC 0, timer stopped (R482, R487). -/
def Irq.take (q : Irq) (t : Nat) : Irq × List (Nat × Nat) :=
  let l := q.pendingOf t
  let src := q.src.map (fun x =>
    if x.pending && targetNo x.target.toNat = some t then { x with count := 0 } else x)
  let old := q.old.filter (fun o => ¬ (o.2.1 = t && ¬ (q.source o.1).mask))
  let c := q.coalOf t
  ({ q with src := src, old := old, coal := vset q.coal t { c with due := false, armed := false, start := none } }, l)

/-! ## Claims (R481 to R486) -/

/-- Entry `v` of the MSI-X table. -/
def Pci.entry (p : Pci) (v : Nat) : Msix := vget p.msix Msix.zero v

/-- The bit of vector `v` in the pending-bit array: due, and held by a Mask bit (R481). -/
def State.pendingBit (s : State) (v : Nat) : Bool :=
  (s.irq.coalOf v).due && ((s.pci.entry v).mask || s.pci.funcMask)

/-- A due vector may be claimed (R481). -/
def State.claimable (s : State) (v : Nat) : Bool :=
  (s.irq.coalOf v).due && s.pci.msixEn && ¬ s.pci.funcMask && ¬ (s.pci.entry v).mask && s.pci.busMaster
    && ¬ s.pci.d3 && s.on 9 && vget s.irq.claims [] v = []

/-- The claim of vector `v`: its sources move to the claim list, and the MSI-X write leaves, from
L0 (R482). -/
def State.claim (s : State) (v : Nat) : State :=
  if ¬ s.claimable v then s
  else
    let (q, l) := s.irq.take v
    let es := l.map (fun (p : Nat × Nat) => (⟨p.1, p.2, (s.irq.source p.1).asserted⟩ : ClaimEnt))
    let e := s.pci.entry v
    { s with irq := { q with claims := vset q.claims v es },
             pci := { s.pci with l0 := true, out := s.pci.out ++ [.msix e.addr e.data] } }

/-- The value of a claim entry's read (Table 17.6, R485): a level source that was not asserted at
the claim, or has deasserted since, gives the spurious code. -/
def ClaimEnt.spurious (e : ClaimEnt) (q : Irq) : Bool :=
  levelSource e.source && ¬ (e.asserted && (q.source e.source).asserted)

/-- A read of IRQ_VEC_v_CAUSE: one entry leaves the claim list; a level source that is still
asserted is raised again (R483 to R485).  The value read is answered. -/
def Irq.cause (q : Irq) (v : Nat) : Irq × Nat :=
  match vget q.claims [] v with
  | [] => (q, 0)
  | e :: rest =>
    let sp := e.spurious q
    let w := word32 [(0, 8, if sp then 0xFF else e.source), (8, 12, if sp then 0 else e.count),
      (30, 1, b2n (rest ≠ [])), (31, 1, 1)]
    let q := { q with claims := vset q.claims v rest }
    if sp then ({ q with spurious := satAdd 16 q.spurious 1 }, w)
    else if levelSource e.source then (q.count e.source 1, w)
    else (q, w)

/-- MASK of source `n` is written (R480, R486); `late`: within 64 event cycles of a claim that moved
the source. -/
def Irq.setMask (q : Irq) (n : Nat) (mask late : Bool) : Irq :=
  if (q.source n).mask = mask then q
  else
    let listed := q.claims.toList.any (fun l => l.any (fun e => e.source = n))
    let ts := ((q.targetOf n).toList ++ (q.old.filter (fun o => o.1 = n)).map (fun o => o.2.1)).eraseDups
    let accs := ts.map (fun t => (t, q.acc t))
    let q := q.modSrc n (fun x => { x with mask := mask })
    let q := accs.foldl (fun q p => q.retime p.1 p.2) q
    if mask && late && listed then { q with maskLate := satAdd 8 q.maskLate 1 } else q

/-! ## Agent targets (R487, R488) -/

/-- A due agent target is delivered where its link is Active and credit is held: one EvtIrq per
pending source, in ascending source order. -/
def State.deliverAgent (s : State) (a : Nat) : State :=
  let l := s.fab.link a
  if a < 32 && (s.irq.coalOf (64 + a)).due && s.on 9 && l.st = .active && 0 < vget l.credit 0 clsEVT then
    let (q, es) := s.irq.take (64 + a)
    { s with irq := q, fab := es.foldl (fun f (p : Nat × Nat) => f.send a (mkEvtIrq p.1 p.2)) s.fab }
  else s

/-- The COUNTs of the sources routed to agent `a` are discarded and counted (R488). -/
def Irq.dropAgent (q : Irq) (a : Nat) : Irq :=
  let mine := fun (x : Src) => x.target.toNat = 0x80 + a
  let n := q.src.toList.foldl (fun n x => if mine x then n + x.count else n) 0
  let m := (q.old.filter (fun o => o.2.1 = 64 + a)).foldl (fun n o => n + o.2.2) 0
  let q := { q with src := q.src.map (fun x => if mine x then { x with count := 0 } else x),
                    old := q.old.filter (fun o => o.2.1 ≠ 64 + a),
                    agentDrop := satAdd 8 q.agentDrop (n + m) }
  q.retime (64 + a) 0

/-! ## Drain and resets (R491) -/

/-- Step 6 of a drain: no target is due and no timer runs until step 8. -/
def Irq.quieten (q : Irq) : Irq :=
  { q with quiet := true, coal := q.coal.map (fun c => { c with due := false, armed := false, start := none }) }

/-- Step 8: every ACC is computed afresh from the pending sources. -/
def Irq.resume (q : Irq) : Irq :=
  let q := { q with quiet := false }
  (List.range 96).foldl (fun q t => q.retime t 0) q

/-- The entries of a claim list that return their counts: those of edge sources, and of level
sources still asserted. -/
def Irq.returned (q : Irq) : List ClaimEnt :=
  q.claims.toList.flatMap (fun l => l.filter (fun e => ¬ levelSource e.source || (q.source e.source).asserted))

/-- A PCI Express reset discards every claim list (R491). -/
def Irq.discardClaims (q : Irq) : Irq :=
  let back := q.returned
  let q := { q with claims := Vector.replicate 64 [] }
  back.foldl (fun q e => q.count e.source e.count) q

/-! ## Oasis (R492, R493, R526) -/

/-- Oasis receives the events: the PCIe domain is off, or a wake has not handed over yet. -/
def Irq.oasisOn (q : Irq) : Bool := q.watching || decide (0 < q.waking)

/-- An event that reaches Oasis: latched where its source is listed, lost otherwise; the first latch
starts a wake. -/
def Irq.oasisEvent (q : Irq) (n kind : Nat) : Irq :=
  if kind = 2 then q.modSrc n (fun x => { x with asserted := false })
  else
    let q := if kind = 1 then q.modSrc n (fun x => { x with asserted := true }) else q
    if q.list.contains n then
      let q := { q with latch := Tab.set q.latch n (min 4095 (Tab.get q.latch 0 n + 1)) }
      if q.waking = 0 then { q with waking := 1, wakes := satAdd 8 q.wakes 1 } else q
    else { q with lost := satAdd 16 q.lost 1 }

/-- Every latch is added to its source's COUNT and cleared (Table 17.4 step 3). -/
def Irq.handOver (q : Irq) : Irq :=
  q.latch.foldl (fun q (p : Nat × Nat) => q.count p.1 p.2) { q with latch := [], waking := 0, watching := false }

/-- The PCIe domain goes off: what listed sources count is latched, what agent targets accumulated
is kept, and every other COUNT is discarded and counted as lost (R522, R526). -/
def Irq.powerOff (q : Irq) : Irq :=
  let q := q.discardClaims
  let keeps := fun (n : Nat) (x : Src) => q.list.contains n || (0x80 ≤ x.target.toNat && x.target.toNat < 0xA0)
  let ns := List.range 256
  let latch := ns.foldl (fun l n =>
    let k := q.countOf n
    if q.list.contains n && 0 < k then Tab.set l n (min 4095 (Tab.get l 0 n + k)) else l) q.latch
  let lost := ns.foldl (fun k n => if keeps n (q.source n) then k else k + q.countOf n) 0
  let src := Vector.ofFn (fun (i : Fin 256) =>
    let x := q.source i.val
    if 0x80 ≤ x.target.toNat && x.target.toNat < 0xA0 && ¬ q.list.contains i.val then x else { x with count := 0 })
  let coal := Vector.ofFn (fun (i : Fin 96) =>
    let c := q.coalOf i.val
    if 64 ≤ i.val then c else { c with due := false, armed := false, start := none })
  let q := { q with src := src, old := q.old.filter (fun o => 64 ≤ o.2.1), coal := coal, latch := latch,
                    lost := satAdd 16 q.lost lost, watching := true, spurious := 0, agentDrop := 0, maskLate := 0 }
  if latch ≠ [] && q.waking = 0 then { q with waking := 1, wakes := satAdd 8 q.wakes 1 } else q

/-- PME_Status set and PM_PME sent where a vector is due in D3hot and PME is enabled (R490). -/
def State.pme (s : State) : State :=
  let due := (List.range 64).any (fun v => (s.irq.coalOf v).due)
  if s.pci.d3 && s.pci.pmeEn && ¬ s.pci.pmeStatus && due && s.on 9 then
    { s with pci := { s.pci with pmeStatus := true, l0 := true, out := s.pci.out ++ [.pme] } }
  else s

/-! ## Commands of class 0x08 (R463, R464) -/

/-- One route entry: accumulated events stay with the old target, a COUNT held without a target is
discarded (R463, R478). -/
def Irq.routeOne (q : Irq) (n tgt : Nat) : Irq :=
  let x := q.source n
  if x.target.toNat = tgt then q
  else match targetNo x.target.toNat with
  | none => q.modSrc n (fun x => { x with target := BitVec.ofNat 8 tgt, count := 0 })
  | some t =>
    if x.mask then
      let q := q.modSrc n (fun x => { x with target := BitVec.ofNat 8 tgt })
      q
    else
      let old := if x.count = 0 then q.old else q.old ++ [(n, t, x.count)]
      { q with old := old }.modSrc n (fun x => { x with target := BitVec.ofNat 8 tgt, count := 0 })

/-- IRQ_COALESCE of a target: a COUNT at or below ACC makes it due at once (R463). -/
def Irq.coalesce (q : Irq) (t ct tt : Nat) : Irq :=
  let c := q.coalOf t
  { q with coal := vset q.coal t { c with ct := ct, tt := tt,
                                          due := c.due || (decide (0 < q.acc t) && decide (ct ≤ q.acc t)) } }

end Sys2Proof.Machine
end

