-- ==== Sys2Proof/Machine/Mailbox.lean ====
section
/-! DEFINITION. Host mailboxes and the SMBus mailbox (R421 to R432), the taking of commands (R424,
R438 to R441) and their completion (R422, R427, R428). -/
namespace Sys2Proof.Machine

/-! ## Changes of one part of the state -/

/-- Change the Steward. -/
def State.modStw (s : State) (g : Stw → Stw) : State := { s with stw := g s.stw }
/-- Change mailbox `m`. -/
def State.modMb (s : State) (m : Nat) (g : Mbox → Mbox) : State :=
  { s with stw := { s.stw with mbox := vmod s.stw.mbox m g } }
/-- Raise an event source. -/
def State.raise (s : State) (n : Nat) : State := { s with fab := s.fab.raise n }
/-- Assert or deassert a level source. -/
def State.level (s : State) (n : Nat) (b : Bool) : State := { s with fab := s.fab.level n b }
/-- An error reported through AER (Table 15.4). -/
def State.aer (s : State) (bit : Nat) : State :=
  { s with pci := { s.pci with aer := BitVec.ofNat 3 (putBit s.pci.aer.toNat bit true) } }
/-- Memory requests reach BAR0: the PCIe domain is on, Memory Space is enabled and the function is
in D0 (R417, R420). -/
def State.mmio (s : State) : Bool := s.on 9 && s.pci.memSpace && ¬ s.pci.d3
/-- A memory request that the endpoint does not take: Unsupported Request, where the endpoint is
powered at all. -/
def State.unsupported (s : State) : State := if s.on 9 then s.aer 1 else s

/-! ## Buffers (R421, R422, R431) -/

/-- Bytes of the command region, and of the response region, of mailbox `m`. -/
def regionSize (m : Nat) : Nat := if m = 16 then 0x1000 else 0x8000
/-- Largest payload or response of mailbox `m`. -/
def payloadMax (m : Nat) : Nat := regionSize m - 8
/-- Byte `i` of a buffer. -/
def Mbox.byte (b : Mbox) (i : Nat) : Nat := Tab.get b.buf 0 i
/-- `n` bytes of a buffer as a little-endian number. -/
def Mbox.field (b : Mbox) (off n : Nat) : Nat := leNat ((List.range n).map (fun i => b.byte (off + i)))
/-- Write bytes from an offset on; a byte that is not enabled stays. -/
def Mbox.put (b : Mbox) (off : Nat) (bytes : List (Option Nat)) : Mbox :=
  let buf := bytes.zipIdx.foldl (fun t (p : Option Nat × Nat) =>
    match p.1 with
    | some x => Tab.put 0 t (off + p.2) (x % 256)
    | none => t) b.buf
  { b with buf := buf }
/-- OPCODE. -/
def Mbox.opcode (b : Mbox) : Nat := b.field 0 2
/-- TAG of the command region. -/
def Mbox.cmdTag (b : Mbox) : Nat := b.field 2 2
/-- LENGTH. -/
def Mbox.length (b : Mbox) : Nat := b.field 4 4
/-- Reserved bytes of the payload, given as offsets and lengths, are zero (Table 15.8). -/
def Mbox.clean (b : Mbox) (l : List (Nat × Nat)) : Bool :=
  l.all (fun r => b.field (8 + r.1) r.2 = 0)
/-- A field of the payload. -/
def Mbox.pay (b : Mbox) (off n : Nat) : Nat := b.field (8 + off) n
/-- Payload bytes. -/
def Mbox.payBytes (b : Mbox) (off n : Nat) : List Nat := (List.range n).map (fun i => b.byte (8 + off + i))

/-- A host or BMC write of a buffer, judged by the mailbox's state (Table 15.7). -/
def Mbox.write (b : Mbox) (m off : Nat) (bytes : List (Option Nat)) : Mbox :=
  if off < regionSize m && b.st = .idle then b.put off bytes else { b with bufViol := true }

/-- A host write to buffer `m` (R417, R418, R422). -/
def State.bufferWrite (s : State) (m off : Nat) (bytes : List (Option Nat)) (poisoned : Bool) : State :=
  if ¬ s.mmio then s.unsupported
  else if poisoned then s.aer 2
  else if 16 ≤ m || 2 * regionSize m ≤ off then s
  else if off % 4 ≠ 0 || bytes.length % 4 ≠ 0 || bytes.length < 4 || 64 < off % 64 + bytes.length then s.aer 0
  else s.modMb m (fun b => b.write m off bytes)

/-! ## Doorbells (R422, R424) -/

/-- Insert a doorbell: by the Steward cycle in which it crossed, then by mailbox number. -/
def insBell (x : Nat × Nat) : List (Nat × Nat) → List (Nat × Nat)
  | [] => [x]
  | y :: ys => if x.1 < y.1 || (x.1 = y.1 && x.2 < y.2) then x :: y :: ys else y :: insBell x ys

/-- GO: in IDLE the mailbox becomes BUSY; `same` tells that the doorbell crosses in the Steward
cycle of the one before it. -/
def State.go (s : State) (m : Nat) (same : Bool) : State :=
  if (s.stw.mb m).st = .idle then
    let k := if same then s.stw.batch else s.stw.batch + 1
    let s := s.modMb m (fun b => { b with st := .busy, phase := .bell, faults := 0, rerun := false, discard := false })
    s.modStw (fun w => { w with batch := k, bells := insBell (k, m) w.bells })
  else s.modMb m (fun b => { b with dbViol := true })

/-- ACK: in DONE the mailbox returns to IDLE and its level source deasserts. -/
def State.ack (s : State) (m : Nat) : State :=
  if (s.stw.mb m).st = .done then
    let s := s.modMb m (fun b => { b with st := .idle })
    let s := s.modStw (fun w => { w with commits := w.commits.filter (fun c => c.1 ≠ m) })
    if m = 16 then s else s.level (200 + m) false
  else s.modMb m (fun b => { b with dbViol := true })

/-- The SMBus alert line. -/
def State.alert (s : State) (low : Bool) : State :=
  if s.stw.smbAlert = low then s
  else { s with stw := { s.stw with smbAlert := low }, pci := { s.pci with out := s.pci.out ++ [.smbalert low] } }

/-! ## The command table (chapter 16) -/

/-- The Kind column: Q, S or U (R439). -/
inductive Kind where
  | q | s | u
  deriving DecidableEq, Repr

/-- Commands with a fixed payload, part 1: opcode, kind, payload bytes. -/
def fixedCmds1 : List (Nat × Kind × Nat) :=
  [(0x0101, Kind.q, 0), (0x0102, Kind.q, 0), (0x0201, Kind.s, 8), (0x0204, Kind.s, 0), (0x0205, Kind.q, 0),
   (0x0206, Kind.q, 0), (0x0207, Kind.q, 0), (0x0301, Kind.q, 8), (0x0302, Kind.q, 8), (0x0303, Kind.q, 8),
   (0x0401, Kind.s, 24), (0x0402, Kind.s, 24), (0x0403, Kind.q, 0), (0x0404, Kind.q, 8), (0x0501, Kind.s, 64),
   (0x0502, Kind.q, 8), (0x0503, Kind.u, 8), (0x0504, Kind.s, 8), (0x0601, Kind.q, 8), (0x0602, Kind.s, 8)]

/-- Commands with a fixed payload, part 2: opcode, kind, payload bytes. -/
def fixedCmds2 : List (Nat × Kind × Nat) :=
  [(0x0603, Kind.q, 8), (0x0604, Kind.s, 8), (0x0605, Kind.s, 72), (0x0606, Kind.s, 8), (0x0607, Kind.q, 8),
   (0x0608, Kind.s, 8), (0x0701, Kind.s, 8), (0x0702, Kind.q, 0), (0x0703, Kind.q, 0), (0x0704, Kind.u, 8),
   (0x0705, Kind.s, 0), (0x0802, Kind.s, 8), (0x0803, Kind.s, 40), (0x0804, Kind.q, 0), (0x0901, Kind.q, 16),
   (0x0902, Kind.q, 32), (0x0903, Kind.q, 24), (0x0904, Kind.q, 24), (0x0905, Kind.q, 0), (0x0906, Kind.s, 16)]

/-- Commands with a fixed payload, part 3: opcode, kind, payload bytes. -/
def fixedCmds3 : List (Nat × Kind × Nat) :=
  [(0x0907, Kind.s, 0), (0x0908, Kind.s, 0), (0x0A02, Kind.s, 8), (0x0A03, Kind.s, 8), (0x0A04, Kind.s, 8),
   (0x0A05, Kind.q, 0), (0x0A06, Kind.u, 8), (0x0A07, Kind.s, 8), (0x0A08, Kind.q, 8), (0x0A09, Kind.s, 0),
   (0x0B01, Kind.u, 8), (0x0B02, Kind.q, 8), (0x0B03, Kind.q, 0)]

/-- Commands with a fixed payload: opcode, kind, payload bytes. -/
def fixedCmds : List (Nat × Kind × Nat) := fixedCmds1 ++ fixedCmds2 ++ fixedCmds3

/-- The kind of an opcode; none for one that no table gives (R438). -/
def cmdKind (op : Nat) : Option Kind :=
  if op = 0x0202 || op = 0x0801 || op = 0x0A01 then some .s
  else if op = 0x0203 then some .q
  else (fixedCmds.find? (fun c => c.1 = op)).map (fun c => c.2.1)

/-- Bytes of the response that a counted request asks for (R441). -/
def askedBytes (op : Nat) (b : Mbox) : Nat :=
  if op = 0x0203 then 4 * b.pay 4 4
  else if op = 0x0302 then 24 * b.pay 2 1
  else if op = 0x0303 then 16 * b.pay 4 2
  else if op = 0x0503 then 8 + 64 * b.pay 4 2
  else if op = 0x0603 then 20 * b.pay 4 2
  else if op = 0x0607 then 8 + 16 * b.pay 4 2
  else if op = 0x0903 then 16 + 64 * (b.pay 2 2 + 3)
  else if op = 0x0904 then 16 + 64 * (b.pay 4 2 + 3)
  else if op = 0x0A08 then 8 + 64 * b.pay 4 2
  else if op = 0x0B02 then b.pay 4 2
  else 0

/-- LENGTH is permitted for the opcode (R438), and on the SMBus mailbox the count keeps the response
within its limit (R441). -/
def lengthOk (m op : Nat) (b : Mbox) : Bool :=
  let len := b.length
  let size : Bool :=
    if op = 0x0202 then 1 ≤ b.pay 0 4 && b.pay 0 4 ≤ 2729 && len = 8 + 12 * b.pay 0 4
    else if op = 0x0203 then 1 ≤ b.pay 4 4 && b.pay 4 4 ≤ 8188 && len = 8 + 4 * b.pay 4 4
    else if op = 0x0801 then 1 ≤ b.pay 0 2 && b.pay 0 2 ≤ 256 && len = 8 + 4 * b.pay 0 2
    else if op = 0x0A01 then decide (len = 16 + b.pay 8 4)
    else fixedCmds.any (fun c => c.1 = op && c.2.2 = len)
  size && len ≤ payloadMax m && (m ≠ 16 || askedBytes op b ≤ payloadMax m)

/-! ## Completion (R422, R427, R428) -/

/-- The header and response of a completion. -/
def Mbox.respond (b : Mbox) (m status : Nat) (resp : List Nat) : Mbox :=
  let hdr := leBytes status 2 ++ leBytes b.cmdTag 2 ++ leBytes resp.length 4
  b.put (regionSize m) ((hdr ++ resp).map some)

/-- The commit record of a state-changing command (R428): mailbox, TAG, OPCODE, STATUS and the
response where it has at most 40 bytes, ACK_SEQ in its place for HARROW_REAP. -/
def commitBody (b : Mbox) (m status : Nat) (resp : List Nat) : List Nat :=
  let tail := if b.opcode = 0x0503 then leBytes (b.pay 0 4) 4 else if resp.length ≤ 40 then resp else []
  [m] ++ leBytes b.cmdTag 2 ++ leBytes b.opcode 2 ++ leBytes status 2 ++ tail

/-- The mailbox takes the completion: DONE, its source asserted or SMBALERT_N driven; where a PCI
Express reset discards the completion, IDLE with LOST (R422, R429, R431). -/
def State.answer (s : State) (m status : Nat) (resp : List Nat) : State :=
  let b := s.stw.mb m
  let drop := fun (w : Stw) => { w with sq := w.sq.filter (fun x => x ≠ m), uq := w.uq.filter (fun x => x ≠ m),
                                        longs := w.longs.filter (fun l => l.1 ≠ m) }
  if b.discard then
    (s.modMb m (fun b => { b with st := .idle, lost := true, discard := false })).modStw drop
  else
    let s := (s.modMb m (fun b => { b.respond m status resp with st := .done })).modStw drop
    if m = 16 then s.alert true else s.level (200 + m) true

/-- Complete the command of mailbox `m`: its commit record first where it changes state, a success
after a restart or a retry with its own status.  A completed EPOCH_APPLY sets the LAST fields (R446). -/
def State.complete (s : State) (m status : Nat) (resp : List Nat) : State :=
  let b := s.stw.mb m
  let st := if status ≠ 0 then status else if b.rerun then 0x06F1 else if b.faults = 1 then 0x06F0 else 0
  let s := match cmdKind b.opcode with
    | some .q => s
    | none => s
    | some _ =>
      let seq := s.stw.jrnl.nextSeq
      s.modStw (fun w => { w.log 0x20 m (commitBody b m st resp) with
        commits := w.commits.filter (fun (c : Nat × Nat × Nat) => c.1 ≠ m) ++ [(m, seq, s.pcr.aon)] })
  let last := fun (w : Stw) => if b.opcode = 0x0201 then
    { w with lastTag := b.cmdTag, lastMb := m, lastStatus := st, lastEpoch := s.fab.epoch } else w
  (s.modStw last).answer m st resp

/-! ## Taking commands (R424, R440) -/

/-- Safe mode and the stopped state serve these classes only. -/
def servedAlways (op : Nat) : Bool := op / 256 = 1 || op / 256 = 0x0A

/-- The status that a command outside these classes meets in safe mode and after DEVICE_STOP; 0 where
it is served (R440). -/
def State.notServed (s : State) (op : Nat) : Nat :=
  if servedAlways op then 0
  else if s.stw.safe then 0x02F0
  else if s.pcr.byStop then 0x02F2
  else 0

/-- The status with which a command completes at the check of its header and the Steward's state; 0
where it goes on. -/
def State.takeStatus (s : State) (m : Nat) : Nat :=
  let b := s.stw.mb m
  match cmdKind b.opcode with
  | none => 0x01F0
  | some _ =>
    if ¬ lengthOk m b.opcode b then 0x01F1
    else s.notServed b.opcode

/-- The Steward takes the next command in doorbell order; before any firmware runs it takes ID_GET
alone (R443).  `faults` is how many of its runs meet an internal fault (R427). -/
def State.take (s : State) (faults : Nat) : State :=
  match s.stw.bells.find? (fun x => s.stw.up || (s.on 28 && (s.stw.mb x.2).opcode = 0x0101)) with
  | none => s
  | some x =>
    let m := x.2
    let s := s.modStw (fun w => { w with bells := w.bells.filter (fun y => y.2 ≠ m) })
    let s := s.modMb m (fun b => { b with phase := .taken, faults := faults, tag := b.cmdTag })
    let st := s.takeStatus m
    if st ≠ 0 then s.answer m st []
    else match cmdKind (s.stw.mb m).opcode with
    | some .s => s.modStw (fun w => { w with sq := w.sq ++ [m] })
    | some .u => s.modStw (fun w => { w with uq := w.uq ++ [m] })
    | _ => s

/-! ## Lasting faults of the Steward (R337, R409, R413) -/

/-- The preferred slot: that of the latest slot record, A where the journal holds none (R409). -/
def Journal.preferred (j : Journal) : Nat := match j.last 0x60 0 with | some b => b.headD 0 % 2 | none => 0

/-- The boot ROM begins to load: slot `slot`, the other one where it is not valid. -/
def State.load (s : State) (slot : Nat) (last : Bool) : State :=
  s.modStw (fun w => { w with up := false, safe := false, running := 0, version := 0, imgRollback := 0, accepted := false,
                              preferred := 0, loading := some (slot, last) })

/-- The Steward enters safe mode (R337, R440), with a goodbye to the partner (R363). -/
def State.enterSafe (s : State) : State :=
  let s := if s.fab.twin.pair ≠ .single then ({ s with fab := s.fab.sendCtl 4 0 } : State) else s
  (s.modStw (fun w => { w with safe := true, running := 2, version := 0, imgRollback := 0, accepted := false,
                               preferred := w.jrnl.preferred, loading := none })).raise 227

/-- The mailbox has a command that the Steward has taken and not completed. -/
def Mbox.unfinished (b : Mbox) : Bool := b.st = .busy && b.phase ≠ .bell

/-- The mailboxes as a restart finds them: what was taken and not completed runs again (R337). -/
def Stw.rerunAll (w : Stw) : Vector Mbox 17 := w.mbox.map (fun (b : Mbox) => if b.unfinished then { b with rerun := true } else b)

/-- A lasting fault of the firmware, which is a second expiry within 1 s or a second failure of one command: the
Steward restarts from the other image, which for a newly activated one is the image that ran before it and is
preferred again; where that image has been tried already, it enters safe mode (R337, R413). -/
def State.lastingStw (s : State) : State :=
  let tried := s.stw.otherTried
  let run := s.stw.running
  let s := s.modStw (fun w => { w with lastExpiry := some s.pcr.aon, otherTried := true, mbox := w.rerunAll })
  if tried then (s.modStw (fun w => { w with up := false })).enterSafe
  else
    let s := match s.stw.trial with
      | some old => (s.modStw (fun w => { w.log 0x60 0 [old] with trial := none })).raise 241
      | none => s
    (s.load (1 - run) true).raise 227

/-- Both runs of the command of mailbox `m` failed: it completes without effect, and the fault is lasting, so that
the Steward restarts from the other image (R337, R427); the boot ROM has no other. -/
def State.failed (s : State) (m : Nat) : State :=
  let s := s.complete m 0x04F0 []
  if s.stw.up && ¬ s.stw.safe then s.lastingStw else s

/-! ## Running commands -/

/-- A drain, or its preclean, runs. -/
def Stw.busy (w : Stw) : Bool := w.step ≠ 0 || w.preclean

/-- The mailboxes whose drain waits for the present one (R325). -/
def Stw.waiters (w : Stw) : List Nat :=
  w.waiting.filterMap (fun d => match d.1 with | .apply m => some m | .stop m => some m | _ => none)

/-- The mailbox whose drain runs. -/
def Stw.owner (w : Stw) : Option Nat :=
  if w.busy then (match w.by_ with | .apply m => some m | .stop m => some m | _ => none) else none

/-- The command of mailbox `m` may begin: a Q command at once, U and S commands one at a time in the
order taken, S commands outside a drain; EPOCH_APPLY may join the drains that wait, and FW_ACTIVATE
is answered during a drain (R424, R439, R468). -/
def State.mayBegin (s : State) (m op : Nat) : Bool :=
  let w := s.stw
  let ahead := (w.sq.takeWhile (fun x => x ≠ m)).filter (fun x => ¬ w.waiters.contains x)
  match cmdKind op with
  | none => false
  | some .q => true
  | some .u => decide (w.uq.head? = some m)
  | some .s =>
    if op = 0x0201 then (ahead.filter (fun x => w.owner ≠ some x)) = []
    else if op = 0x0A03 && w.busy then (ahead.filter (fun x => w.owner ≠ some x)) = []
    else ahead = [] && ¬ w.busy

/-- Mailbox `m` holds the command `op`, taken and free to begin. -/
def State.ready (s : State) (m op : Nat) : Bool :=
  let b := s.stw.mb m
  m < 17 && b.st = .busy && b.phase = .taken && b.opcode = op && (s.stw.up || op = 0x0101) && s.mayBegin m op

/-- Run the command `op` of mailbox `m`.  The body answers the state, the status and the response;
both runs failing leave no effect and 0x04F0; a full journal refuses what changes state outside
class 0x0A; what waited while the device stopped is no longer served (R427, R435, R440). -/
def State.command (s : State) (m op : Nat) (body : State → Mbox → State × Nat × List Nat) : State :=
  if ¬ s.ready m op then s
  else if s.notServed op ≠ 0 then s.answer m (s.notServed op) []
  else if cmdKind op ≠ some .q && s.stw.jrnl.full && op / 256 ≠ 0x0A then s.complete m 0x03F0 []
  else if 2 ≤ (s.stw.mb m).faults then s.failed m
  else
    let r := body s (s.stw.mb m)
    r.1.complete m r.2.1 r.2.2

/-- The command of mailbox `m` goes on running and will be completed by what it waits for. -/
def State.runs (s : State) (m : Nat) (l : Long) : State :=
  (s.modMb m (fun b => { b with phase := .running })).modStw (fun w => { w with longs := w.longs ++ [(m, l)] })

end Sys2Proof.Machine
end

