-- ==== Sys2Proof/Machine/Requests.lean ====
section
/-! DEFINITION. Messages of agents at the crossbar: the checks that come before the home (R29, R74,
R79, R83, R101, R102, R214, R215, R328, R362), delivery to an ordering unit or a slice arbiter, and
the data that owners forward. -/
namespace Sys2Proof.Machine

/-! ## Message payloads (R85, R86) -/

/-- The payload of a message as an agent sends it. -/
def reqPay (o : Op) (d : Line) (be : BitVec 64) (opnd : Slot) : List Slot :=
  match o with
  | .wrInvFull | .wrUncached | .svcReq | .wbDirty | .wbOwned => dataSlots d 0
  | .wrPartial => BitVec.setWidth 128 be :: dataSlots d 0
  | .stCond | .atomic => [opnd]
  | _ => []

/-- The line that a request or eviction carries. -/
def reqData (o : Op) (m : Msg) : Line :=
  match o with
  | .wrPartial => lineOfSlots (m.pay.drop 1) 0
  | .wrInvFull | .wrUncached | .svcReq | .wbDirty | .wbOwned => lineOfSlots m.pay 0
  | _ => 0

/-- The bytes of its line that a request names. -/
def reqBytes (o : Op) (m : Msg) : BitVec 64 :=
  match o with
  | .wrPartial => byteEnOf m.pay
  | .rdUncached | .wrUncached | .ldResv | .stCond | .atomic =>
    spanEn ((unAddr m.hdr).toNat % 64) (unLen m.hdr)
  | .cBar | .resvClear | .svcReq => 0
  | _ => allEn

/-- The message carries data, so its TENANT is checked (R101). -/
def Op.carries : Op → Bool
  | .wrInvFull | .wrPartial | .wrUncached | .stCond | .atomic | .wbDirty | .wbOwned => true
  | _ => false

/-- The caching-only requests of R102. -/
def Op.cachingOnly : Op → Bool
  | .rdShared | .rdOwn | .upgrade | .wbDirty | .wbOwned | .evictClean => true
  | _ => false

/-- The request names an address. -/
def Op.addressed : Op → Bool
  | .cBar | .resvClear | .svcReq => false
  | _ => true

/-- R79: the location is within the declared geometry, or zero where it must be. -/
def Fabric.locationOk (f : Fabric) (a : Nat) (o : Op) (h : Slot) : Bool :=
  if ¬ o.isLine then true
  else if o.cachingOnly then f.locInRange a (lnCset h) (lnCway h)
  else lnCset h = 0 && lnCway h = 0

/-! ## After arbitration -/

/-- Held evictions that complete a crossing are applied (R112, R124). -/
def Fabric.meetCrossings (cfg : Cfg) (f : Fabric) : Fabric :=
  (f.txns.filter (fun t => t.todo = [.held])).foldl (fun f t =>
    match t.agent with | some a => f.crossings cfg a t.la | none => f) f

/-- What waits at the arbiters is arbitrated, and what that lets leave the ordering units leaves. -/
def Fabric.flow (cfg : Cfg) (f : Fabric) : Fabric :=
  ((f.arbAll cfg).meetCrossings cfg).ordAll cfg

/-! ## Deduplication at the survivor (R362) -/

/-- A tracker made without the arbiter, for a recorded outcome that needs data or a CompAck. -/
def Fabric.answerTxn (cfg : Cfg) (s i n a : Nat) (o : Op) (h : Slot) : Txn :=
  { (lineArr 1 (.agent a none) (.req o) (reqLaddr o h)).toTxn cfg s i n with
    hdr := h, txids := [hTxid h] }

/-- The program that returns a recorded grant; an Upgrade whose agent's copy had been removed is answered with
data (Table 3.14). -/
def grantAgain (o : Op) (st : LSt) (have_ full : Bool) : List Micro :=
  if o = .upgrade && ¬ full then [.comp st .ok, .ack]
  else if have_ then [.compData st, .ack]
  else readP ++ [.compData st, .ack]

/-- A duplicate answered is counted (TWN_CNT.DEDUP_HITS). -/
def Fabric.countDedup (f : Fabric) : Fabric :=
  { f with twin := { f.twin with dedupHits := bvSat f.twin.dedupHits 1 } }

/-- Answer Retry to a refused message (R94).
DESIGN CHOICE (log entry 97): DELAY is 0 for every REASON; the spec gives it for 0010b only (R364). -/
def Fabric.retry (f : Fabric) (a : Nat) (o : Op) (h : Slot) (reason : Nat) : Fabric :=
  (f.send a (mkRetry (hTxid h) reason 0 (reqRseq o h))).endLive a (hTxid h)

/-- The deduplication table holds a grant for the message, which needs a home tracker, and none is free: the
message waits (R26). -/
def Fabric.dedupWaits (f : Fabric) (a : Nat) (o : Op) (h : Slot) : Bool :=
  (f.twin.pair = .failover || f.twin.pair = .survivor) && (f.freeTracker (sliceOf (reqLaddr o h))).isNone &&
    (match Tab.find f.twin.dedup (dedupKey a (reqRseq o h)) with
     | some e => e.rseq = reqRseq o h && e.opcode = o.code && ¬ e.live && e.st ≠ .i &&
         ¬ f.txns.any (fun t => t.who = .reconcile a (reqRseq o h))
     | none => false)

/-- The answer of the deduplication table, where it has one; a message of `dedupWaits` is not asked about. -/
def Fabric.dedupAnswer (cfg : Cfg) (f : Fabric) (a : Nat) (o : Op) (h : Slot) : Option Fabric :=
  if ¬ (f.twin.pair = .failover || f.twin.pair = .survivor) then none
  else
    let rseq := reqRseq o h
    match Tab.find f.twin.dedup (dedupKey a rseq) with
    | none => none
    | some e =>
      if e.rseq ≠ rseq || e.opcode ≠ o.code then none
      else if e.live then some (f.countDedup.retry a o h 3)
      else if e.st = .i then
        if o = .rdOnce || o = .rdUncached then none
        else some (f.countDedup.bareComp a (hTxid h) e.res e.value)
      else
        let dup := if e.dup then Tab.find f.twin.dups e.htag else none
        let got : Option (Line × Bool × Bool) := dup.map (fun p => (p.2, dtPoison p.1, false))
        let todo := grantAgain o e.st dup.isSome e.full
        match f.txns.find? (fun t => t.who = .reconcile a rseq) with
        | some t =>
          let t := { t with who := .agent a none, op := .req o, hdr := h, txids := [hTxid h],
                            todo := todo, got := got, tagr := .unknown, tagStage := 0 }
          some ((f.countDedup.put t).settle cfg)
        | none =>
          let s := sliceOf (reqLaddr o h)
          match f.freeTracker s with
          | none => some f
          | some i =>
            let t := { Fabric.answerTxn cfg s i f.nextSeq a o h with todo := .line :: todo, got := got }
            let f := f.countDedup
            some (({ f with txns := f.txns ++ [t], nextSeq := f.nextSeq + 1 } : Fabric).settle cfg)

/-! ## Delivery -/

/-- Refuse a request with Comp PROTO, counted and captured (R104). -/
def Fabric.refuse (f : Fabric) (a : Nat) (o : Op) (h : Slot) (why : Nat) : Fabric :=
  (f.protoErr a o.code why).bareComp a (hTxid h) .proto 0

/-- A TENANT that differs from the region table's is counted (R101). -/
def Fabric.checkTenant (cfg : Cfg) (f : Fabric) (a : Nat) (o : Op) (h : Slot) : Fabric :=
  match cfg.regionOf (reqLaddr o h) with
  | some r => if o.carries && reqTenant o h ≠ r.tenant then f.tenantMis a else f
  | none => f

/-- A request reaches its ordering unit (R213 to R217). -/
def Fabric.toUnit (cfg : Cfg) (f : Fabric) (a : Nat) (o : Op) (m : Msg) : Fabric :=
  let h := m.hdr
  let la := reqLaddr o h
  let typ := (cfg.regionOf la).map (·.typ)
  if ¬ o.isLine && ¬ uncachedFieldsOk o h then f.refuse a o h 4
  else if f.caching a && (o = .ldResv || o = .stCond) then f.refuse a o h 4
  else if ¬ typeAccepts o typ then f.bareComp a (hTxid h) .address 0
  else
    let f := f.checkTenant cfg a o h
    let t := if o.addressed then typ.getD .ucn else .ucn
    let item : OItem :=
      { id := 0, kind := ordKind o t, op := o, hdr := h, la := la, data := reqData o m,
        be := reqBytes o m, pois := reqPoison o h, tenant := reqTenant o h, opnd := m.pay.headD 0,
        txids := [hTxid h], typ := t, waits := [], inBuf := true, released := false,
        endp := false }
    (f.ordTake cfg a item).ordRun cfg a

/-- A caching agent's line-format request or eviction reaches its slice. -/
def Fabric.toSlice (cfg : Cfg) (f : Fabric) (a : Nat) (o : Op) (m : Msg) : Fabric :=
  let h := m.hdr
  let la := lnLaddr h
  let typ := (cfg.regionOf la).map (·.typ)
  let evc := o.cls = clsEVC
  let ok := evc || (if o.cachingOnly then (match typ with | some t => t.cacheable | none => false)
    else typeAccepts o typ)
  if ¬ ok then f.bareComp a (hTxid h) .address 0
  else
    let f := f.checkTenant cfg a o h
    let arr : Arr :=
      { cyc := 0, cls := if evc then 0 else 1, port := a / 2, half := a % 2, who := .agent a none,
        op := .req o, hdr := h, la := la, data := reqData o m, be := reqBytes o m,
        pois := reqPoison o h, opnd := 0, txids := [hTxid h] }
    { f with arr := f.arr ++ [arr] }

/-- The resend of a request whose INTENT alone was logged ends the wait of its line (Table 13.9). -/
def Fabric.intentResend (cfg : Cfg) (f : Fabric) (a : Nat) (rseq : Word32) : Fabric :=
  if f.txns.any (fun t => t.who = .reconcile a rseq && t.value = 1) then
    let tx := modAll (fun (t : Txn) => t.who = .reconcile a rseq && t.value = 1)
      (fun t => { t with todo := t.todo.filter (fun m => m ≠ .ack) }) f.txns
    ({ f with txns := tx } : Fabric).settle cfg
  else f

/-- A REQ or EVC message is delivered: it is refused, answered from the deduplication table, or
passed on.  A message for an address whose active home is the other device is counted as misdirected
and answered Retry (R29), with REASON 0010b while a failover or a loss of the twin link runs.
DESIGN CHOICE (log entry 50): that answer comes before the checks of R79, R83 and R102. -/
def Fabric.acceptReq (cfg : Cfg) (f : Fabric) (a : Nat) (o : Op) (m : Msg) : Fabric :=
  let h := m.hdr
  if o.addressed && ¬ f.activeHome (reqLaddr o h) then
    let reason := if f.twin.pair = .failover || f.twin.pair = .waiting then 2 else 1
    ({ f with twin := { f.twin with misdirected := f.twin.misdirected + 1 } } : Fabric).retry a o h reason
  else
    let f := f.intentResend cfg a (reqRseq o h)
    match f.dedupAnswer cfg a o h with
    | some f => f
    | none =>
      if o.cachingOnly && ¬ f.caching a then f.refuse a o h 8
      else if ¬ f.locationOk a o h then f.refuse a o h 4
      else if o.isLine && f.caching a then f.toSlice cfg a o m
      else f.toUnit cfg a o m

/-- A DataFwd of agent `a` (R97, R101, R104, R360): an AGENT above 32 is a protocol error. -/
def Fabric.dataFwd (cfg : Cfg) (f : Fabric) (a : Nat) (h : Slot) (d : Line) : Fabric :=
  let la := dtLaddr h
  let f := match cfg.regionOf la with
    | some r => if dtTenant h ≠ r.tenant then f.tenantMis a else f
    | none => f
  if 32 < dtAgent h then f.protoErr a Op.dataFwd.code 7
  else if ¬ f.activeHome la then
    { f with twin := { f.twin with dups := Tab.set f.twin.dups (hHtag h) (h, d) } }
  else if dtAgent h = 32 then f.dataToHome cfg a h d
  else f.send (dtAgent h) { hdr := dtSetAgent h a, pay := dataSlots d (dtCrit h) }

/-! ## The receive buffer (R45, R46) -/

/-- The link carries messages of an admitted agent. -/
def Fabric.linkUp (f : Fabric) (a : Nat) : Bool := (f.link a).st = .active && f.admitted a && f.accepting

/-- A message leaves the receive buffer of its link, where it lies there. -/
def Fabric.consume (f : Fabric) (a : Nat) (h : Slot) : Fabric :=
  f.modLink a (fun l => Link.pump portKind (l.consume false h))

/-- The message cannot leave its port yet: every port request tracker of the link is taken (R26, R62), or the
grant recorded for it needs a home tracker. -/
def Fabric.mustWait (f : Fabric) (a : Nat) (o : Op) (h : Slot) : Bool :=
  (o.cls = clsREQ && (f.link a).full) || f.dedupWaits a o h

/-- A REQ message takes a port request tracker. -/
def Fabric.takeTracker (f : Fabric) (a : Nat) (o : Op) (h : Slot) : Fabric :=
  if o.cls = clsREQ then f.modLink a (fun l => { l with trk := l.trk ++ [hTxid h] }) else f

/-- A REQ or EVC message leaves its port: a REQ is held there during a drain (R328), every other message is
delivered. -/
def Fabric.deliverReq (cfg : Cfg) (f : Fabric) (a : Nat) (o : Op) (m : Msg) : Fabric :=
  let f := f.takeTracker a o m.hdr
  if f.draining && o.cls = clsREQ then { f with portHeld := f.portHeld ++ [(a, m)] }
  else f.acceptReq cfg a o m

/-- A message that left the receive buffer acts. -/
def Fabric.actOn (cfg : Cfg) (f : Fabric) (a : Nat) (o : Op) (m : Msg) : Fabric :=
  match o with
  | .compAck => f.compAck cfg a m.hdr
  | .rspI | .rspS | .rspFwd | .rspWbCrossed => f.snoopResp cfg a o m.hdr
  | .dataFwd => f.dataFwd cfg a m.hdr (lineOfSlots m.pay (dtCrit m.hdr))
  | o => f.deliverReq cfg a o m

/-- Messages of one class leave the receive buffer in link order and act (R45); where one must wait, it and
those behind it stay. -/
def Fabric.takeMsgs (cfg : Cfg) (a : Nat) : List Msg → Fabric → Fabric
  | [], f => f
  | m :: ms, f =>
    match Op.ofCode (hOp m.hdr) with
    | none => f
    | some o =>
      if ¬ f.linkUp a || f.mustWait a o m.hdr then f
      else Fabric.takeMsgs cfg a ms ((f.consume a m.hdr).actOn cfg a o m)

/-- A held request that must still wait stays in its port. -/
def Fabric.deliverHeld (cfg : Cfg) (f : Fabric) (p : Nat × Msg) : Fabric :=
  match Op.ofCode (hOp p.2.hdr) with
  | some o =>
    if f.dedupWaits p.1 o p.2.hdr then { f with portHeld := f.portHeld ++ [p] }
    else f.acceptReq cfg p.1 o p.2
  | none => f

/-- Requests that a port still holds outside a drain are delivered. -/
def Fabric.retryHeld (cfg : Cfg) (f : Fabric) : Fabric :=
  if f.draining || f.portHeld = [] then f
  else f.portHeld.foldl (fun f p => f.deliverHeld cfg p) { f with portHeld := [] }

/-- A message of agent `a` reaches the crossbar, after every message of its class that came before it (R45).
DESIGN CHOICE (log entry 93): where the receive buffer holds it, what was received acts; where it does
not, the flits that brought it are not shown, and it acts unless an older one of its class, or the lack of
a tracker, makes it wait. -/
def Fabric.arrive (cfg : Cfg) (f : Fabric) (a : Nat) (o : Op) (m : Msg) (act : Fabric → Fabric) : Fabric :=
  let l := f.link a
  if l.rxq.any (fun x => x.hdr = m.hdr) then Fabric.takeMsgs cfg a (l.upTo o.cls m.hdr) f
  else
    let f := Fabric.takeMsgs cfg a (l.ofClass o.cls) f
    if ¬ f.linkUp a || (f.link a).ofClass o.cls ≠ [] || f.mustWait a o m.hdr then f else act f

/-- A REQ or EVC message of agent `a` reaches the crossbar: a live TXID fences the link (R74).  With
`more` other messages reach the arbiters in the same slice cycle. -/
def Fabric.request (cfg : Cfg) (f : Fabric) (a : Nat) (o : Op) (m : Msg) (more : Bool) : Fabric :=
  if ¬ f.linkUp a then f
  else
    let l := f.link a
    if ¬ l.rxq.any (fun x => x.hdr = m.hdr) && l.isLive (hTxid m.hdr) then f.fenceLink cfg a o.code 3
    else
      let f := (f.retryHeld cfg).arrive cfg a o m (fun f =>
        (f.modLink a (fun l => { l with live := l.live ++ [hTxid m.hdr] })).deliverReq cfg a o m)
      if more || (f.draining && o.cls = clsREQ) then f else f.flow cfg

/-- A response or DataFwd of agent `a` reaches the crossbar and acts. -/
def Fabric.response (cfg : Cfg) (f : Fabric) (a : Nat) (o : Op) (m : Msg) (act : Fabric → Fabric) : Fabric :=
  if ¬ f.linkUp a then f
  else ((f.arrive cfg a o m act).meetCrossings cfg).ordAll cfg

end Sys2Proof.Machine
end

