-- ==== Sys2Proof/Machine/Ports.lean ====
section
/-! DEFINITION. Links within the device: codeword pairs, training, port reset and agent declarations
(R55 to R68), and the array errors of the Granary (R149 to R151). -/
namespace Sys2Proof.Machine

/-! ## What link-layer steps do to the device -/

/-- Half-port `a` is an independent ×4 link. -/
def Cfg.isHalf (cfg : Cfg) (a : Nat) : Bool := cfg.split (a / 2)

/-- The half takes part at all: half-port 0, or either half of a split port (R62). -/
def Cfg.halfUsed (cfg : Cfg) (a : Nat) : Bool := cfg.portEn (a / 2) && (a % 2 = 0 || cfg.split (a / 2))

/-- Request trackers of a link (R62). -/
def Cfg.trackers (cfg : Cfg) (a : Nat) : Nat := if cfg.isHalf a then 2048 else 4096

/-- Lanes of a half whose fault marks a port reset clears (Table 2.14). -/
def Cfg.laneMask (cfg : Cfg) (a : Nat) : BitVec 8 :=
  if cfg.isHalf a then (if a % 2 = 0 then 0x0F else 0xF0) else 0xFF

/-- The port reset of one link (R61, Table 12.7): its agent departs, the counts of its target's sources
are discarded even where no agent was admitted (R488), what the link held is lost, and it waits, Fenced or Disabled, until its agents' buffers are empty. -/
def Fabric.portReset (cfg : Cfg) (f : Fabric) (a : Nat) : Fabric :=
  let st := (f.link a).st
  let f := if f.admitted a then f.depart cfg a else f
  let l := Link.init (if st = .fenced then .fenced else .disabled)
  let f := { f.setLink a { l with stopSeq := true } with
    laneFault := vmod f.laneFault (a / 2) (fun x => x &&& ~~~(cfg.laneMask a))
    portHeld := f.portHeld.filter (fun p => p.1 ≠ a)
    agentDrops := f.agentDrops ++ (if a < 32 then [a] else []) }
  if st = .fenced || st = .disabled then f else f.raise (2 * (a / 2))

/-- Take a link-layer step: the new link, and what it means for the device. -/
def Fabric.linkStep (cfg : Cfg) (f : Fabric) (a : Nat) (r : Link × List LinkFx) : Fabric :=
  let f := (f.setLink a r.1).linkFx cfg a r.2
  if r.2.contains .portReset then f.portReset cfg a else f

/-- The credit grants with which link `a` enters Active: the device's and the partner's. -/
def Fabric.grants (f : Fabric) (a : Nat) : Vector Nat 8 × Vector Nat 8 :=
  if a = 32 then (twinGrant, twinGrant)
  else
    let l := f.link a
    (devGrant (l.width ≠ 0), match l.decl with | some d => declGrant d | none => Vector.replicate 8 0)

/-- A codeword pair is received on link `a` (R34, R36 to R54): its header and its five flits.  The twin link's time of its last good flit is LAST_GOOD of
TWIN_STATUS (Table 16.11). -/
def Fabric.codewordPair (cfg : Cfg) (f : Fabric) (a errA errB : Nat) (hdr : BitVec 40)
    (flits : List Flit) : Fabric :=
  if flits.length ≠ 5 then f
  else
  let (cap, grant) := f.grants a
  let good := (f.link a).receives && decide (errA ≤ 15) && decide (errB ≤ 15) && flits.any flitGood
  let f := if a = 32 && good then { f with twin := { f.twin with lastGood := f.time } } else f
  let f := f.linkStep cfg a ((f.link a).takePair (kindOf a) cap grant errA errB hdr flits)
  if a = 32 then f.dropBeats else f

/-- REPLAY_TIMEOUT passes (R53). -/
def Fabric.replayTimeout (cfg : Cfg) (f : Fabric) (a : Nat) : Fabric :=
  f.linkStep cfg a (f.link a).replayTimeout

/-! ## Training (R56, R57) -/

/-- Every expected lane detects its partner; `offer` is the highest rate that the partner
advertises. -/
def Fabric.laneDetect (cfg : Cfg) (f : Fabric) (a offer : Nat) : Fabric :=
  let own := if a = 32 then 0 else (cfg.maxRate (a / 2)).toNat
  let width := if a ≠ 32 && cfg.isHalf a then 1 else 0
  f.linkStep cfg a ((f.link a).laneDetect (BitVec.ofNat 2 (min 2 (max own offer))) width)

/-- Both receivers are trained. -/
def Fabric.pollingComplete (cfg : Cfg) (f : Fabric) (a : Nat) : Fabric :=
  f.linkStep cfg a (f.link a).pollDone

/-- Polling exceeds 250 ms. -/
def Fabric.pollingTimeout (cfg : Cfg) (f : Fabric) (a : Nat) : Fabric :=
  f.linkStep cfg a (f.link a).pollFail

/-- Configure or Declare exceeds its limit; an agent that was admitted leaves by this (R56, R145), and its caching
slot is freed when the walk of it ends (R60). -/
def Fabric.trainTimeout (cfg : Cfg) (f : Fabric) (a : Nat) (st : LinkState) : Fabric :=
  let l := f.link a
  if l.st ≠ st || (st = .declare && l.held.isSome) then f
  else
    let f := if a ≠ 32 && f.admitted a then f.depart cfg a else f
    f.linkStep cfg a (f.link a).trainFail

/-- Recovery ended (R57). -/
def Fabric.recoveryComplete (cfg : Cfg) (f : Fabric) (a : Nat) : Fabric :=
  f.linkStep cfg a ((f.link a).recoveryDone (kindOf a))

/-- Recovery exceeds 8 µs (R57, R59); `faults` are the lanes of the link found faulty. -/
def Fabric.recoveryTimeout (cfg : Cfg) (f : Fabric) (a : Nat) (faults : BitVec 8) : Fabric :=
  let l := f.link a
  if l.st ≠ .recovery then f
  else if a = 32 then f.linkStep cfg a (l.recoveryFail cfg.twinDegrade false 0)
  else
    let half := cfg.isHalf a
    let phys : BitVec 8 := if half && a % 2 = 1 then (faults &&& 0x0F) <<< 4
      else if half then faults &&& 0x0F else faults
    let f := { f with laneFault := vmod f.laneFault (a / 2) (fun x => x ||| phys) }
    f.linkStep cfg a (l.recoveryFail (cfg.allowDegrade (a / 2)) half faults)

/-- The buffers of a reset link's agent are empty: the link trains again where its port is enabled
(R61). -/
def Fabric.buffersEmpty (cfg : Cfg) (f : Fabric) (a : Nat) : Fabric :=
  let l := f.link a
  let o := f.ordOf a
  if ¬ (l.stopSeq && (l.st = .fenced || l.st = .disabled) && o.items = [] && o.short = []) then f
  else if cfg.halfUsed a then f.setLink a (Link.init .detect)
  else
    let f := f.setLink a (Link.init .disabled)
    if l.st = .fenced then f.raise (2 * (a / 2)) else f

/-! ## Declarations (R63 to R67, R354) -/

/-- Caching slots held. -/
def Granary.slotsHeld (g : Granary) : Nat := (g.slots.toList.filter (fun c => c.agent.isSome)).length

/-- The lowest free caching slot. -/
def Granary.freeSlot (g : Granary) : Option Nat :=
  (List.range 16).find? (fun k => (vget g.slots ⟨none, none⟩ k).agent.isNone)

/-- The status with which a declaration is answered: Table 2.12, with the partner's geometry in twin
mode (R354). -/
def Fabric.declCheck (cfg : Cfg) (f : Fabric) (a : Nat) (d : Line) : Nat :=
  let st := declStatus d (cfg.trackers a) f.gran.slotsHeld (cfg.portEn (a / 2))
  let differs := dclCaching d && f.mirrors && f.twin.agentMap.any (fun m =>
    m.1.toNat = dclUid d && (m.2.2.2.1 ≠ dclSets d || m.2.2.2.2 ≠ dclWays d))
  if differs && (st = 0 || 2 < st) then 2 else st

/-- The ROLE that a reply carries: 1 primary, 2 secondary, 0 otherwise (Table 2.12). -/
def Fabric.roleOut (f : Fabric) : Nat :=
  if f.twin.role = 1 then 1 else if f.twin.role = 2 then 2 else 0

/-- Check a declaration and send the reply (R63, R65).
DESIGN CHOICE (log entry 91): refusals are counted until the link enters Active or its port is reset. -/
def Fabric.declare (cfg : Cfg) (f : Fabric) (a : Nat) (d : Line) : Fabric :=
  let l := f.link a
  let st := f.declCheck cfg a d
  let slot := if st = 0 && dclCaching d then f.gran.freeSlot else none
  let cr := devGrant (l.width ≠ 0)
  let reply := declReply st a (slot.getD 0xFF) (cfg.trackers a) cr f.epoch f.roleOut
    (l.rate.toNat + 4 * l.width.toNat) f.uid.toNat
  if st = 0 then
    let known := f.twin.agentMap.any (fun m => m.1.toNat = dclUid d)
    let l := l.sendReply reply
    let l := { l with decl := some d, slot := slot, held := none, withhold := f.draining || (f.mirrors && ¬ known) }
    let g := match slot with
      | some k => { f.gran with slots := vset f.gran.slots k ⟨some a, none⟩ }
      | none => f.gran
    ({ f with gran := g } : Fabric).setLink a l |>.tellMap (dclUid d) a (slot.getD 0xFF) true
  else
    let l : Link := { (l.sendReply reply) with held := none, refusals := l.refusals + 1 }
    if l.refusals < 3 then f.setLink a l
    else f.linkStep cfg a (({ l with decl := none } : Link).enter .disabled)

/-- A declaration arrives (R63, R67): held during a drain. -/
def Fabric.declaration (cfg : Cfg) (f : Fabric) (a : Nat) (d : Line) : Fabric :=
  let l := f.link a
  if l.st ≠ .declare || l.decl.isSome then f
  else if f.draining then f.setLink a { l with held := some d }
  else f.declare cfg a d

/-- Declarations of one or two links checked in the same slice cycle: the lower agent number goes
first (R66). -/
def Fabric.declarations (cfg : Cfg) (f : Fabric) (a : Nat) (d : Line) (tie : Option (Nat × Line)) :
    Fabric :=
  match tie with
  | none => f.declaration cfg a d
  | some (b, e) =>
    if a ≤ b then (f.declaration cfg a d).declaration cfg b e
    else (f.declaration cfg b e).declaration cfg a d

/-- Held declarations are answered (R67). -/
def Fabric.answerHeld (cfg : Cfg) (f : Fabric) : Fabric :=
  (List.range 32).foldl (fun f a =>
    match (f.link a).held with
    | some d => if (f.link a).st = .declare then f.declare cfg a d else f
    | none => f) f

/-! ## Granary array errors (R149 to R151, R154) -/

/-- The kinds of Granary words. -/
inductive GArray where
  | entry | link | bucket
  deriving DecidableEq, Repr

/-- In single mode a lost entry word kills its slot's agent and taints the bucket whose chain passes
through the location; the taint shows in the bucket's bank (R151, Table 5.10, R154). -/
def Fabric.entryLost (cfg : Cfg) (f : Fabric) (b loc : Nat) : Fabric :=
  let f := match Tab.find f.gran.entries loc with
    | some e =>
      let g := { f.gran with taint := addOnce (f.gran.bucket e.la) f.gran.taint }
      let c := bucketBank e.la
      { f with gran := g.modBank c (fun x => { x with taintSet := true }) }.raise (72 + c)
    | none => f
  match f.gran.agentOf (locSlot loc) with
  | some d => f.declareDead cfg b d
  | none => f

/-- An erroneous Granary word of bank `b` is read once more: `out` tells the outcome (R149).  `row` is the
array row, `loc` the location of an entry word. -/
def Fabric.granaryReread (cfg : Cfg) (f : Fabric) (b : Nat) (arr : GArray) (loc row : Nat)
    (out : GRead) : Fabric :=
  if out ≠ .bad then
    let old := (vget f.gran.banks GrnBank.zero b).transient
    let new := bvSat old 1
    let fixed := out = .corrected && arr = .entry
    ({ f with gran := f.gran.modBank b (fun x =>
        { x with transient := new, corr := if fixed then bvSat x.corr 1 else x.corr }) } : Fabric).raiseEvery
      256 old.toNat new.toNat (72 + b)
  else
    let g := f.gran.modBank b (fun x => { x with lasting := bvSat x.lasting 1 }.capture loc 3)
    let f := ({ f with gran := g } : Fabric).raise (72 + b)
    let code := match arr with | .entry => 1 | .link => 2 | .bucket => 3
    let f := f.arrayFault code b row
    let f := { f with jreq := f.jreq ++ [(0x16, row, 8 * code + b)] }
    match arr with
    | .entry =>
      if f.mirrors then
        let q := addOnce loc f.gran.queries
        ({ f with gran := { f.gran with queries := q } } : Fabric).sendCtl 7 loc
      else f.entryLost cfg b loc
    | _ =>
      ({ f with gran := f.gran.modBank b (fun x => { x with rebuild := true }) } : Fabric).raise (72 + b)

/-- The chains of bank `b` are rebuilt (R150). -/
def Fabric.rebuildEnd (cfg : Cfg) (f : Fabric) (b : Nat) : Fabric :=
  if (vget f.gran.banks GrnBank.zero b).rebuild then
    (({ f with gran := f.gran.modBank b (fun x => { x with rebuild := false }) } : Fabric).raise
      (72 + b)).settle cfg
  else f

/-- The partner's answer to a Granary query: the word's entry, or nothing recorded; `ok` is false
where the partner could not read it (R151). -/
def Fabric.qryAnswer (cfg : Cfg) (f : Fabric) (loc : Nat) (ok : Bool) (e : Option GEntry) : Fabric :=
  if ¬ f.gran.queries.contains loc then f
  else
    let g := { f.gran with queries := f.gran.queries.filter (fun x => x ≠ loc) }
    let f := { f with gran := g }
    if ¬ ok then f.entryLost cfg (locBank loc) loc
    else match e with
      | some x => { f with gran := f.gran.place loc x.la x.st }
      | none => { f with gran := f.gran.remove loc }

/-- A partner's query for a Granary word is answered over the QRY class (R348): the word of the same agent, set and
way of this device's Granary (R357). -/
def Fabric.qryRequest (f : Fabric) (loc : Nat) : Fabric :=
  let here := (f.slotHere (locSlot loc)).map (fun k => locNum k (locSet loc) (locWay loc))
  let w := match here.bind (fun l => Tab.find f.gran.entries l) with
    | some e => packNat [(0, 22, loc), (22, 1, 1), (23, 46, e.la.toNat), (69, 3, e.st.code)]
    | none => packNat [(0, 22, loc)]
  f.sendCtl 8 w

end Sys2Proof.Machine
end

