-- ==== Sys2Proof/Machine/ArrayFaults.lean ====
section
/-! DEFINITION. Lasting faults of the on-die arrays other than the Granary (R318, Table 11.9,
Table 16.10). -/
namespace Sys2Proof.Machine

/-- The part of a tracker, queue entry or write-buffer entry that fails. -/
inductive FaultPart where
  | address | data | control
  deriving DecidableEq, Repr

/-- The completing steps of a request whose control was lost: the state that the Granary records,
with POISON (Table 11.9). -/
def Fabric.lostEnd (f : Fabric) (t : Txn) : List Micro :=
  match t.who, t.op with
  | .agent a _, .req o =>
    let st : LSt := match f.gran.recordOf a t.la with | some (st, _) => st | none => .i
    match o with
    | .rdShared | .rdOwn => [.compData st] ++ (if st = .i then [] else [.ack])
    | .rdOnce | .rdUncached => [.compData .i]
    | .upgrade => [.comp st .ok] ++ (if st = .i then [] else [.ack])
    | _ => [.comp .i .ok]
  | _, _ => []

/-- A home tracker's array row fails: the data is poisoned, or the line is written poisoned and the
requester completed. -/
def Fabric.trackerFault (cfg : Cfg) (f : Fabric) (s i : Nat) (p : FaultPart) : Fabric :=
  match f.txnAt s i, p with
  | none, _ | _, .address => f
  | some t, .data =>
    f.put { t with pois := true, servePois := true, wpo := true,
                   got := t.got.map (fun g => (g.1, true, g.2.2)), spec := t.spec.map (fun x => x.map (fun g => (g.1, true))) }
  | some t, .control =>
    let wait : List Micro := if t.snoops.all (·.done) then [] else [.snoops]
    let t := { t with todo := wait ++ (if t.blk then [] else [.line]) ++ poisonThen (f.lostEnd t),
                      side := [], servePois := true, got := none, asked := false, tagr := .unknown,
                      tagStage := 0, spec := none, mapAsked := false }
    (f.put t).settle cfg

/-- A request still outside its home: its line is written poisoned and it is completed. -/
def Fabric.outsideFault (cfg : Cfg) (f : Fabric) (a : Nat) (ord : Option Nat) (o : Op) (h : Slot)
    (la : LAddr) (txids : List Nat) : Fabric :=
  let s := sliceOf la
  match f.freeTracker s with
  | none => f
  | some i =>
    let t := (lineArr 1 (.agent a ord) (.req o) la).toTxn cfg s i f.nextSeq
    let t := { t with hdr := h, txids := txids }
    let f := match ord with
      | some id => f.modOrd a (fun o => { o with tokens := o.tokens ++ [id] })
      | none => f
    ({ f with txns := f.txns ++ [t], nextSeq := f.nextSeq + 1 } : Fabric).trackerFault cfg s i .control

/-- A header with its POISON bit set. -/
def poisonHdr (o : Op) (h : Slot) : Slot :=
  BitVec.ofNat 128 (putBit h.toNat (if o.isLine then 119 else 113) true)

/-- A write-buffer entry's row fails. -/
def Fabric.bufferFault (cfg : Cfg) (f : Fabric) (a id : Nat) (p : FaultPart) : Fabric :=
  match (f.ordOf a).items.find? (fun x => x.id = id && x.entry && ¬ x.released), p with
  | none, _ | _, .address => f
  | some _, .data =>
    f.modOrd a (fun o => { o with
      items := modFirst (fun (x : OItem) => x.id = id) (fun x => { x with pois := true }) o.items })
  | some x, .control =>
    let f := f.modOrd a (fun o => { o with
      items := modFirst (fun (x : OItem) => x.id = id) (fun x => { x with released := true }) o.items })
    f.outsideFault cfg a (some id) x.op x.hdr x.la x.txids

/-- A held request's row in a port tracker fails. -/
def Fabric.portFault (cfg : Cfg) (f : Fabric) (a txid : Nat) (p : FaultPart) : Fabric :=
  match f.portHeld.find? (fun x => x.1 = a && hTxid x.2.hdr = txid), p with
  | none, _ | _, .address => f
  | some x, .data =>
    match Op.ofCode (hOp x.2.hdr) with
    | none => f
    | some o =>
      let held := modFirst (fun (y : Nat × Msg) => y = x)
        (fun y => (y.1, { y.2 with hdr := poisonHdr o y.2.hdr })) f.portHeld
      { f with portHeld := held }
  | some x, .control =>
    match Op.ofCode (hOp x.2.hdr) with
    | none => f
    | some o =>
      let f := { f with portHeld := dropFirst (fun (y : Nat × Msg) => y = x) f.portHeld }
      f.outsideFault cfg a none o x.2.hdr (reqLaddr o x.2.hdr) [txid]

/-- The line of a queued operation that no tracker answers for is written poisoned, in a transaction of its own
(Table 11.9). -/
def Fabric.poisonLine (cfg : Cfg) (f : Fabric) (la : LAddr) : Fabric :=
  let s := sliceOf la
  match f.freeTracker s with
  | none => f
  | some i =>
    let t := (lineArr 3 (.gleaner none) .correct la).toTxn cfg s i f.nextSeq
    ({ f with txns := f.txns ++ [{ t with todo := .line :: poisonLogP }], nextSeq := f.nextSeq + 1 } : Fabric).settle cfg

/-- The line of a queued read that no tracker waits for: a prefetch's, or the one that the patrol reads. -/
def Fabric.readLine (cfg : Cfg) (f : Fabric) (ddr : Bool) (r : MemReq) : Option LAddr :=
  match r.who with
  | .prefetch _ la | .pmap _ la => some la
  | .patrol => if ddr then cfg.lineOfBack r.word else f.lineAt cfg r.word
  | _ => none

/-- A queued write's data is poisoned; a sub-block's POISON bit keeps equal to its marker (R307).  A tag or map
update carries no line. -/
def Fabric.writeFault (cfg : Cfg) (f : Fabric) (ddr : Bool) (k : Nat) (r : MemReq) : Fabric :=
  if ddr then f.modMem (fun m => { m with dq := m.dq.set k { r with pois := true } })
  else match f.lineAt cfg r.word with
    | none => f
    | some la =>
      let res := match cfg.regionOf la with | some rg => f.cache.find cfg rg.line la | none => .absent
      let (v, d, _) := f.cache.bits res (subOf la)
      let f := f.modMem (fun m => { m with hq := m.hq.set k { r with pois := true } })
      { f with cache := f.cache.setBitsOf res (subOf la) v d true }

/-- A channel-queue entry's row fails: the data of its operation is poisoned, or with its control lost the read
is gone, its line is written poisoned and its requester completed (Table 11.9). -/
def Fabric.queueFault (cfg : Cfg) (f : Fabric) (ddr : Bool) (k : Nat) (p : FaultPart) : Fabric :=
  let q := if ddr then f.mem.dq else f.mem.hq
  let keep := fun (f : Fabric) (l : List MemReq) =>
    f.modMem (fun m => if ddr then { m with dq := l } else { m with hq := l })
  match q[k]?, p with
  | none, _ | _, .address => f
  | some r, p =>
    if r.write then f.writeFault cfg ddr k r
    else match r.who, p with
      | .txn s i, .control | .spec s i, .control | .tags s i, .control | .map s i, .control =>
        (keep f (q.eraseIdx k)).trackerFault cfg s i .control
      | .txn s i, _ | .spec s i, _ | .tags s i, _ | .map s i, _ => f.trackerFault cfg s i .data
      | .pmap _ la, .data => f.pfCancel la
      | _, .control =>
        let f' := keep f (q.eraseIdx k)
        let f' := { f' with pfu := { f'.pfu with
          queue := f'.pfu.queue.filter (fun x => ¬ (x.issued && f.readLine cfg ddr r = some x.la)) } }
        match f.readLine cfg ddr r with
        | some la => f'.poisonLine cfg la
        | none => f'
      | _, _ => keep f (q.set k { r with pois := true })

/-- A tag-cache row fails: a clean entry is reloaded from the tag store, a dirty one makes the ways of
its tag word tag-lost. -/
def Fabric.tagCacheFault (cfg : Cfg) (f : Fabric) (s k : Nat) : Fabric :=
  match Tab.find f.cache.tc k with
  | none => f
  | some e =>
    if ¬ e.tcd then f
    else f.loseWays cfg s [(e.set, e.way / 2 * 2), (e.set, e.way / 2 * 2 + 1)]

/-- The re-read of an erroneous on-die array row: good, it was transient; otherwise the fault is
lasting.  `k` names what the row holds: a tag-cache entry, tracker, entry number or TXID, queue place,
link, line or map word by the array. -/
def Fabric.arrayReread (cfg : Cfg) (f : Fabric) (array inst row : Nat) (good : Bool) (a k : Nat)
    (p : FaultPart) : Fabric :=
  if good then f
  else
    let f := f.arrayFault array inst row
    match array with
    | 0x04 => f.tagCacheFault cfg inst k
    | 0x05 => f.trackerFault cfg inst k p
    | 0x06 => f.portFault cfg a k p
    | 0x07 => f.bufferFault cfg a k p
    | 0x08 => if (f.link a).st = .active then f.linkStep cfg a (f.link a).recover else f
    | 0x09 =>
      let la : LAddr := BitVec.ofNat 46 k
      { f with pfu := { f.pfu with record := f.pfu.record.filter (fun r => r.la ≠ la),
                                   streams := f.pfu.streams.filter (fun x => x.key ≠ k) } }
    | 0x0A => f.modMem (fun m => { m with
        mapCache := vmod m.mapCache inst (fun l => l.filter (fun w => w ≠ k)) })
    | 0x0B => f.queueFault cfg false k p
    | 0x0C => f.queueFault cfg true k p
    | 0x0F => if f.tlink.st = .active then f.linkStep cfg 32 f.tlink.recover else f
    | _ => f

end Sys2Proof.Machine
end

