-- ==== Sys2Proof/Machine/Twin.lean ====
section
/-! DEFINITION. Twin pairing (chapter 13): hello, log records, acknowledgements, failover,
takeover and resynchronisation. -/
namespace Sys2Proof.Machine

/-! ## States and messages -/

/-- Change the pairing state record. -/
def Fabric.modTwin (f : Fabric) (g : Twin → Twin) : Fabric := { f with twin := g f.twin }

/-- This device holds the primary role; a survivor keeps it (R372). -/
def Fabric.primary (f : Fabric) : Bool := f.twin.role = 1 || f.twin.role = 3

/-- Enter a pair state: source 32, and 38 for WAITING and ISOLATED (Table 13.16). -/
def Fabric.setPair (f : Fabric) (p : PairState) : Fabric :=
  if f.twin.pair = p then f
  else
    let f := (f.modTwin (fun t => { t with pair := p })).raise 32
    if p = .waiting || p = .isolated then f.raise 38 else f

/-- A disagreement: DISAGREE, DIS_CODE, source 34 (Table 13.4). -/
def Fabric.disagree (f : Fabric) (code : Nat) : Fabric :=
  (f.modTwin (fun t => { t with disagree := true, disCode := BitVec.ofNat 4 code })).raise 34

/-! ## Standby data (R358, R359) -/

/-- A marked page of this device's own DDR5 is filled with zeros and its mark cleared (R282, R358). -/
def Fabric.zeroFill (f : Fabric) (page : Nat) : Fabric :=
  if f.mem.marked page then
    ((List.range 64).foldl (fun f k => f.pushD { MemReq.wr (page * 64 + k) 0 allEn false .none with acc := true })
      (f.modMem (fun m => m.unmark page))).mapWrites page
  else f

/-- Write a backing line in this device's own DDR5 without a record. -/
def Fabric.putBacking (f : Fabric) (b : Nat) (d : Line) (p : Bool) : Fabric :=
  ((f.trackPage (backPage b)).zeroFill (backPage b)).pushD { MemReq.wr b d allEn p .none with acc := true }

/-- Write a line to this device's own DDR5 without a record. -/
def Fabric.ownBacking (cfg : Cfg) (f : Fabric) (la : LAddr) (d : Line) (p : Bool) : Fabric :=
  match cfg.regionOf la with
  | none => f
  | some r => f.putBacking (r.backLine la) d p

/-- Store standby data dirty in a STBY sector of this device's store, or in DDR5 where the region is
LINE or no way is eligible. -/
def Fabric.standby (cfg : Cfg) (f : Fabric) (la : LAddr) (d : Line) (p : Bool) : Fabric :=
  match cfg.regionOf la with
  | none => f
  | some r =>
    if r.line || ¬ r.typ.cacheable || ¬ cfg.cacheEn (sliceOf la) then f.ownBacking cfg la d p
    else
      let put := fun (f : Fabric) (key : Nat) =>
        let c := f.cache.modSector key (fun x =>
          { x with valid := maskPut x.valid (subOf la) true, dirty := maskPut x.dirty (subOf la) true,
                   poison := maskPut x.poison (subOf la) p, stby := true })
        ({ f with cache := c } : Fabric).pushH
          { MemReq.wr (subWord (key / 10) (key % 10) (subOf la)) d allEn p .none with acc := true }
      match f.cache.findSector (setOf la) (tagOf la) with
      | some key => put f key
      | none =>
        match f.allocSector cfg (sliceOf la) la 0x3FF 2 r.tenant with
        | (f, some key) => put f key
        | (f, none) => f.ownBacking cfg la d p

/-- The standby copy of a line: its sector, data and poison. -/
def Fabric.standbyOf (f : Fabric) (la : LAddr) : Option (Nat × Line × Bool) :=
  match f.cache.findSector (setOf la) (tagOf la) with
  | none => none
  | some key =>
    match f.cache.sector key with
    | some x =>
      if x.stby && x.valid.getLsbD (subOf la) then
        let cw := wordNow f.mem.hq f.mem.hbm (key * 64 + subOf la)
        some (key, cw.data, cw.pm)
      else none
    | none => none

/-- A BACK record: its data, or the standby sub-block, goes to DDR5 and the standby copy goes. -/
def Fabric.applyBack (cfg : Cfg) (f : Fabric) (r : TRec) : Fabric :=
  let sb := f.standbyOf r.la
  let f := match r.data, sb with
    | some (d, p), _ => f.ownBacking cfg r.la d p
    | none, some (_, d, p) => f.ownBacking cfg r.la d p
    | none, none => f
  match sb with
  | some (key, _, _) =>
    { f with cache := f.cache.modSector key (fun x =>
        { x with valid := maskPut x.valid (subOf r.la) false, dirty := maskPut x.dirty (subOf r.la) false,
                 poison := maskPut x.poison (subOf r.la) false }) }
  | none => f

/-! ## Applying a record (R358) -/

/-- Apply a Granary-change slot. -/
def Fabric.applyGch (f : Fabric) (la : LAddr) (g : Gch) : Fabric :=
  let slots := fun (m : Nat) => (onesOf m 16).filterMap (fun k => f.mapSlot k)
  let f := (slots g.remove).foldl (fun f a => { f with gran := f.gran.removeAgent a la }) f
  let f := (slots g.toS).foldl (fun f a => { f with gran := f.gran.setAgent a la .s }) f
  match g.write with
  | some (k, st, set, way) =>
    match f.slotHere k with
    | some k' => { f with gran := f.gran.place (locNum k' set way) la st }
    | none => f
  | none => f

/-- Write the deduplication entry of a logged transaction, and keep it among the open ones while
its CLOSE is to come (R361, R367); a copied entry carries OPEN in TENANT. -/
def Fabric.applyTxn (f : Fabric) (r : TRec) (x : TxSlot) : Fabric :=
  let opn := (x.st ≠ .i || x.dup) && (r.rtype ≠ 0xC || r.tenant = 1)
  let opens := f.twin.opens.filter (fun o => match o.txn with | some y => y.htag ≠ x.htag | none => true)
  let opens := if r.rtype = 5 || opn then opens ++ [r] else opens
  let f := f.modTwin (fun t => { t with opens := opens })
  if r.rtype = 5 then f
  else match f.mapAgent r.agent with
    | none => f
    | some a =>
      let e : Dedup := { rseq := r.rseq, opcode := x.opcode, st := x.st, res := x.res, dup := x.dup,
                         value := x.value, htag := x.htag, la := r.la, opn := opn, live := false,
                         full := x.opcode = Op.upgrade.code && (f.gran.recordOf a r.la).isNone && r.rtype ≠ 0xC }
      f.modTwin (fun t => { t with dedup := Tab.set t.dedup (dedupKey a r.rseq) e })

/-- A CLOSE: the transaction is over and its standby duplicate is freed (R360, R361). -/
def Fabric.applyClose (f : Fabric) (x : TxSlot) : Fabric :=
  f.modTwin (fun t =>
    { t with
      opens := t.opens.filter (fun o => match o.txn with | some y => y.htag ≠ x.htag | none => true)
      dups := Tab.erase t.dups x.htag
      dedup := t.dedup.map (fun p => if p.2.htag = x.htag && p.2.opn && ¬ p.2.live then
        (p.1, { p.2 with opn := false }) else p) })

/-- An HRW record: a new descriptor to mirror, a progress mark, or an end (R260).  The mark of a line that
INVAL_NOWB invalidates takes the standby copy with it, so that both devices hold equal images.
DEDUCED (log entry 103): R359 asks for equal images. -/
def Fabric.applyHrw (cfg : Cfg) (f : Fabric) (r : TRec) : Fabric :=
  let theirs := r.agent % 2 = 1
  let tk := if theirs then r.rseq.toNat + 2 ^ 32 else r.rseq.toNat
  match r.data with
  | some (raw, _) =>
    let d := { Desc.new tk r.tenant raw with mirror := true, running := true }
    if (f.desc tk).isSome then f else { f with hrw := { f.hrw with descs := f.hrw.descs ++ [d] } }
  | none =>
    if 2 ≤ r.agent then
      if theirs then { f with hrw := { f.hrw with descs := f.hrw.descs.filter (fun d => d.ticket ≠ tk) } }
      else ((f.modDesc tk (fun d => { d with partnerDone := true })).tryEnd cfg tk).cutRest cfg
    else
      let drops : Bool := match f.desc tk with | some d => d.op = 4 | none => false
      let f := match (if drops then cfg.regionOf r.la else none) with
        | some g =>
          { f with cache := f.cache.setBitsOf (f.cache.find cfg g.line r.la) (subOf r.la) false false false }
        | none => f
      f.modDesc tk (fun d => { d with marks := d.marks ++ [r.la.toNat] })

/-- A MARK record: a page is marked with all that the device holds of it, or a page fill clears its mark; running
descriptors note the mark (R260, R358). -/
def Fabric.applyMark (cfg : Cfg) (f : Fabric) (r : TRec) : Fabric :=
  match cfg.regionOf r.la with
  | none => f
  | some g =>
    let page := backPage (g.backLine r.la)
    if r.rseq = 1 then f.zeroFill page
    else
      let f := f.markPage cfg r.la
      { f with hrw := { f.hrw with
        descs := f.hrw.descs.map (fun d => { d with marks := d.marks ++ [pageMark (r.la.toNat / 64)] }) } }

/-- Apply one logged record: its transaction slot is read against the Granary as it was before. -/
def Fabric.applyRec (cfg : Cfg) (f : Fabric) (r : TRec) : Fabric :=
  let f := match r.txn with
    | some x => if r.rtype = 4 then f.applyClose x else f.applyTxn r x
    | none => f
  let f := match r.gch with | some g => f.applyGch r.la g | none => f
  match r.rtype, r.data with
  | 7, _ => f.applyBack cfg r
  | 8, _ => f.applyMark cfg r
  | 9, _ => f.applyHrw cfg r
  | 0xA, _ => f
  | 0xC, some (d, p) => f.putBacking r.la.toNat d p
  | 0xC, none =>
    if r.gch.isSome || r.txn.isSome then f
    else
      let page := backPage r.la.toNat
      if r.rseq = 1 then f.zeroFill page
      else f.modMem (fun m => (List.range 8).foldl (fun m s => m.mark s page) m)
  | _, some (d, p) => f.standby cfg r.la d p
  | _, none => f

/-- The partner's next record of a source is applied; source 32 of SRC means none waits. -/
def Fabric.logApply (cfg : Cfg) (f : Fabric) (src : Nat) : Fabric :=
  match f.twin.backlog.find? (fun r => r.src = src) with
  | none => f
  | some r =>
    ((f.modTwin (fun t => { t with backlog := dropFirst (fun (x : TRec) => x.src = src) t.backlog })).applyRec
      cfg r).settle cfg

/-- A record or copy item arrives: checked for its place in its stream, logged and acknowledged;
out of order it takes the link to Recovery (R357). -/
def Fabric.logReceive (cfg : Cfg) (f : Fabric) (r : TRec) : Fabric :=
  let f := f.fromTwin r.header
  if f.tlink.st ≠ .active then f
  else if vget f.twin.expect 0 r.src ≠ r.lseq then f.linkStep cfg 32 f.tlink.recover
  else
    (f.modTwin (fun t => { t with backlog := t.backlog ++ [r],
                                  expect := vset t.expect r.src ((r.lseq + 1) % 2 ^ 24) })).sendCtl 1
      (r.src + 16 * r.lseq)

/-! ## Acknowledgements (R24, R357) -/

/-- Acceptance words, marks and completion records of descriptors whose records are acknowledged (R260,
Table 13.5). -/
def Fabric.gatesOpen (cfg : Cfg) (f : Fabric) : Fabric :=
  ((f.hrw.descs.filter (fun d => d.gate.isSome)).foldl (fun f d =>
    match d.gate with
    | some g =>
      if f.unacked g then f
      else if d.running then f.tryEnd cfg d.ticket
      else
        let f := match d.owed with
          | some x => f.bareComp (d.queue - 17) x .ok (acceptWord 0 d.ticket)
          | none => f
        if d.ending then f.writeRecord cfg { d with owed := none }
        else f.modDesc d.ticket (fun d => { d with owed := none, gate := none })
    | none => f) f).cutRest cfg

/-- A cumulative acknowledgement: every record of the source up to LSEQ is acknowledged, and what
was gated on them proceeds. -/
def Fabric.ackReceive (cfg : Cfg) (f : Fabric) (src lseq : Nat) : Fabric :=
  if f.unacked (src, lseq) then
    let covers := fun (r : TRec) => r.src = src && decide ((lseq + 2 ^ 24 - r.lseq) % 2 ^ 24 < 2 ^ 23)
    let f := f.modTwin (fun t => { t with outstanding := t.outstanding.filter (fun r => ¬ covers r) })
    let f := lateGo f.twin.late.length f
    ((f.settle cfg).gatesOpen cfg).svcRun cfg
  else f

/-! ## Witness and authority (R350, R364, R365) -/

/-- Fence every agent's link (Table 13.3, ISOLATED). -/
def Fabric.isolate (cfg : Cfg) (f : Fabric) : Fabric :=
  let f := f.setPair .isolated
  (List.range 32).foldl (fun f a =>
    if (f.link a).st = .active || (f.link a).st = .recovery then
      let (l, fx) := (f.link a).fence
      (f.setLink a l).linkFx cfg a fx
    else f) f

/-- Step 3 of Table 13.8. -/
def Fabric.failoverBegin (cfg : Cfg) (f : Fabric) : Fabric :=
  let f := f.setPair .failover
  let f := f.modTwin (fun t => { t with step := 4, outstanding := [], late := [], tracking := true, resyncMap := [],
                                        epochAtFail := f.epoch })
  let f := { f with resv := Vector.replicate 256 none, tlink := { f.tlink with txq := [] } }
  (((f.raise 36).evtIrqAll 36 1).settle cfg).gatesOpen cfg

/-- Step 2 of Table 13.8: WITNESS and PAIR_ROLE decide. -/
def Fabric.authority (cfg : Cfg) (f : Fabric) : Fabric :=
  if f.twin.witness = 2 then f.failoverBegin cfg
  else if f.twin.witness = 1 then f.modTwin (fun t => { t with step := 2 })
  else if f.twin.strap then f.failoverBegin cfg
  else (f.modTwin (fun t => { t with step := 0 })).setPair .waiting

/-- The partner is lost (R363, R364, R373). -/
def Fabric.partnerLost (cfg : Cfg) (f : Fabric) : Fabric :=
  let f := f.modTwin (fun t => { t with heard := false })
  match f.twin.pair with
  | .paired => if f.twin.step = 0 then f.authority cfg else f
  | .resync =>
    if f.twin.rejoiner then f.isolate cfg else f.setPair (if f.twin.survived then .survivor else .single)
  | .hello => f.setPair .single
  | _ => f

/-- The partner is found lost: no good flit for HB_TIMEOUT. -/
def Fabric.hbTimeout (cfg : Cfg) (f : Fabric) : Fabric := if cfg.twinEn then f.partnerLost cfg else f

/-- WITNESS as its two samples show it: pull-up and pull-down. -/
def witnessOf (up down : Bool) : BitVec 2 := if up == down then (if up then 2 else 1) else 0

/-- WITNESS is tested (R350): a device at step 2, or in WAITING, goes on when it is present and
high (R364, R365). -/
def Fabric.witnessTest (cfg : Cfg) (f : Fabric) (up down : Bool) : Fabric :=
  let w := witnessOf up down
  let f := f.modTwin (fun t => { t with witness := w })
  if w = 2 && (f.twin.step = 2 || f.twin.pair = .waiting) then f.failoverBegin cfg else f

/-- WITNESS stays low for WITNESS_WAIT. -/
def Fabric.witnessExpiry (cfg : Cfg) (f : Fabric) : Fabric :=
  if f.twin.step = 2 then (f.modTwin (fun t => { t with step := 0 })).isolate cfg else f

/-- TWIN_TAKEOVER: a device in WAITING goes on from step 3 (R365). -/
def Fabric.takeOver (cfg : Cfg) (f : Fabric) : Fabric :=
  if f.twin.pair = .waiting then f.failoverBegin cfg else f

/-! ## Failover (Tables 13.8 and 13.9) -/

/-- Apply every record not yet applied. -/
def applyAll (cfg : Cfg) : Nat → Fabric → Fabric
  | 0, f => f
  | n + 1, f =>
    match f.twin.backlog with
    | [] => f
    | r :: rest =>
      applyAll cfg n (((f.modTwin (fun t => { t with backlog := rest })).applyRec cfg r).settle cfg)

/-- Step 4: the replay ends. -/
def Fabric.replayEnd (cfg : Cfg) (f : Fabric) : Fabric :=
  if f.twin.step ≠ 4 then f
  else (applyAll cfg f.twin.backlog.length f).modTwin (fun t => { t with step := 5 })

/-- The transaction removes the copies of the agents it snooped. -/
def removesCopies (opcode : Nat) : Bool := opcode ≠ 0x01 && opcode ≠ 0x03 && opcode ≠ 0x08

/-- A tracker that keeps an open transaction's line blocked, with reconcile snoops. -/
def Fabric.reconcile (cfg : Cfg) (f : Fabric) (o : TRec) (a : Nat) (snoops : List (Nat × Op × Bool))
    (grant : LSt) (intent : Bool) : Fabric :=
  let s := sliceOf o.la
  match f.freeTracker s with
  | none => f
  | some i =>
    let t := (lineArr 2 (.reconcile a o.rseq) .reconcile o.la).toTxn cfg s i f.nextSeq
    let t := { t with blk := true, grant := grant, ackDue := true, value := b2n intent,
                      todo := snoopP snoops ++ [.ack] }
    { f with txns := f.txns ++ [t], nextSeq := f.nextSeq + 1 }

/-- The dedup entry of an open transaction changes. -/
def Fabric.modDedup (f : Fabric) (a : Nat) (rseq : Word32) (g : Dedup → Option Dedup) : Fabric :=
  let k := dedupKey a rseq
  match Tab.find f.twin.dedup k with
  | some e =>
    match g e with
    | some e' => f.modTwin (fun t => { t with dedup := Tab.set t.dedup k e' })
    | none => f.modTwin (fun t => { t with dedup := Tab.erase t.dedup k })
  | none => f

/-- Resolve one open transaction by the first row of Table 13.9 that applies. -/
def Fabric.resolve (cfg : Cfg) (f : Fabric) (r : TRec) : Fabric :=
  match f.mapAgent r.agent, r.txn with
  | some a, some x =>
    let pend := match r.gch with
      | some g => (onesOf g.pend 16).filterMap (fun k => f.mapSlot k)
      | none => []
    let pend := pend.filter (fun b => b ≠ a)
    let sn := fun (b : Nat) => (b, if removesCopies x.opcode then Op.snpInv else Op.snpShared, false)
    if r.rtype = 5 then f.reconcile cfg r a (pend.map (fun b => (b, Op.snpOwn, false))) .i true
    else if x.dup then
      let owner := pend.find? (fun b => match f.gran.recordOf b r.la with
        | some (st, _) => st ≠ .s | none => false)
      let others := pend.filter (fun b => owner ≠ some b)
      match Tab.find f.twin.dups x.htag with
      | some (h, _) =>
        let st := (LSt.ofCode (dtState h)).getD x.st
        let f := f.modDedup a r.rseq (fun e => some { e with st := st })
        if x.opcode = 0x01 then
          let own := match owner with | some b => [(b, Op.snpShared, false)] | none => []
          f.reconcile cfg r a (own ++ others.map sn) st false
        else
          let f := match owner with
            | some b => { f with gran := f.gran.removeAgent b r.la }
            | none => f
          let f := if st = .i then f else { f with gran := f.gran.setAgent a r.la st }
          f.reconcile cfg r a (others.map sn) st false
      | none =>
        let f := { f with gran := f.gran.removeAgent a r.la }
        let f := f.modDedup a r.rseq (fun _ => none)
        let f := f.modTwin (fun t => { t with voided := bvSat t.voided 1 })
        f.reconcile cfg r a (others.map (fun b => (b, Op.snpInv, false))) .i true
    else f.reconcile cfg r a (pend.map sn) x.st false
  | _, _ => f

/-- Resolve every open transaction; one whose home slice has no free tracker waits for one (R26). -/
def Fabric.resolveAll (cfg : Cfg) (f : Fabric) : Fabric :=
  let opens := f.twin.opens
  if opens = [] then f
  else
    (opens.foldl (fun f o =>
      if (f.freeTracker (sliceOf o.la)).isNone then f.modTwin (fun t => { t with opens := t.opens ++ [o] })
      else f.resolve cfg o) (f.modTwin (fun t => { t with opens := [] }))).settle cfg

/-- No open transaction awaits its resolution, and no reconcile snoop is unanswered. -/
def Fabric.reconciled (f : Fabric) : Bool :=
  f.twin.opens = [] && f.txns.all (fun t => t.op ≠ .reconcile || (t.todo.all (fun m => match m with | .snoop _ => false | _ => true)
    && t.snoops.all (·.done)))

/-- A descriptor at takeover: the survivor goes through its range once more, and makes the line requests that no
mark names (R260). -/
def Desc.resume (d : Desc) : Desc :=
  if d.internal || d.recording || (d.ending && ¬ d.mirror) then d
  else if d.mirror then { d with mirror := false, running := true, ending := false, rescan := true }
  else { d with partnerDone := true, rescan := d.running }

/-- An agent whose declaration does not offer twin mode (FEATURES bit 0, R354). -/
def Fabric.notTwin (f : Fabric) (a : Nat) : Bool :=
  match (f.link a).decl with | some d => ¬ (dclField d 36 1).testBit 0 | none => false

/-- Step 6: takeover. -/
def Fabric.takeover (cfg : Cfg) (f : Fabric) : Fabric :=
  let was := f.twin.role
  let f := f.setPair .survivor
  let f := f.modTwin (fun t => { t with step := 7, role := 3, failovers := bvSat t.failovers 1,
                                        survived := true, resendOpen := true, stbyWalk := true })
  let f := ((f.raise 37).evtIrqAll 37 1).evtIrqAll 32 3
  let f := ((List.range 32).filter (fun a => f.notTwin a)).foldl (fun f a =>
    let (l, fx) := (f.link a).fence
    (f.setLink a l).linkFx cfg a fx) f
  let other := fun (la : LAddr) => parityH la != decide (was = 2)
  let taken : List Hold := f.gran.entries.filterMap (fun p =>
    if (p.2.st = .e || p.2.st = .m) && other p.2.la then
      (f.gran.agentOf (locSlot p.1)).map (fun a => ⟨sliceOf p.2.la, p.2.la, a⟩)
    else none)
  let taken := taken.filter (fun h => 0 < cfg.holdTime h.slice)
  let ds := f.hrw.descs.map Desc.resume
  let f := { f with holds := f.holds ++ taken, hrw := { f.hrw with descs := ds } }
  f.settle cfg

/-- Takeover follows as soon as every reconcile snoop is answered. -/
def Fabric.twinProgress (cfg : Cfg) (f : Fabric) : Fabric :=
  if f.twin.step ≠ 6 then f
  else
    let f := f.resolveAll cfg
    if f.reconciled then f.takeover cfg else f

/-- Step 5: SNOOP_TIMEOUT from step 3 has passed; the open transactions are resolved. -/
def Fabric.reconcileExpiry (cfg : Cfg) (f : Fabric) : Fabric :=
  if f.twin.step ≠ 5 then f
  else
    ((f.modTwin (fun t => { t with step := 6 })).resolveAll cfg).twinProgress cfg

/-- RESEND_WINDOW ends: what waits is closed as though CompAck had arrived; an INTENT to which a
holder answered RspI poisons its line (Table 13.9). -/
def Fabric.resendExpiry (cfg : Cfg) (f : Fabric) : Fabric :=
  if ¬ f.twin.resendOpen then f
  else
    let tx := modAll (fun (t : Txn) => t.op = .reconcile) (fun t =>
      let gone := t.value = 1 && t.snoops.any (fun s => s.op = .snpOwn &&
        (match s.resp with | some (.rspI, _, _) => true | _ => false))
      if gone then { t with ackIn := true, todo := t.todo.filter (fun m => m ≠ .ack) ++ poisonP }
      else { t with ackIn := true }) f.txns
    (({ f with txns := tx } : Fabric).modTwin (fun t =>
      { t with resendOpen := false, step := if t.stbyWalk then 7 else 0 })).settle cfg

/-- The walk that clears STBY in every sector ends. -/
def Fabric.stbyWalkEnd (f : Fabric) : Fabric :=
  if ¬ f.twin.stbyWalk then f
  else
    let c := { f.cache with sectors := f.cache.sectors.map (fun p => (p.1, { p.2 with stby := false })) }
    ({ f with cache := c } : Fabric).modTwin (fun t =>
      { t with stbyWalk := false, step := if t.resendOpen then 7 else 0 })

/-! ## Hello and pairing (R353) -/

/-- A time step: the primary's time is taken, TIME_STEP set, source 35 raised, the step
journalled (R374). -/
def Fabric.timeStep (f : Fabric) (t : Word64) : Fabric :=
  ({ f with time := t, jreq := f.jreq ++ [(0x13, t.toNat, f.time.toNat)],
            twin := { f.twin with timeStep := true } } : Fabric).raise 35

/-- The role that the straps and WITNESS give this device: primary, or none where nothing decides. -/
def helloRole (own partner : Hello) : Option Bool :=
  if own.survived && ¬ partner.survived then some true
  else if partner.survived && ¬ own.survived then some false
  else if own.strap ≠ partner.strap then some own.strap
  else if own.witness = 2 && partner.witness = 1 then some true
  else if own.witness = 1 && partner.witness = 2 then some false
  else none

/-- Resynchronisation starts with this device as the authority (R370, R371); the record streams of both
devices start at LSEQ 0. -/
def Fabric.resyncStart (f : Fabric) (h : Hello) : Fabric :=
  let delta := ¬ h.resetSince && decide (h.epoch = f.twin.epochAtFail) && f.twin.survived
  (f.modTwin (fun t => { t with rejoiner := false, percent := 0, full := ¬ delta, tracking := true,
                                lseq := Vector.replicate 10 0, expect := Vector.replicate 10 0,
                                outstanding := [], late := [], backlog := [] })).setPair .resync

/-- This device rejoins under the partner's authority. -/
def Fabric.rejoinStart (f : Fabric) : Fabric :=
  (f.modTwin (fun t => { t with rejoiner := true, role := if t.role = 3 then 2 else t.role, percent := 0,
                                lseq := Vector.replicate 10 0, expect := Vector.replicate 10 0,
                                outstanding := [], late := [], backlog := [] })).setPair .resync

/-- The devices that cannot pair stay as they are: SINGLE where they met in HELLO. -/
def Fabric.staySingle (f : Fabric) : Fabric := if f.twin.pair = .hello then f.setPair .single else f

/-- Which device is authoritative by the two hellos: this one, the partner, or neither (R353).  A device in ISOLATED
leaves that state only by resynchronising under its partner (R365). -/
def Fabric.authoritative (f : Fabric) (own h : Hello) : Option Bool :=
  if f.twin.pair = .isolated then some false
  else if own.survived && ¬ h.survived then some true
  else if h.survived && ¬ own.survived then some false
  else if own.epoch = h.epoch then none
  else some (decide (h.epoch < own.epoch))

/-- Resynchronisation starts in the direction that the hellos give, or a joint drain where no copy is needed. -/
def Fabric.joinBy (f : Fabric) (own h : Hello) : Fabric :=
  match f.authoritative own h with
  | some true => f.resyncStart h
  | some false => f.rejoinStart
  | none => f.modTwin (fun t => { t with wantDrain := true })

/-- The link layer of the twin link is up: this device's hello is answered and its agents are made known (R353,
R354). -/
def Fabric.greet (cfg : Cfg) (f : Fabric) : Fabric :=
  if f.tlink.st ≠ .declare then f
  else
    let (l, fx) := (f.tlink.freshActive twinGrant twinGrant).enter .active
    let f := ((f.setLink 32 l).linkFx cfg 32 fx).sendCtl 3 0
    let f := if f.twin.pair = .single then f.setPair .hello else f
    (List.range 32).foldl (fun f a =>
      match (f.link a).decl with
      | some d => f.tellMap (dclUid d) a ((f.link a).slot.getD 0xFF) true
      | none => f) f

/-- The partner's hello arrives (Table 13.4); `own` is what this device's hello says. -/
def Fabric.hello (cfg : Cfg) (f : Fabric) (own h : Hello) : Fabric :=
  if ¬ cfg.twinEn || ¬ (f.tlink.st = .declare || f.tlink.st = .active) then f
  else
    let fresh := f.tlink.st = .declare
    let f := (f.greet cfg).modTwin (fun t => { t with partner := some h, heard := true })
    let f := if f.twin.pair = .single then f.setPair .hello else f
    if f.twin.pair = .paired && ¬ fresh then f
    else if own.digest ≠ h.digest then (f.disagree 1).staySingle
    else if own.fwMajor ≠ h.fwMajor || own.fwMinor ≠ h.fwMinor then (f.disagree 2).staySingle
    else if own.capGib ≠ h.capGib then (f.disagree 4).staySingle
    else
      let role := helloRole own h
      let f := if own.epoch ≠ h.epoch then f.disagree 3 else f
      let off := (max own.time.toNat h.time.toNat) - (min own.time.toNat h.time.toNat)
      let f := if 1 < off then
          let f := f.disagree 6
          if role = some false then f.timeStep h.time else f.raise 35
        else f
      match role with
      | none => (f.disagree 5).staySingle
      | some primary =>
        let f := f.modTwin (fun t => { t with role := if t.role = 3 then 3 else if primary then 1 else 2 })
        if cfg.autoRejoin || (f.authoritative own h).isNone then f.joinBy own h else f

/-- TWIN_REJOIN starts resynchronisation with the partner whose hello is in (R370). -/
def Fabric.rejoin (f : Fabric) (own : Hello) : Fabric :=
  match f.twin.partner with
  | some h => if f.twin.pair = .resync || f.twin.pair = .paired then f else f.joinBy own h
  | none => f

/-! ## Resynchronisation (R370 to R372) -/

/-- Insert a number into a rising list. -/
def insertUp (n : Nat) : List Nat → List Nat
  | [] => [n]
  | m :: ms => if n ≤ m then n :: m :: ms else m :: insertUp n ms

/-- The backing pages that the copy covers, rising: every unmarked one in a full copy, those of the resync
map in a delta (R371). -/
def Fabric.copyPages (f : Fabric) : List Nat :=
  if f.twin.full then f.mem.unmarked.map (·.1) else f.twin.resyncMap.foldr insertUp []

/-- The copy items of R370: the pages with their zero-map marks, dirty sub-blocks as standby data, Granary
entries, deduplication entries, running descriptors.  Page items name backing lines; one without data is a
page's mark, 1 in RSEQ where it is unmarked. -/
def Fabric.copyItems (f : Fabric) : List TRec :=
  let pages := f.copyPages.flatMap (fun p =>
    let at_ := fun (k : Nat) => TRec.mk0 0xC 9 (BitVec.ofNat 46 (p * 64 + k)) 0
    if f.mem.marked p then [at_ 0]
    else { at_ 0 with rseq := 1 } :: (List.range 64).map (fun k =>
      let w := wordNow f.mem.dq f.mem.ddr (p * 64 + k)
      { at_ k with data := some (w.data, w.pm) }))
  let dirty := f.cache.sectors.flatMap (fun p =>
    (onesOf p.2.dirty.toNat 64).map (fun k =>
      let la := lineOfPage (pageOfTag (p.1 / 10) p.2.tag.toNat) k
      let w := wordNow f.mem.hq f.mem.hbm (p.1 * 64 + k)
      { TRec.mk0 0xB 9 la p.2.tenant.toNat with data := some (w.data, w.pm) }))
  let grn := f.gran.entries.map (fun p =>
    { TRec.mk0 0xC 9 p.2.la 0 with
      gch := some { Gch.none with write := some (locSlot p.1, p.2.st, locSet p.1, locWay p.1) } })
  let dedup := f.twin.dedup.map (fun p =>
    { TRec.mk0 0xC 9 p.2.la (b2n p.2.opn) with
      agent := p.1 / 4096
      rseq := p.2.rseq
      txn := some ⟨p.2.htag, p.2.opcode, p.2.st, p.2.res, p.2.dup, p.2.value⟩ })
  let descs := (f.hrw.descs.filter (fun d => d.running && ¬ d.mirror && ¬ d.internal)).flatMap (fun d =>
    { hrwRec d.ticket d.queue (some d.raw) 0 false with src := 9 } ::
      (d.marks.filter (fun m => m < 2 ^ 46)).map (fun m => { hrwRec d.ticket d.queue none m false with src := 9 }))
  pages ++ dirty ++ grn ++ dedup ++ descs

/-- Raise source 39 for every tenth of the copy that passes from `old` to `new` per cent. -/
def Fabric.passTenths (f : Fabric) (old new : Nat) : Fabric :=
  (List.range 10).foldl (fun f k => if old < 10 * (k + 1) && 10 * (k + 1) ≤ new then f.raise 39 else f) f

/-- The copy ends, and a joint drain follows (R372). -/
def Fabric.copyEnd (f : Fabric) : Fabric :=
  if f.twin.pair ≠ .resync then f
  else
    let old := f.twin.percent.toNat
    let items := if f.twin.rejoiner then [] else f.copyItems
    let f := items.foldl Fabric.logFree f
    (f.modTwin (fun t => { t with percent := 100, wantDrain := true, sentCopy := t.sentCopy ++ items })).passTenths
      old 100

/-- At step 7e of a pair-forming drain, STBY follows the active homes (R372). -/
def Fabric.reassignStby (f : Fabric) (primary : Bool) : Fabric :=
  let c := { f.cache with sectors := f.cache.sectors.map (fun p =>
    let la := lineOfPage (pageOfTag (p.1 / 10) p.2.tag.toNat) 0
    (p.1, { p.2 with stby := parityH la == primary })) }
  { f with cache := c }

/-- At step 8 both devices enter PAIRED (R353, R355, R372). -/
def Fabric.pairUp (f : Fabric) (primary : Bool) : Fabric :=
  let was := f.twin.pair
  let f := f.setPair .paired
  let f := if was = .resync then f.raise 39 else f
  let f := f.modTwin (fun t =>
    { t with role := if primary then 1 else 2, wantDrain := false, tracking := false, resyncMap := [],
             survived := false, powerSince := false, rejoiner := false, step := 0,
             outstanding := [], late := [], backlog := [] })
  let f := { f with hrw := { f.hrw with descs := f.hrw.descs.filter (fun d => ¬ d.mirror) } }
  f.evtIrqAll 32 (if primary then 1 else 2)

/-! ## Heartbeats, agent map and time (R348, R354, R374) -/

/-- A heartbeat is sent. -/
def Fabric.heartbeat (cfg : Cfg) (f : Fabric) : Fabric :=
  if cfg.twinEn && f.tlink.st = .active then f.sendCtl 2 0 else f

/-- The partner's agent-map update: held REQ credits of the same agent are released (R354). -/
def Fabric.mapUpdate (f : Fabric) (uid : Word64) (a slot sets ways : Nat) (present : Bool) : Fabric :=
  let rest := f.twin.agentMap.filter (fun m => m.1 ≠ uid)
  let map := if present then rest ++ [(uid, a, slot, sets, ways)] else rest
  let f := f.modTwin (fun t => { t with agentMap := map })
  if ¬ present || f.draining then f
  else (List.range 32).foldl (fun f b =>
    match (f.link b).decl with
    | some d =>
      if dclUid d = uid.toNat then f.modLink b (fun l => Link.pump portKind { l with withhold := false })
      else f
    | none => f) f

/-- The primary sends its time. -/
def Fabric.timeSend (f : Fabric) : Fabric :=
  if f.primary && f.tlink.st = .active then f.sendCtl 5 f.time.toNat else f

/-- The secondary takes the primary's time: it slews within 1 µs and steps beyond (R374). -/
def Fabric.timeReceive (f : Fabric) (t : Word64) (roundTrip : Nat) : Fabric :=
  if f.twin.role ≠ 2 then f
  else
    let p := t.toNat + roundTrip / 2
    let off := (max p f.time.toNat) - (min p f.time.toNat)
    if off ≤ 1 then f else f.timeStep (BitVec.ofNat 64 p)

end Sys2Proof.Machine
end

