-- ==== Sys2Proof/Machine/Drain.lean ====
section
/-! DEFINITION. The epoch drain (R324 to R335): the configuration checks, its steps and sub-steps, and
what the control side does after each command of the fabric. -/
namespace Sys2Proof.Machine

/-! ## Configuration checks (R445, Table 16.3) -/

/-- The enabled regions of a configuration with their numbers. -/
def Cfg.enabled (c : Cfg) : List (Nat × RgnWords) :=
  (List.range 64).filterMap (fun n =>
    let w := vget c.rgn RgnWords.zero n
    if w.en then some (n, w) else none)

/-- A page range without the pages of another one. -/
def cutRange (lo hi : Nat) (r : Nat × Nat) : List (Nat × Nat) :=
  if r.2 < lo || hi < r.1 then [(lo, hi)]
  else (if lo < r.1 then [(lo, r.1 - 1)] else []) ++ (if r.2 < hi then [(r.2 + 1, hi)] else [])

/-- The pages to which an enabled region applies, a lower-numbered one taking precedence (R178), as
ranges of pages with the backing page of the first. -/
def effRanges : List (Nat × RgnWords) → List (Nat × Nat) → List (Nat × Nat × Nat)
  | [], _ => []
  | (n, w) :: rest, taken =>
    let back := (w.region n).back
    let parts := taken.foldl (fun l t => l.flatMap (fun p => cutRange p.1 p.2 t))
      (if w.base ≤ w.limit then [(w.base, w.limit)] else [])
    parts.map (fun p => (p.1, p.2, back + (p.1 - w.base))) ++ effRanges rest (taken ++ [(w.base, w.limit)])

/-- Two ranges of system pages share a backing page. -/
def backsMeet (a b : Nat × Nat × Nat) : Bool :=
  decide (a.2.2 ≤ b.2.2 + (b.2.1 - b.1)) && decide (b.2.2 ≤ a.2.2 + (a.2.1 - a.1))

/-- Some two of the ranges share a backing page (R179). -/
def anyMeet : List (Nat × Nat × Nat) → Bool
  | [] => false
  | a :: rest => rest.any (backsMeet a) || anyMeet rest

/-- The line mode of a region entry. -/
def RgnWords.lineMode (w : RgnWords) : Bool := (w.region 0).line

/-- The first region that fails a test. -/
def firstBad (l : List (Nat × RgnWords)) (bad : RgnWords → Bool) : Option Nat :=
  (l.find? (fun p => bad p.2)).map (·.1)

/-- A stack failed its training (R287). -/
def Bring.stackFailed (b : Bring) : Bool := b.hbc.toList.any (fun h => h.train = 3)

/-- The status of the first check of Table 16.3 that fails, and the region where one is named; 0 when
all hold. -/
def State.checks (s : State) : Nat × Nat :=
  let c := s.stw.staged
  let rs := c.enabled
  let cap := s.pcr.bring.cap * 2 ^ 18
  let none113 := ¬ (rs.any (fun p => p.2.lineMode) || s.cfg.enabled.any (fun p => p.2.lineMode))
  match firstBad rs (fun w => decide (w.limit < w.base)) with
  | some n => (0x0110, n)
  | none => match firstBad rs (fun w => cap = 0 || s.pcr.bring.stackFailed ||
      decide (cap ≤ (w.region 0).back + (w.limit - w.base))) with
  | some n => (0x0111, n)
  | none => match firstBad rs (fun w => w.lineMode &&
      (w.rtype = .ucn || w.rtype = .dev || c.coberGib = 0)) with
  | some n => (0x0112, n)
  | none =>
    if (c.coberGib ≠ s.cfg.coberGib || c.coberWays ≠ s.cfg.coberWays) && ¬ none113 then (0x0113, 0)
    else if c.accHi ≤ c.accLo then (0x0114, 0)
    else if anyMeet (effRanges rs []) then (0x0115, 0)
    else (0, 0)

/-! ## The start of a drain -/

/-- A record of the Steward's own about an epoch step (1) or a repair (2).
DESIGN CHOICE (log entry 52): the spec does not say what its data holds. -/
def stewRec (what kind : Nat) : TRec :=
  { TRec.mk0 0xA 9 0 0 with data := some (BitVec.ofNat 512 (what + 2 ^ 32 * kind), false) }

/-- The Steward's record goes to the partner without a gate. -/
def State.tellPartner (s : State) (what kind : Nat) : State := { s with fab := s.fab.logFree (stewRec what kind) }

/-- The pair runs drains together: it forms, or is formed (R335). -/
def State.together (s : State) : Bool :=
  s.fab.twin.pair = .paired || s.fab.twin.pair = .resync || (s.stw.joint && (s.fab.twin.pair = .hello || s.fab.twin.pair = .waiting))

/-- Step 1 begins: admission stops, EvtIrq 225 leaves, the Harrow, the Gleaner and the formation of
prefetches stop (R208, R259, R317, R328, R329); a device that is to stop sends its goodbye (R471). -/
def State.step1 (s : State) : State :=
  let isStop : Bool := match s.stw.by_ with | .stop _ => true | _ => false
  let f := { s.fab with draining := true, links := s.fab.links.map (fun (l : Link) => { l with withhold := true }) }
  let f := (f.harrowPause.raise 225).evtIrqAll 225 1
  let p := { f.pfu with stopped := true, queue := f.pfu.queue.filter (fun x => x.issued), targets := [], training := [] }
  let f := { f with gln := { f.gln with stopped := true }, pfu := p }
  let f := if isStop && f.twin.pair ≠ .single then f.sendCtl 4 0 else f
  let w := { s.stw with step := 1, sub := 0, preclean := false, before := s.cfg, done7g := false, disagree := 0,
                        rewrite := false, stepGate := none }
  ({ s with fab := f, stw := w } : State).tellPartner 1 1

/-- Put a descriptor of the Steward in an internal queue: 49 and 50 are queues 0 and 1. -/
def State.internal (s : State) (queue : Nat) (raw : Line) : State × Nat :=
  let r := s.fab.enqueue queue raw none
  ({ s with fab := r.1 }, r.2)

/-- The descriptor CLEAN with ALL and SCOPE 0. -/
def cleanAll : Line := mkDesc 1 8 0 0 false

/-- The drain begins with its preclean where PRECLEAN is set, else with step 1 (R326). -/
def State.runDrain (s : State) (by_ : DrainBy) (opts : Nat) : State :=
  let s := s.modStw (fun w => { w with by_ := by_, opts := opts, joint := decide (by_ = .joint) })
  if opts.testBit 0 then ((s.internal 50 cleanAll).1).modStw (fun w => { w with preclean := true })
  else s.step1

/-- A drain begins, or its EPOCH_APPLY completes with the status of what refuses it: the epoch number is
at its end (R324), EXPECT differs (R446), a check of Table 16.3 fails (R325). -/
def State.beginDrain (s : State) (by_ : DrainBy) (opts : Nat) : State :=
  if s.pcr.byStop then
    match by_ with
    | .apply m => s.answer m 0x02F2 []
    | .stop m => s.complete m 0 []
    | _ => s
  else match by_ with
  | .apply m =>
    let expect_ := (s.stw.mb m).pay 4 4
    let chk := s.checks.1
    if s.stw.jrnl.committed = 0xFFFFFFFF then s.complete m 0x0201 []
    else if expect_ ≠ 0 && expect_ ≠ s.fab.epoch then s.complete m 0x0202 []
    else if chk ≠ 0 then s.complete m chk []
    else s.runDrain by_ opts
  | .stop _ => s.runDrain by_ opts
  | .cacheOff | .joint =>
    if s.stw.jrnl.committed = 0xFFFFFFFF then s
    else
      let staged := if by_ = .cacheOff then { s.cfg with tag := s.cfg.tag.map (fun w => w &&& ~~~(1#32)) } else s.cfg
      (s.modStw (fun w => { w with staged := staged })).runDrain by_ opts

/-- Ask for a drain: it begins now, or after the present ones (R325). -/
def State.askDrain (s : State) (by_ : DrainBy) (opts : Nat) : State :=
  if s.stw.busy then s.modStw (fun w => { w with waiting := w.waiting ++ [(by_, opts)] })
  else s.beginDrain by_ opts

/-- Drains that wait begin one after another; one that is refused lets the next begin. -/
def nextDrainN : Nat → State → State
  | 0, s => s
  | n + 1, s =>
    if s.stw.busy then s
    else match s.stw.waiting with
    | [] => s
    | d :: rest => nextDrainN n ((s.modStw (fun w => { w with waiting := rest })).beginDrain d.1 d.2)

/-- The next drain that waits begins. -/
def State.nextDrain (s : State) : State := nextDrainN s.stw.waiting.length s

/-! ## Steps 1 to 6 (Table 12.2) -/

/-- Every port, slice, ordering unit and Harrow queue has completed its work (step 2); the units have released
every entry (Table 8.7). -/
def Fabric.drained (f : Fabric) : Bool :=
  f.ord.toList.all (fun o => o.items.all (·.released)) && f.hrw.waiting = [] && f.txns = [] && f.arr = [] && f.mem.hq = [] && f.mem.dq = [] && f.pfu.queue = [] && f.hrw.answers = []
    && f.gran.slots.toList.all (fun c => c.walk.isNone)
    && f.hrw.descs.all (fun d => d.internal || d.mirror)

/-- Every write buffer is empty and every entry has reached its end point (step 3). -/
def Fabric.buffersClear (f : Fabric) : Bool := f.ord.toList.all (fun o => o.items = [] && o.short = [])

/-- Step 6: the prefetch unit forgets its streams, records, counts and modes (R208). -/
def Pfu.clear (p : Pfu) : Pfu :=
  { p with streams := [], record := [], counts := Vector.replicate 32 (0, 0), mode := 0, reports := [] }

/-- The Weighbridge has reported the close, or cannot (step 5). -/
def Wgb.closed (w : Wgb) : Bool := w.short.isNone || ¬ w.powered || ¬ w.tcxoOk

/-- The record of an epoch: its number, its digest and the options. -/
def epochBody (n : Nat) (digest : BitVec 384) (opts : Nat) : List Nat :=
  leBytes n 4 ++ leBytes digest.toNat 48 ++ [opts % 256]

/-- Step 7 begins: sub-step 7a journals the intent record; a stopping device writes none (R331, R471). -/
def State.step7 (s : State) : State :=
  let w := { s.stw with step := 7, sub := 1 }
  match w.by_ with
  | .stop _ => { s with stw := w }
  | _ => { s with stw := w.log 0x10 0 (epochBody (w.jrnl.committed + 1) w.staged.digest w.opts) }

/-- The end of a step from 1 to 6, whose condition holds. -/
def State.nextStep (s : State) : State :=
  match s.stw.step with
  | 1 =>
    let f := (s.fab.harrowCut s.cfg).flow s.cfg
    { s with fab := f, stw := { s.stw with step := 2 } }
  | 2 =>
    let s := { s with fab := (s.fab.harrowCut s.cfg).flow s.cfg }
    if s.fab.drained then
      let f := { s.fab with resv := Vector.replicate 256 none }
      { s with fab := f, stw := { s.stw with step := 3 } }
    else s
  | 3 => if s.fab.buffersClear then { s with stw := { s.stw with step := 4 } } else s
  | 4 =>
    if (s.fab.twin.outstanding = [] && s.fab.twin.late = []) || ¬ s.fab.mirrors then
      { s with wgb := s.wgb.closeShort, stw := { s.stw with step := 5 } }
    else s
  | 5 =>
    if s.wgb.closed then
      { s with fab := { s.fab with pfu := s.fab.pfu.clear }, irq := s.irq.quieten, stw := { s.stw with step := 6 } }
    else s
  | 6 => s.step7
  | _ => s

/-! ## Step 7 (Table 12.4) -/

/-- What R182 compares in a region entry, TENANT, PART and METER apart. -/
def RgnWords.shape (w : RgnWords) : Bool × Nat × Nat × Nat × Nat × Bool :=
  (w.en, w.base, w.limit, w.back.toNat, w.rtype.code, w.lineMode)

/-- The old ranges that step 7b flushes: enabled regions whose shape changes (R182). -/
def Cfg.changed (old new : Cfg) : List RgnWords :=
  (List.range 64).filterMap (fun n =>
    let a := vget old.rgn RgnWords.zero n
    let b := vget new.rgn RgnWords.zero n
    if a.en && a.shape ≠ b.shape then some a else none)

/-- The regions of which only TENANT changes, with the new tenant. -/
def Cfg.retenanted (old new : Cfg) : List (RgnWords × Nat) :=
  (List.range 64).filterMap (fun n =>
    let a := vget old.rgn RgnWords.zero n
    let b := vget new.rgn RgnWords.zero n
    if a.en && a.shape = b.shape && (a.region n).tenant ≠ (b.region n).tenant then some (a, (b.region n).tenant)
    else none)

/-- FLUSH of a range of pages, in descriptors of at most 2²⁷ pages. -/
def State.flushPages (s : State) (base limit : Nat) : State :=
  let n := limit + 1 - base
  (List.range ((n + 2 ^ 27 - 1) / 2 ^ 27)).foldl (fun s i =>
    let k := min (2 ^ 27) (n - i * 2 ^ 27)
    (s.internal 50 (mkDesc 3 0 ((base + i * 2 ^ 27) * 4096) (k * 4096) false)).1) s

/-- CACHE_EN of some slice changes to 0. -/
def State.disabling (s : State) : Bool :=
  (List.range 8).any (fun i => s.stw.before.cacheEn i && ¬ s.stw.staged.cacheEn i)

/-- Cober invalidation (R188): the partition and its line tags are invalid, their locks cleared.  A tag loss ends
only by its own command (R316). -/
def Cache.dropCober (c : Cache) : Cache := { c with cober := [], plru := [] }

/-- Sub-step 7b: the flushes of R182, Cober invalidation, the clean of R183, the options. -/
def State.start7b (s : State) : State :=
  let stopping : Bool := match s.stw.by_ with | .stop _ => true | _ => false
  let old := s.stw.before
  let new := if stopping then old else s.stw.staged
  let s := s.modStw (fun w => { w with sub := 2 })
  let opts := s.stw.opts
  let s := ((old.changed new).filter (fun w => w.rtype.cacheable)).foldl (fun s w => s.flushPages w.base w.limit) s
  let s := if new.coberGib ≠ old.coberGib || new.coberWays ≠ old.coberWays then
      { s with fab := { s.fab with cache := s.fab.cache.dropCober } } else s
  if opts.testBit 2 then
    (old.enabled.filter (fun p => p.2.rtype.cacheable)).foldl (fun s p => s.flushPages p.2.base p.2.limit) s
  else if opts.testBit 1 || (¬ stopping && s.disabling) then (s.internal 50 cleanAll).1
  else s

/-- Internal queue 1 is empty. -/
def Fabric.queue1Empty (f : Fabric) : Bool := f.hrw.descs.all (fun d => d.queue ≠ 50)

/-- The sum of TAG_s_DIRTY. -/
def State.dirtySum (s : State) : Nat :=
  (List.range 8).foldl (fun n i => n + s.fab.cache.dirtyCount s.cfg i) 0

/-- Drop the event 88 that ends the flush of changed regions. -/
def State.end7b (s : State) : State :=
  if s.stw.before.changed s.stw.staged ≠ [] then s.raise 88 else s

/-- The channel of a DDR5 location (Table 11.8). -/
def Repair.channel (r : Repair) : Nat := r.loc % 16

/-- The body of a repair's journal entry: block, state, LOC, row. -/
def Repair.body (r : Repair) : List Nat := [r.block, r.state] ++ leBytes r.loc 6 ++ leBytes r.row 8

/-- One pending repair is applied or refused (Table 11.10 steps 3 and 4, R289, R290); none is made for a DRAM
declared faulty (R311). -/
def State.repairOne (s : State) (i : Nat) (ok : Bool) : State :=
  match s.fab.gln.repairs[i]? with
  | none => s
  | some r =>
    let dead := 4 ≤ r.block && r.block < 10 && s.fab.gln.faulty.contains (r.block, s.fab.rankOf r.loc, r.dram)
    let ok := ok && ¬ dead
    let r' := { r with state := if ok then 2 else 3, epoch := s.stw.jrnl.committed + 1 }
    let g := { s.fab.gln with repairs := s.fab.gln.repairs.set i r' }
    let s := { s with fab := { s.fab with gln := g } }
    let s := (s.modStw (fun w => w.log 0x30 i r'.body)).tellPartner (i + 2 ^ 16 * r'.state) 2
    let b := s.pcr.bring
    let s := if r.block < 4 then
        let b := { b with hbc := vmod b.hbc r.block (fun h => { h with pprDone := if ok then min 15 (h.pprDone + 1) else h.pprDone }) }
        ({ s with pcr := { s.pcr with bring := b } }).raise (96 + r.block)
      else if r.block < 10 then
        let b := { b with ddc := vmod b.ddc r.channel (fun d =>
          if ok then { d with sppr := min 15 (d.sppr + 1) } else { d with out := d.out || ¬ dead }) }
        let s := ({ s with pcr := { s.pcr with bring := b } }).raise (112 + r.channel)
        if ok then s.modStw (fun w => w.log 0x31 r.channel (leBytes i 2 ++ r'.body)) else s
      else s
    s.raise (if ok then 173 else 174)

/-- Sub-step 7c: every pending repair, by the outcomes given in the order of the list; one without an
outcome is applied. -/
def State.repairs (s : State) (outcomes : List Bool) : State :=
  let pend := (List.range s.fab.gln.repairs.length).filter (fun i =>
    match s.fab.gln.repairs[i]? with | some r => r.state = 1 | none => false)
  pend.zipIdx.foldl (fun s p => s.repairOne p.1 (outcomes.getD p.2 true)) s

/-- An Active link trains again at another rate with its state kept: it passes through Recovery to step 2 of
Table 2.9 (log entry 80). -/
def Fabric.retrain (f : Fabric) (a : Nat) (rate : BitVec 2) : Fabric :=
  (f.setLink a { (f.link a).recover.1 with st := .polling, rate := BitVec.ofNat 2 (min 2 rate.toNat) }).raise (2 * (a / 2))

/-- A link of a port that has lost its power; one that was not Disabled enters Disabled (R70). -/
def Fabric.linkDark (f : Fabric) (a : Nat) : Fabric :=
  if a = 32 then { f with tlink := Link.init .disabled }
  else
    let g := { f with links := vset f.links a (Link.init .disabled), ord := vset f.ord a Ord.init,
                      laneFault := if a % 2 = 0 then vset f.laneFault (a / 2) 0 else f.laneFault }
    if (f.link a).st = .disabled then g else g.raise (2 * (a / 2))

/-- Switch a power domain of ports 2j and 2j + 1 or, for bit 8, of the twin link (Table 19.4). -/
def State.switchPorts (s : State) (j : Nat) (want : Bool) : State :=
  let s := { s with pcr := { s.pcr with pd := BitVec.ofNat 32 (putBit s.pcr.pd.toNat j want) } }
  if want then s
  else if j = 8 then { s with fab := s.fab.linkDark 32 }
  else { s with fab := (List.range 4).foldl (fun f i => f.linkDark (4 * j + i)) s.fab }

/-- The port and twin domains that a configuration keeps on. -/
def State.portDomains (s : State) : State :=
  let s := (List.range 8).foldl (fun s j =>
    let want := s.cfg.portEn (2 * j) || s.cfg.portEn (2 * j + 1)
    if want == s.on j then s else s.switchPorts j want) s
  if s.cfg.twinEn == s.on 8 then s else s.switchPorts 8 s.cfg.twinEn

/-- A port is reset with its agents where a link was in use (R61, R62). -/
def Fabric.resetPort (cfg : Cfg) (f : Fabric) (n : Nat) : Fabric := (f.portReset cfg (2 * n)).portReset cfg (2 * n + 1)

/-- Sub-step 7d: every RWE field of every block is written; a port whose PORT_EN becomes 0 is disabled,
and the port and twin domains switch (R331, R333, Table 19.4). -/
def State.write7d (s : State) (new : Cfg) : State :=
  let old := s.cfg
  let f := (List.range 16).foldl (fun f n => if old.portEn n && ¬ new.portEn n then f.resetPort old n else f) s.fab
  let f := if old.twinEn && ¬ new.twinEn then (f.setLink 32 (Link.init .disabled)) else f
  ({ s with cfg := new, fab := f } : State).portDomains

/-- Sub-step 7e: SPLIT changes reset their ports (R62), a TENANT change starts its rewrite (R182), and a
pair-forming drain reassigns STBY (R372). -/
def State.start7e (s : State) : State :=
  let old := s.stw.before
  let f := (List.range 16).foldl (fun f n =>
    if old.split n ≠ s.cfg.split n && s.cfg.portEn n then f.resetPort s.cfg n else f) s.fab
  let f := if s.stw.joint then f.reassignStby f.primary else f
  { s with fab := f, stw := { s.stw with sub := 5, rewrite := decide (old.retenanted s.cfg ≠ []) } }

/-- Rewrite TENANT in the sectors and Cober lines of the re-tenanted ranges (R182). -/
def State.rewriteTenants (s : State) : State :=
  let l := s.stw.before.retenanted s.cfg
  let tenantAt := fun (page : Nat) => (l.find? (fun p => decide (p.1.base ≤ page) && decide (page ≤ p.1.limit) &&
    (match s.cfg.regionOfPage page with | some r => r.tenant = p.2 | none => false))).map (·.2)
  let c := s.fab.cache
  let sectors := c.sectors.map (fun p =>
    match tenantAt (c.keyPage p.1) with
    | some t => (p.1, { p.2 with tenant := BitVec.ofNat 8 t })
    | none => p)
  let cober := c.cober.map (fun p =>
    match tenantAt ((c.coberLine s.cfg p.1).toNat / 64) with
    | some t => (p.1, { p.2 with tenant := BitVec.ofNat 8 t })
    | none => p)
  { s with fab := { s.fab with cache := { c with sectors := sectors, cober := cober } } }

/-- Sub-step 7f ends: the pair agrees, or a disagreement keeps the previous configuration; after one over
firmware the device without the primary role is isolated (Table 13.4). -/
def State.end7f (s : State) (dis : Nat) : State :=
  if dis = 0 || ¬ s.together then s
  else
    let s := { s with fab := s.fab.disagree dis, stw := { s.stw with disagree := dis } }
    let s := s.write7d s.stw.before
    if dis = 2 && ¬ s.fab.primary then { s with fab := s.fab.isolate s.cfg } else s

/-- Sub-step 7g: the applied record, the epoch number (R324, R331). -/
def State.commit7g (s : State) : State :=
  if s.stw.done7g then s
  else
    let n := s.stw.jrnl.committed + 1
    let w := (s.stw.logImage 1 s.cfg).log 0x10 1 (epochBody n s.cfg.digest s.stw.opts)
    { s with fab := { s.fab with epoch := n }, stw := { w with done7g := true } }

/-- Step 8 begins: admission resumes, held requests are delivered and held declarations answered, EvtIrq
226 leaves, ports whose rate changes retrain, the pair is up, and the command completes. -/
def State.step8 (s : State) : State :=
  let old := s.stw.before
  let f := s.fab
  let free := fun (l : Link) => match l.decl with
    | some d => ¬ f.mirrors || f.twin.agentMap.any (fun m => m.1.toNat = dclUid d)
    | none => true
  let held := f.portHeld
  let f := { f with draining := false, portHeld := [], gln := { f.gln with stopped := false },
                    hrw := { f.hrw with paused := false, cutting := false }, pfu := { f.pfu with stopped := false },
                    links := f.links.map (fun (l : Link) => { l with withhold := ¬ free l }) }
  let f := (f.raise 226).evtIrqAll 226 1
  let f := if s.stw.joint && s.stw.disagree = 0 && s.together then f.pairUp f.primary else f
  let f := (List.range 32).foldl (fun f a =>
    let l := f.link a
    if ¬ s.cfg.halfUsed a || ¬ s.on (a / 4) then f
    else if l.st = .disabled && ¬ l.stopSeq && ¬ old.halfUsed a then f.setLink a (Link.init .detect)
    else if l.st = .active && old.maxRate (a / 2) ≠ s.cfg.maxRate (a / 2) then
      f.retrain a (s.cfg.maxRate (a / 2))
    else f) f
  let f := if s.cfg.twinEn && ¬ old.twinEn && f.tlink.st = .disabled then f.setLink 32 (Link.init .detect) else f
  let f := held.foldl (fun (f : Fabric) p => f.deliverHeld s.cfg p) (f.answerHeld s.cfg)
  let f := (f.svcRun s.cfg).flow s.cfg
  let s := { s with fab := f, irq := s.irq.resume, stw := { s.stw with step := 8, sub := 0, staged := s.cfg, joint := false } }
  match s.stw.by_ with
  | .apply m =>
    if s.stw.disagree ≠ 0 then s.complete m 0x0203 []
    else s.complete m 0 (leBytes s.fab.epoch 4 ++ [0, 0, 0, 0] ++ leBytes s.cfg.digest.toNat 32)
  | _ => s

/-- The stopped state (R525): the port pairs, the twin link, the slices, the stacks and the Harrow go off;
what they held is lost, but for the patrol position and what lies in the always-on domain. -/
def State.stopState (s : State) : State :=
  let keep := (2 ^ 9 + 0x3F * 2 ^ 22 + 2 ^ 28 + 2 ^ 29 + 2 ^ 30)
  let f := s.fab
  let g := { Gln.init f.gln.fuses with repairs := f.gln.repairs, hbmPos := f.gln.hbmPos, ddrPos := f.gln.ddrPos }
  let cold := { Fabric.init f.gran.key f.gln.fuses with
    links := Vector.replicate 32 (Link.init .disabled), draining := true, epoch := f.epoch, uid := f.uid, time := f.time,
    raised := f.raised, agentDrops := f.agentDrops, jreq := f.jreq, gln := g,
    mem := { Mem.init with ddr := f.mem.ddr, unmarked := f.mem.unmarked, rbits := f.mem.rbits } }
  { s with fab := cold, pcr := { s.pcr with stopped := true, selfRef := true, pd := s.pcr.pd &&& BitVec.ofNat 32 keep } }

/-- DEVICE_STOP ends after 7b: self-refresh, the clean-stop record, the completion, the stopped state
(R341, R471). -/
def State.stopped (s : State) (m : Nat) : State :=
  let s := s.modStw (fun w => { w.log 0x12 0 [2] with step := 0, sub := 0, staged := s.cfg })
  let s := (s.complete m 0 []).stopState
  ({ s with pcr := { s.pcr with byStop := true } } : State).nextDrain

/-- A sub-step of step 7 ends where its condition holds.  `dis` is the disagreement found at 7f (0 none),
`outcomes` the repairs of 7c, `partner` whether the other device has committed 7g with the same number. -/
def State.nextSub (s : State) (dis : Nat) (outcomes : List Bool) (partner : Bool) : State :=
  if s.stw.step ≠ 7 then s
  else match s.stw.sub with
  | 1 => s.start7b
  | 2 =>
    let clean := ¬ s.disabling || s.dirtySum = 0
    match s.stw.by_ with
    | .stop m => if s.fab.queue1Empty && s.fab.mem.dq = [] then s.stopped m else s
    | _ => if s.fab.queue1Empty && clean then s.end7b.modStw (fun w => { w with sub := 3 }) else s
  | 3 => (s.repairs outcomes).modStw (fun w => { w with sub := 4 })
  | 4 => (s.write7d s.stw.staged).start7e
  | 5 =>
    if s.stw.rewrite || s.fab.gran.slots.toList.any (fun c => c.walk.isSome) then s
    else s.modStw (fun w => { w with sub := 6 })
  | 6 => (s.end7f dis).modStw (fun w => { w with sub := 7 })
  | 7 =>
    let s := s.commit7g
    if s.together && ¬ partner then s else s.step8
  | _ => s

/-- The drain is DEVICE_STOP's: its partner has had a goodbye and takes over (R471). -/
def Stw.stopping (w : Stw) : Bool := match w.by_ with | .stop _ => true | _ => false

/-- A step or sub-step of a drain ends by `g`; while the device mirrors, the step that `g` begins waits until the
partner has acknowledged its record (Table 13.5).
DESIGN CHOICE (log entry 105): step 1 begins with its record sent, and a stopping device waits for none. -/
def State.stepBy (s : State) (g : State → State) : State :=
  let t := g s
  if (t.stw.step = s.stw.step && t.stw.sub = s.stw.sub) || ¬ s.fab.mirrors || s.stw.stopping then t
  else match s.stw.stepGate with
  | some k => if s.fab.unacked k then s else t.modStw (fun w => { w with stepGate := none })
  | none =>
    if s.fab.logFull then s
    else
      let (f, k) := s.fab.logRec (stewRec (t.stw.step + 16 * t.stw.sub) 1)
      { s with fab := f, stw := { s.stw with stepGate := some k } }

/-! ## What follows a command of the fabric -/

/-- The ticket's descriptor has ended. -/
def Fabric.endedDesc (f : Fabric) (tk : Nat) : Option Desc := f.hrw.ended.find? (fun d => d.ticket = tk)

/-- A long command whose wait is over completes (R425, R448, R450, R452, R461, R473). -/
def State.longOne (s : State) (m : Nat) (l : Long) : State :=
  match l with
  | .lock tk unlock => match s.fab.endedDesc tk with
    | none => s
    | some d => s.complete m 0 (if unlock then leBytes d.lockedCnt 8 else leBytes d.lockedCnt 8 ++ leBytes d.notLocked 8)
  | .submit tk =>
    let wait := match s.fab.desc tk with
      | some d => (match d.gate with | some g => s.fab.mirrors && s.fab.unacked g | none => false)
      | none => false
    if wait then s else s.complete m 0 (leBytes (acceptWord 0 tk) 8)
  | .abort tk => if (s.fab.endedDesc tk).isSome then s.complete m 0 [] else s
  | .drain => s
  | .port links =>
    if links.all (fun a => ¬ (s.fab.link a).stopSeq) then s.complete m 0 [] else s
  | .takeover => if s.fab.twin.pair = .survivor then s.complete m 0 [] else s
  | .short ino =>
    if s.wgb.cur.ino ≠ ino then s.complete m 0 (leBytes ino 4 ++ leBytes s.wgb.cur.start 8) else s

/-- Every long command whose wait is over completes. -/
def State.longAll (s : State) : State := s.stw.longs.foldl (fun s p => s.longOne p.1 p.2) s

/-- The Steward journals what the fabric hands it: time steps, lost map words, tag losses and Granary
faults, and error-log copies (Table 15.12). -/
def State.journalFabric (s : State) : State :=
  let w := s.fab.jreq.foldl (fun (w : Stw) r =>
    if r.1 = 0x13 then w.log 0x50 0 (leBytes r.2.1 8 ++ leBytes r.2.2 8)
    else w.log 0x32 (r.2.1 % 65536) ([r.1] ++ leBytes r.2.1 4 ++ leBytes r.2.2 4)) s.stw
  let w := s.fab.gln.elogOut.foldl (fun (w : Stw) e =>
    w.log 0x33 0 ((List.range 4).flatMap (fun k => leBytes (e.word k) 4))) w
  { s with stw := w, fab := { s.fab with jreq := [], gln := { s.fab.gln with elogOut := [] } } }

/-- A drain of the Steward's own is asked for already. -/
def Stw.asked (w : Stw) (by_ : DrainBy) : Bool :=
  (w.busy && w.by_ = by_) || w.waiting.any (fun d => d.1 = by_)

/-- The Steward starts the drains that other parts call for: CACHE_EN 0 for an unusable store (R316), the
joint drain of a pair (R353, R372). -/
def State.ownDrains (s : State) : State :=
  if ¬ s.stw.up || s.stw.safe || s.pcr.stopped || s.fab.accepting = false then s
  else
    let s := if s.fab.gln.storeUnusable.any s.cfg.cacheEn && ¬ s.stw.asked .cacheOff then s.askDrain .cacheOff 0 else s
    if s.fab.twin.wantDrain && ¬ s.stw.asked .joint then
      ({ s with fab := { s.fab with twin := { s.fab.twin with wantDrain := false } } } : State).askDrain .joint 0
    else s

/-- What the control side does in the same step as a command of the fabric, which began with the twin link
in state `tl` and the pair in state `pr`: a twin link newly fenced is a partner lost, a pair newly in
FAILOVER marks the interval (R400), departed agents' counts are discarded (R488), Weighbridge events are
raised, the journal is written, long commands complete, and the Steward's own drains begin. -/
def State.finish (s : State) (tl : LinkState) (pr : PairState) : State :=
  let f := s.fab
  let f := if f.tlink.st = .fenced && tl ≠ .fenced then f.partnerLost s.cfg else f
  let wg := if f.twin.pair = .failover && pr ≠ .failover then s.wgb.markFailover else s.wgb
  let irq := f.agentDrops.foldl (fun q a => q.dropAgent a) s.irq
  let f := { f with raised := f.raised ++ wg.raised, agentDrops := [] }
  ({ s with fab := f, irq := irq, wgb := { wg with raised := [] } } : State).journalFabric.longAll.ownDrains

/-- A command acts on the fabric, with all that follows from it. -/
def State.onFab (s : State) (g : Fabric → Fabric) : State :=
  ({ s with fab := g s.fab } : State).finish s.fab.tlink.st s.fab.twin.pair

end Sys2Proof.Machine
end

