-- ==== Sys2Proof/Machine/Power.lean ====
section
/-! DEFINITION. Resets (R336 to R341), start-up (R529 to R532), memory bring-up (R286 to R290), the
Steward's boot and restarts (R408 to R413, R337), power and clock conditions (R515 to R528). -/
namespace Sys2Proof.Machine

/-! ## Power-on and device reset -/

/-- What the journal and the flash keep of the Steward through a reset. -/
def Stw.afterReset (w : Stw) : Stw :=
  { Stw.init with slots := w.slots, keyHash := w.keyHash, rollback := w.rollback,
                  jrnl := { w.jrnl with compacting := false }, trial := w.trial }

/-- The device after a reset: everything but the Weighbridge, the fuses, the journal, the flash, the
identity of the part, and the pins (Table 12.7).  The key of R136 is drawn anew. -/
def State.cold (s : State) : State :=
  let p := s.pcr
  let f := Fabric.cold (p.powerOns + 1) s.fab.gln.fuses
  let kept := s.fab.gln.repairs.filter (fun r => r.state ≠ 0)
  let f := { f with uid := s.fab.uid, gln := { f.gln with repairs := kept }, twin := { f.twin with strap := s.fab.twin.strap } }
  let p' := { Pcr.init with
    porst := p.porst, perst := p.perst, sysClk := p.sysClk, refClk := p.refClk, pairRole := p.pairRole,
    smbAddr := p.smbAddr, railNear := p.railNear, railFar := p.railFar, powerOns := p.powerOns + 1, aon := p.aon }
  { s with cfg := Cfg.reset, fab := f, stw := s.stw.afterReset, irq := Irq.init, pci := { Pci.init with out := s.pci.out },
           pcr := p' }

/-- PORST_N is asserted (R336): a power-on reset, which lasts until it is released. -/
def State.powerOn (s : State) : State :=
  let s := s.cold
  { s with pcr := { s.pcr with porst := true, aon := 0, pairRole := false, smbAddr := 0 },
           fab := { s.fab with twin := { s.fab.twin with strap := false } } }

/-- A supply holds the power-on reset until its rail is back (R518); the latched straps stay. -/
def State.supplyReset (s : State) : State :=
  let s := s.cold
  let held := s.pcr.railFar ≠ []
  { s with pcr := { s.pcr with supplyHold := held, startup := if held then 0 else 1 } }

/-- A device reset: as power-on, with rails, clocks and straps kept (Table 12.7).  Start-up runs from
step 2, since the straps are not sampled again (R529). -/
def State.deviceReset (s : State) : State :=
  if s.pcr.porst || s.pcr.supplyHold then s
  else
    let t := s.pcr.trimmed
    let th := s.pcr.thermtrip
    let s := s.cold
    { s with pcr := { s.pcr with powerOn := false, deviceRst := true, startup := 2, byDevice := true, trimmed := t,
                                 thermtrip := th } }

/-- PORST_N is released: the straps are sampled (R529). -/
def State.porstRelease (s : State) (role : Bool) (smb : BitVec 2) : State :=
  if ¬ s.pcr.porst then s
  else
    let p := { s.pcr with porst := false, pairRole := role, smbAddr := smb, supplyHold := decide (s.pcr.railFar ≠ []),
                          startup := if s.pcr.railFar = [] then 1 else 0 }
    { s with pcr := p, fab := { s.fab with twin := { s.fab.twin with strap := role } } }

/-! ## Images (R406 to R409) -/

/-- Bytes of a slot. -/
def FlashSlot.bytesAt (x : FlashSlot) (off n : Nat) : List Nat := (List.range n).map (fun i => Tab.get x.bytes 0xFF (off + i))

/-- A little-endian field of a slot. -/
def FlashSlot.field (x : FlashSlot) (off n : Nat) : Nat := leNat (x.bytesAt off n)

/-- VERSION and ROLLBACK of the image in a slot. -/
def FlashSlot.version (x : FlashSlot) : Nat := x.field 4 4
/-- ROLLBACK of the image in a slot. -/
def FlashSlot.imgRollback (x : FlashSlot) : Nat := x.field 12 4

/-- RESULT of the verification of an image (R408, FW_VERIFY): 0 where it is valid. -/
def Stw.verify (w : Stw) (slot : Nat) : Nat :=
  let x := vget w.slots FlashSlot.init slot
  let len := x.field 8 4
  if x.field 0 4 ≠ 0x53545731 || len < 1 || 8384512 < len then 1
  else if (Config.sha384 (x.bytesAt 72 96)).extractLsb' 0 256 ≠ w.keyHash then 2
  else if ¬ Config.ecdsaVerify (BitVec.ofNat 768 (x.field 72 96)) (Config.sha384 (x.bytesAt 0 168))
      (BitVec.ofNat 768 (x.field 168 96)) then 3
  else if Config.sha384 (x.bytesAt 4096 len) ≠ BitVec.ofNat 384 (x.field 24 48) then 4
  else if x.imgRollback < w.rollback then 5
  else if x.version / 2 ^ 24 ≠ 3 then 6
  else 0

/-- The image of a slot is the latest activated one, and accepted (R413). -/
def Journal.accepted (j : Journal) (slot : Nat) : Bool := j.last 0x60 2 = some [slot, 1]

/-- The image being loaded has been checked (R409): it runs, or the other one is loaded, or the Steward
enters safe mode.  At start-up it runs at once. -/
def State.bootCheck (s : State) (spiFail : Bool) : State :=
  match s.stw.loading with
  | none => s
  | some (slot, last) =>
    if ¬ s.on 28 then s
    else
      let first := decide (s.pcr.startup = 3)
      let s := if spiFail then s.raise 242 else s
      let x := vget s.stw.slots FlashSlot.init slot
      if ¬ spiFail && s.stw.verify slot = 0 then
        s.modStw (fun w => { w with up := first, running := slot, version := x.version, imgRollback := x.imgRollback,
                                    preferred := w.jrnl.preferred, accepted := w.jrnl.accepted slot, loading := none })
      else if ¬ last then s.modStw (fun w => { w with loading := some (1 - slot, true) })
      else (s.enterSafe).modStw (fun w => { w with up := first })

/-! ## Start-up (Table 19.7) -/

/-- How the last stop is reported (R341): UNCLEAN, NO_WARNING. -/
def Journal.uncleanStart (j : Journal) : Bool × Bool :=
  match j.entries.getLast? with
  | none => (false, false)
  | some e => if e.rtype = 0x12 then (e.body.headD 0 = 1, false) else (true, true)

/-- An intent record without an applied record is logged as abandoned (R338). -/
def Stw.abandon (w : Stw) : Stw :=
  match (w.jrnl.entries.filter (fun e => e.rtype = 0x10)).getLast? with
  | some e => if e.key = 0 then { w.log 0x10 2 e.body with abandoned := w.abandoned + 1 } else w
  | none => w

/-- End of step 4: the journal is read, the start is reported, the domains are on, bring-up begins. -/
def State.startup4 (s : State) : State :=
  let u := s.stw.jrnl.uncleanStart
  let c := s.stw.jrnl.appliedCfg
  let cfg := { Cfg.reset with wlp := c.wlp, twn := c.twn }
  let ports := (List.range 8).foldl (fun n j => if c.portEn (2 * j) || c.portEn (2 * j + 1) then n + 2 ^ j else n) 0
  let pd := s.pcr.pd ||| BitVec.ofNat 32 (ports + 2 ^ 8 * b2n c.twinEn + 0x3FFFF * 2 ^ 10 + 2 ^ 31)
  let b := s.pcr.bring
  let b := { b with hbmStep := 1, ddrStep := 4, hbc := b.hbc.map (fun (h : HbcStat) => { h with train := 1 }),
                    ddc := b.ddc.map (fun (d : DdcStat) => { d with train := 1 }) }
  let f := s.fab
  let f := { f with links := Vector.ofFn (fun (i : Fin 32) => Link.init (if c.halfUsed i.val then .detect else .disabled)),
                    tlink := Link.init (if c.twinEn then .detect else .disabled) }
  let s := { s with cfg := cfg, fab := f, stw := s.stw.abandon,
                    pcr := { s.pcr with pd := pd, startup := 5, unclean := u.1, noWarning := u.2, bring := b } }
  if u.1 then s.raise 228 else s

/-- A configuration in force where memory bring-up failed: every region is disabled (R287, R532). -/
def Cfg.disabled (c : Cfg) : Cfg :=
  { c with rgn := c.rgn.map (fun (w : RgnWords) => { w with attr := w.attr &&& ~~~(1#32) }) }

/-- End of step 7: every RWE field is written and the start epoch is committed (R338). -/
def State.startup7 (s : State) : State :=
  let b := s.pcr.bring
  let c := s.stw.jrnl.appliedCfg
  let c := if b.stackFailed || b.cap = 0 then c.disabled else c
  let n := min 0xFFFFFFFF (s.stw.jrnl.committed + 1)
  let w := (s.stw.logImage 1 c).log 0x10 1 (epochBody n c.digest 0)
  { s with cfg := c, fab := { s.fab with epoch := n }, stw := { w with staged := c, before := c },
           pcr := { s.pcr with startup := 8 } }

/-- End of step 8: held declarations are answered, requests are admitted (R67, R68). -/
def State.startup8 (s : State) : State :=
  let held := s.fab.portHeld
  let f := { s.fab with draining := false, accepting := true, portHeld := [] }
  let f := (f.answerHeld s.cfg)
  let f := (held.foldl (fun (f : Fabric) p => f.deliverHeld s.cfg p) f).flow s.cfg
  let s := { s with fab := f, pcr := { s.pcr with startup := 9, byDevice := false } }
  s

/-- The step of Table 19.7 in progress ends, where its condition holds. -/
def State.startupStep (s : State) : State :=
  if s.pcr.porst || s.pcr.supplyHold || s.pcr.pf ≠ 0 || s.pcr.quiescent then s
  else match s.pcr.startup with
  | 1 => { s with pcr := { s.pcr with startup := 2 } }
  | 2 =>
    let s := { s with pcr := { s.pcr with startup := 3, pd := s.pcr.pd ||| 0x10000200 } }
    s.load s.stw.jrnl.preferred false
  | 3 => if s.stw.up && ¬ s.stw.safe then { s with pcr := { s.pcr with startup := 4 } } else s
  | 4 => s.startup4
  | 5 =>
    if s.pcr.bring.hbmStep = 4 && s.pcr.bring.ddrStep = 8 then { s with pcr := { s.pcr with startup := 7 } } else s
  | 7 => s.startup7
  | 8 => let d := s.pcr.byDevice
         let s := s.startup8
         if d then s.raise 229 else s
  | _ => s

/-! ## Memory bring-up (Table 10.4) -/

/-- The common population of the channels (R270): the least DIMMs, ranks and density, at the lowest
speed. -/
def commonGeo (l : List Geo) : Geo :=
  match l with
  | [] => ⟨0, 0, 0, 0, 0⟩
  | g :: rest => rest.foldl (fun a b =>
      ⟨min a.dimms b.dimms, min a.ranks b.ranks, min a.logic b.logic, max a.speed b.speed, min a.dens b.dens⟩) g

/-- Ranks of a channel. -/
def Geo.rankCount (g : Geo) : Nat := g.dimms * g.ranks * g.logic

/-- Backing capacity in GiB of twelve channels of a population: 16 data DRAMs per rank. -/
def Geo.capacity (g : Geo) : Nat := 12 * g.rankCount * 2 * g.dens

/-- Steps 1 and 2 for the HBM stacks: those of `fails` fail, the others go on. -/
def State.hbmStep (s : State) (fails : BitVec 12) (lanes : List (BitVec 16)) : State :=
  let b := s.pcr.bring
  let step := b.hbmStep
  let hbc := Vector.ofFn (fun (i : Fin 4) =>
    let h := vget b.hbc ⟨0, 0, 0, 0, false⟩ i.val
    let h := if step = 1 then { h with laneRep := lanes.getD i.val 0 } else h
    if h.train = 3 then h
    else if (step = 1 || step = 2) && fails.toNat.testBit i.val then { h with train := 3 }
    else if step = 2 then { h with train := 2 } else h)
  let done := (List.range 4).filter (fun k =>
    (vget b.hbc ⟨0, 0, 0, 0, false⟩ k).train = 1 && (vget hbc ⟨0, 0, 0, 0, false⟩ k).train ≠ 1)
  let s := { s with pcr := { s.pcr with bring := { b with hbc := hbc, hbmStep := if step < 4 then step + 1 else 4 } } }
  done.foldl (fun s k => s.raise (96 + k)) s

/-- A DDC status of zeros. -/
def DdcStat.zero : DdcStat := ⟨0, 0, false, 0, 0, 0, 0, false, ⟨0, 0, 0, 0, 0⟩⟩

/-- The DIMM is one that R269 supports: ×4, 16, 24 or 32 Gb, one or two package ranks, planar or of 2 or 4 logical
ranks, at most 256 GiB, and of a speed of Table 10.2 (R291). -/
def Dimm.supported (d : Dimm) : Bool :=
  d.x4 && [16, 24, 32].contains d.dens && [1, 2].contains d.ranks && [1, 2, 4].contains d.logic &&
    d.ranks * d.logic * 2 * d.dens ≤ 256 && d.speed ≤ 2

/-- The DIMMs of a channel that are present. -/
def Bring.chanDimms (b : Bring) (c : Nat) : List Dimm :=
  [vget b.dimms none (2 * c), vget b.dimms none (2 * c + 1)].filterMap id

/-- Ranks installed in a channel. -/
def Bring.installed (b : Bring) (c : Nat) : Nat := (b.chanDimms c).foldl (fun n d => n + d.ranks * d.logic) 0

/-- The usable geometry of a channel: what trains of what R269 supports, at the speed that its DIMMs offer, and
at no more than 5600 with two DIMMs (Table 10.2, R270).
DESIGN CHOICE (log entry 78): a DIMM that R269 does not support stays idle. -/
def Bring.usable (b : Bring) (c : Nat) (trained : Geo) : Geo :=
  let ds := (b.chanDimms c).filter Dimm.supported
  let n := min trained.dimms ds.length
  { dimms := n
    ranks := ds.foldl (fun m d => min m d.ranks) trained.ranks
    logic := ds.foldl (fun m d => min m d.logic) trained.logic
    speed := ds.foldl (fun m d => max m d.speed) (max trained.speed (if n = 2 then 1 else 0))
    dens := ds.foldl (fun m d => min m d.dens) trained.dens }

/-- The serial numbers of a channel's DIMMs, 0 where there is none, and their temperatures: the key of its saved
training results (R288). -/
def Bring.trainKey (b : Bring) (c : Nat) : List Nat :=
  let serial := fun (k : Nat) => match vget b.dimms none k with | some d => d.serial.toNat | none => 0
  leBytes (serial (2 * c)) 4 ++ leBytes (serial (2 * c + 1)) 4 ++ [vget b.dimm 0xFF (2 * c), vget b.dimm 0xFF (2 * c + 1)]

/-- Saved results apply: every serial number matches, and the temperatures differ by less than 10 °C (R288). -/
def savedFits (key saved : List Nat) : Bool :=
  key.take 8 = saved.take 8 && (List.range 2).all (fun k =>
    let x := key.getD (8 + k) 0
    let y := saved.getD (8 + k) 0
    decide (x < y + 10) && decide (y < x + 10))

/-- The saved results of a channel that step 5 can load (R288). -/
def State.savedGeo (s : State) (c : Nat) : Option Geo :=
  match s.stw.jrnl.last 0x40 c with
  | some b =>
    if savedFits (s.pcr.bring.trainKey c) (b.drop 5) then
      some ⟨b.getD 0 0, b.getD 1 0, b.getD 2 0, b.getD 3 0, b.getD 4 0⟩
    else none
  | none => none

/-- Step 5: training of the DDR5 channels.  A channel whose saved results fit and verify takes them; the others
train in full, and their results are journalled with their key (R270, R288). -/
def State.ddrTrain (s : State) (r : BringIn) : State :=
  let b := s.pcr.bring
  let loaded := fun (c : Nat) => if r.outcomes.getD c false then s.savedGeo c else none
  let ddc := Vector.ofFn (fun (i : Fin 12) =>
    let d := vget b.ddc DdcStat.zero i.val
    match loaded i.val with
    | some g => { d with train := 2, geo := g }
    | none =>
      if r.fails.toNat.testBit i.val then { d with train := 3, geo := ⟨0, 0, 0, 0, 0⟩ }
      else { d with train := 2, geo := b.usable i.val (r.geo.getD i.val ⟨0, 0, 0, 0, 0⟩) })
  let t := { s with pcr := { s.pcr with bring := { b with ddc := ddc, ddrStep := 6 } } }
  (List.range 12).foldl (fun t c =>
    let d := vget ddc DdcStat.zero c
    let t := if d.train = 2 && (loaded c).isNone then
        t.modStw (fun w => w.log 0x40 c
          ([d.geo.dimms, d.geo.ranks, d.geo.logic, d.geo.speed, d.geo.dens] ++ b.trainKey c))
      else t
    t.raise (112 + c)) t

/-- One row recorded for an sPPR becomes an hPPR, or has no spare: then REPAIR_OUT is set, and the fault remains
under the integrity code (R290). -/
def State.hpprOne (s : State) (i : Nat) (ok : Bool) : State :=
  match s.fab.gln.repairs[i]? with
  | none => s
  | some r =>
    let b := s.pcr.bring
    let ddc := vmod b.ddc r.channel (fun (d : DdcStat) =>
      if ok then { d with hppr := min 15 (d.hppr + 1) } else { d with out := true })
    let g := { s.fab.gln with repairs := s.fab.gln.repairs.set i { r with state := if ok then 4 else 3 } }
    let s := { s with pcr := { s.pcr with bring := { b with ddc := ddc } }, fab := { s.fab with gln := g } }
    let mine := fun (body : List Nat) => decide (body.take 2 = leBytes i 2)
    (if ok then s.modStw (fun w => w.clearEntries 0x31 r.channel mine) else s).raise (112 + r.channel)

/-- Step 6: every row recorded for an sPPR, by the outcomes given in the order of the list; one without an outcome
is repaired (R290). -/
def State.ddrHppr (s : State) (outcomes : List Bool) : State :=
  let rows := (List.range s.fab.gln.repairs.length).filter (fun i =>
    match s.fab.gln.repairs[i]? with | some r => 4 ≤ r.block && r.block < 10 && r.state = 2 | none => false)
  let s := rows.zipIdx.foldl (fun s p => s.hpprOne p.1 (outcomes.getD p.2 true)) s
  { s with pcr := { s.pcr with bring := { s.pcr.bring with ddrStep := 7 } } }

/-- Step 7: the common population, DDC_CAP, and event 125 where a channel has more than it (R270). -/
def State.ddrFix (s : State) : State :=
  let b := s.pcr.bring
  let g := commonGeo (b.ddc.toList.map (·.geo))
  let r := log2 (max 1 g.rankCount)
  let ddc := Vector.ofFn (fun (i : Fin 12) =>
    { vget b.ddc DdcStat.zero i.val with
      speed := BitVec.ofNat 2 g.speed, dpc2 := decide (g.dimms = 2), rbits := BitVec.ofNat 3 r,
      idle := min 15 (b.installed i.val - g.rankCount) })
  let reduced := (List.range 12).any (fun c =>
    b.installed c ≠ g.rankCount || (b.chanDimms c).any (fun d => d.dens ≠ g.dens))
  let s := { s with pcr := { s.pcr with bring := { b with ddc := ddc, cap := min 6144 g.capacity, ddrStep := 8 } },
                    fab := { s.fab with mem := { s.fab.mem with rbits := r } } }
  if reduced then s.raise 125 else s

/-- A step of memory bring-up ends, or fails for the stacks or channels of `fails` (Table 10.4). -/
def State.bringup (s : State) (ddr : Bool) (r : BringIn) : State :=
  if s.pcr.startup ≠ 5 then s
  else if ¬ ddr then
    (if 0 < s.pcr.bring.hbmStep && s.pcr.bring.hbmStep < 4 then s.hbmStep r.fails r.lanes else s)
  else match s.pcr.bring.ddrStep with
  | 4 =>
    let b := { s.pcr.bring with
      spd := Vector.ofFn (fun (i : Fin 24) => r.spd.getD i.val none)
      dimms := Vector.ofFn (fun (i : Fin 24) => r.dimms.getD i.val none), ddrStep := 5 }
    { s with pcr := { s.pcr with bring := b } }
  | 5 => s.ddrTrain r
  | 6 => s.ddrHppr r.outcomes
  | 7 => s.ddrFix
  | _ => s

/-! ## Steward restarts (R337, R410 to R413) -/

/-- The watchdog expires: the Steward restarts from the same image; at a second expiry within 1 s from the
other one, which for a newly activated image is the one that ran before it; and then in safe mode. -/
def State.watchdog (s : State) : State :=
  if ¬ s.stw.up then s
  else
    let now := s.pcr.aon
    let again := match s.stw.lastExpiry with | some t => decide (now < t + 1000000) | none => false
    let s := { s with pcr := { s.pcr with restarts := satAdd 8 s.pcr.restarts 1 } }
    if again && ¬ s.stw.safe then s.lastingStw
    else
      let s := s.modStw (fun w => { w with lastExpiry := some now, otherTried := false, mbox := w.rerunAll })
      if s.stw.safe then (s.modStw (fun w => { w with up := false })).raise 227
      else (s.load s.stw.running false).raise 227

/-- The restart ends: the firmware takes up its journal state; commands that had not completed run again,
and a drain goes on from its step, 7b to 7g being repeated where no applied record is committed. -/
def State.restartEnd (s : State) : State :=
  if s.stw.up || s.stw.loading.isSome || ¬ s.on 28 || s.pcr.startup < 4 && ¬ s.stw.safe then s
  else
    let s := s.modStw (fun w => { w with up := true, resumed := if w.step = 0 then w.resumed else min 255 (w.resumed + 1) })
    if s.stw.step = 7 && 2 ≤ s.stw.sub && ¬ s.stw.done7g then s.start7b else s

/-- The restart that an activation asked for begins (R412, R468). -/
def State.activationRestart (s : State) : State :=
  if ¬ s.stw.activating then s
  else ((s.modStw (fun w => { w with activating := false })).load s.stw.jrnl.preferred false).raise 227

/-- The newly activated image has run for 60 s without a restart (R413). -/
def State.accept (s : State) : State :=
  if s.stw.up && s.stw.trial.isSome && s.stw.running = s.stw.jrnl.preferred then
    (s.modStw (fun w => { w.log 0x60 2 [w.running, 1] with trial := none, accepted := true })).raise 241
  else s

/-! ## PCI Express resets and domains (R429, R522 to R526) -/

/-- A PCI Express reset discards the completions of the host mailboxes (R429). -/
def Mbox.perst (b : Mbox) : Mbox :=
  match b.st with
  | .idle => b
  | .done => { b with st := .idle, lost := true }
  | .busy => { b with discard := true }

/-- PERST_N is asserted, or a hot reset arrives: a PCI Express reset (R336, R429, R491). -/
def State.perstAssert (s : State) : State :=
  let done := (List.range 16).filter (fun m => (s.stw.mb m).st = .done)
  let mb := (List.range 16).foldl (fun v m => vmod v m Mbox.perst) s.stw.mbox
  let s := { s with stw := { s.stw with mbox := mb }, irq := s.irq.discardClaims,
                    pcr := { s.pcr with perst := true, perstSeen := true },
                    pci := { Pci.init with out := s.pci.out, shadow := s.pci.shadow, timeHi := s.pci.timeHi } }
  done.foldl (fun s m => s.level (200 + m) false) s

/-- The Steward domain is switched on, and the Steward loads its image (R524). -/
def State.wakeSteward (s : State) : State :=
  if s.on 28 then s
  else
    let s := { s with pcr := { s.pcr with pd := s.pcr.pd ||| 0x10000000 } }
    s.load s.stw.jrnl.preferred false

/-- Step 2 of Table 19.7 has ended: PCR may switch the PCIe and Steward domains. -/
def State.started (s : State) : Bool := ¬ s.pcr.porst && ¬ s.pcr.supplyHold && decide (3 ≤ s.pcr.startup)

/-- PERST_N is deasserted: the PCIe domain comes on where it was off, with Oasis's latches (R522, R526). -/
def State.perstDeassert (s : State) : State :=
  let s := { s with pcr := { s.pcr with perst := false } }
  if s.on 9 || ¬ s.started then s
  else
    let low := decide (0 < s.irq.waking)
    let s := { s with pcr := { s.pcr with pd := s.pcr.pd ||| 0x200 }, irq := s.irq.handOver }
    let s := if low then { s with pci := { s.pci with out := s.pci.out ++ [Out.oasisWake false] } } else s
    s.wakeSteward

/-- The PCIe domain may switch off (R523). -/
def State.pcieMayStop (s : State) : Bool :=
  s.on 9 && s.started && s.pcr.perst && s.fab.activeAgents = [] && s.irq.list.all (fun n => s.irq.countOf n = 0)

/-- The PCIe domain switches off, and in the stopped state the Steward domain with it (R522, R523, R526). -/
def State.pcieOff (s : State) : State :=
  if ¬ s.pcieMayStop then s
  else
    let q := s.irq.powerOff
    let stwOff := s.pcr.stopped && (s.stw.mb 16).st ≠ .busy
    let pd := s.pcr.pd &&& (if stwOff then ~~~(0x10000200#32) else ~~~(0x200#32))
    let mb := (List.range 16).foldl (fun v m => vmod v m (fun b => if b.st = .busy then b else Mbox.init)) s.stw.mbox
    let out := if 0 < q.waking && s.irq.waking = 0 then s.pci.out ++ [Out.oasisWake true] else s.pci.out
    let s := { s with irq := q, pcr := { s.pcr with pd := pd }, pci := { Pci.init with out := out },
                      stw := { s.stw with mbox := mb } }
    if stwOff then s.modStw (fun w => { w with up := false, running := 0, version := 0, imgRollback := 0, accepted := false,
                                               preferred := 0, loading := none }) else s

/-! ## Power failure (Table 12.8) -/

/-- The power-fail sequence starts at a step, for a cause. -/
def State.powerFail (s : State) (step cause : Nat) : State :=
  let c := putBit s.pcr.pfCause cause true
  if s.pcr.porst || s.pcr.supplyHold then s
  else if s.pcr.pf ≠ 0 then { s with pcr := { s.pcr with pfCause := c } }
  else if s.pcr.quiescent then
    { s with pcr := { s.pcr with pfCause := c } }
  else { s with pcr := { s.pcr with pf := step, pfCause := c } }

/-- Step 2: the ports stop, what is buffered is discarded, and so is every Harrow descriptor (Table 8.7,
R261); the writes that DDR5 has accepted stay. -/
def Fabric.cutTraffic (f : Fabric) : Fabric :=
  let keep := fun (o : Ord) => { Ord.init with stcFail := o.stcFail, orphan := o.orphan, merged := o.merged, forwarded := o.forwarded }
  { f with txns := [], arr := [], portHeld := [], accepting := false, draining := true, resv := Vector.replicate 256 none,
           ord := f.ord.map keep, hrw := { f.hrw with descs := [], waiting := [], answers := [], paused := true },
           pfu := { f.pfu with queue := [], stopped := true }, gln := { f.gln with stopped := true },
           links := f.links.map (fun (l : Link) => { l with rxq := [], txq := [], part := none, withhold := true }),
           mem := { f.mem with hq := [], dq := f.mem.dq.filter (fun r => r.write && r.acc) } }

/-- Step 3: every write that DDR5 has accepted is performed. -/
def Fabric.performDdr (f : Fabric) : Fabric :=
  { f with mem := { f.mem with ddr := f.mem.dq.foldl putWord f.mem.ddr, dq := [] } }

/-- The unclean record: epoch number, device time, steps completed, writes performed (Table 12.8), and the causes
that met (R542): bit 0 PWR_FAIL_N, bit 1 a rail, bit 2 a thermal trip. -/
def State.uncleanBody (s : State) : List Nat :=
  [1] ++ leBytes s.fab.epoch 4 ++ leBytes s.fab.time.toNat 8 ++ [5] ++ leBytes s.pcr.pfWrites 4 ++ [s.pcr.pfCause % 8]

/-- A step of the power-fail sequence ends. -/
def State.powerFailStep (s : State) : State :=
  match s.pcr.pf with
  | 1 => { s with pcr := { s.pcr with pf := 2 } }
  | 2 => { s with fab := s.fab.cutTraffic, pcr := { s.pcr with pf := 3 } }
  | 3 => { s with fab := s.fab.performDdr, pcr := { s.pcr with pf := 4, pfWrites := s.fab.mem.dq.length } }
  | 4 => { s with pcr := { s.pcr with pf := 5, selfRef := true } }.stopState
  | 5 =>
    let s := s.modStw (fun w => { w.log 0x12 0 s.uncleanBody with step := 0, sub := 0, preclean := false, waiting := [] })
    let s := { s with pcr := { s.pcr with pf := 0, quiescent := true } }
    if s.pcr.pfCause.testBit 1 then s.supplyReset else s
  | _ => s

/-! ## Conditions (R518, R521, R527, R528) -/

/-- A bit of PCR_COND follows its condition, and its level source with it. -/
def State.setCond (s : State) (i : Nat) (b : Bool) : State :=
  if s.pcr.cond.toNat.testBit i == b then s
  else { s with pcr := { s.pcr with cond := BitVec.ofNat 8 (putBit s.pcr.cond.toNat i b) } }.level (216 + i) b

/-- A rail lies 3 % to 5 % from nominal, or beyond for 2 always-on cycles (R518): rails 0 to 7 of groups
1 to 3. -/
def State.rail (s : State) (rail : Nat) (far : Bool) : State :=
  if 8 ≤ rail then s
  else if far then
    let s := { s with pcr := { s.pcr with railFar := addOnce rail s.pcr.railFar,
                                          railNear := s.pcr.railNear.filter (fun r => r ≠ rail) } }
    let s := s.setCond 4 (s.pcr.railNear ≠ [])
    let idle := s.pcr.pf = 0 && s.pcr.quiescent
    let s := s.powerFail 2 1
    if idle && ¬ s.pcr.porst && ¬ s.pcr.supplyHold then s.supplyReset else s
  else
    let s := { s with pcr := { s.pcr with railNear := addOnce rail s.pcr.railNear } }
    s.setCond 4 true

/-- A rail has been back within its operating range for 1 ms. -/
def State.railBack (s : State) (rail : Nat) : State :=
  let far := s.pcr.railFar.filter (fun r => r ≠ rail)
  let s := { s with pcr := { s.pcr with railFar := far, railNear := s.pcr.railNear.filter (fun r => r ≠ rail) } }
  let s := s.setCond 4 (s.pcr.railNear ≠ [])
  if s.pcr.supplyHold && far = [] then
    { s with pcr := { s.pcr with supplyHold := false, startup := if s.pcr.porst then 0 else 1 } }
  else s

/-- A reading arrives: sensor 0 an HBM stack, 1 a DIMM, 2 a slice die in °C, 3 the VDD_CORE current averaged
over 100 µs in 0.1 A, 4 the device power in 0.1 W. -/
def State.store (s : State) (sensor idx value : Nat) : State :=
  let b := s.pcr.bring
  let b := match sensor with
    | 0 => { b with hbc := vmod b.hbc idx (fun h => { h with temp := min 255 value, hot := h.hot || decide (95 < value) }) }
    | 1 => { b with dimm := vset b.dimm idx (min 255 value) }
    | 2 => { b with die := vset b.die idx (min 255 value) }
    | 3 => { b with current := min 65535 value }
    | _ => { b with power := min 65535 value }
  let was := (vget s.pcr.bring.hbc ⟨0, 0, 0, 0, false⟩ idx).hot
  let s := { s with pcr := { s.pcr with bring := b } }
  if sensor = 0 && idx < 4 && 95 < value && ¬ was then s.raise (96 + idx) else s

/-- The throttles follow the sensors; one whose condition is gone ends when it has been clear for 1 ms,
which `cleared` tells (R528). -/
def State.throttles (s : State) (sensor idx : Nat) (cleared : Bool) : State :=
  let b := s.pcr.bring
  let hot := fun (k : Nat) => decide (95 < (vget b.hbc ⟨0, 0, 0, 0, false⟩ k).temp)
  let bit := fun (k : Nat) => if hot k then true
    else s.pcr.thrHbm.toNat.testBit k && ¬ (cleared && sensor = 0 && idx = k)
  let hbm := (List.range 4).foldl (fun n k => n + 2 ^ k * b2n (bit k)) 0
  let die := b.die.toList.any (fun t => decide (105 < t)) || (s.pcr.thrDie && ¬ (cleared && sensor = 2))
  let cur := decide (2100 < b.current) || (s.pcr.thrCur && ¬ (cleared && sensor = 3))
  { s with pcr := { s.pcr with thrHbm := BitVec.ofNat 4 hbm, thrDie := die, thrCur := cur },
           fab := { s.fab with slow := die || cur, pfu := { s.fab.pfu with throttled := die } } }

/-- Any slice die or stack above 115 °C. -/
def Bring.trips (b : Bring) : Bool := b.die.toList.any (fun t => decide (115 < t)) || b.hbc.toList.any (fun h => decide (115 < h.temp))

/-- The conditions of Table 19.5 as the device stands, by bit. -/
def State.condition (s : State) (i : Nat) : Bool :=
  let b := s.pcr.bring
  match i with
  | 0 => b.die.toList.any (fun t => decide (100 < t))
  | 1 => b.hbc.toList.any (fun h => decide (95 < h.temp))
  | 2 => b.dimm.toList.any (fun t => t ≠ 0xFF && decide (85 < t))
  | 3 => decide (2100 < b.current)
  | 4 => s.pcr.railNear ≠ []
  | 5 => ¬ s.pcr.sysClk
  | 6 => ¬ s.pcr.refClk
  | _ => s.pcr.thrHbm ≠ 0 || s.pcr.thrDie || s.pcr.thrCur

/-- PCR_COND is evaluated (R527). -/
def State.evalCond (s : State) : State := (List.range 8).foldl (fun s i => s.setCond i (s.condition i)) s

/-- A temperature or current reading acts: conditions, throttles, thermal trip. -/
def State.reading (s : State) (sensor idx value : Nat) (cleared : Bool) : State :=
  let s := ((s.store sensor idx value).throttles sensor idx cleared).evalCond
  let b := s.pcr.bring
  if b.trips && ¬ s.pcr.thermtrip then
    let s := { s with pcr := { s.pcr with thermtrip := true }, pci := { s.pci with out := s.pci.out ++ [Out.thermtrip] } }
    s.powerFail 2 2
  else s

/-- REFCLK is missing: every Active port and the twin link enter Recovery (R521). -/
def State.refclkGone (s : State) : State :=
  let s := { s with pcr := { s.pcr with refClk := false } }
  let s := s.setCond 6 true
  let f := (List.range 33).foldl (fun f a =>
    if (f.link a).st = .active then f.linkStep s.cfg a (f.link a).recover else f) s.fab
  { s with fab := f }

end Sys2Proof.Machine
end

