-- ==== Sys2Proof/Machine/CmdConfig.lean ====
section
/-! DEFINITION. The firmware commands of classes 0x01 to 0x04: identity, epoch and configuration,
regions and tenants, cache (Tables 16.1 to 16.7). -/
namespace Sys2Proof.Machine

/-! ## Shared forms -/

/-- A command whose reserved bytes must be zero (0x01F2), and which answers in the same step. -/
def State.run (s : State) (m op : Nat) (reserved : List (Nat × Nat)) (body : State → Mbox → State × Nat × List Nat) : State :=
  s.command m op (fun s b => if b.clean reserved then body s b else (s, 0x01F2, []))

/-- A query: it changes nothing but its mailbox. -/
def State.query (s : State) (m op : Nat) (reserved : List (Nat × Nat)) (body : State → Mbox → Nat × List Nat) : State :=
  s.run m op reserved (fun s b => (s, body s b))

/-- A command that may go on running, or wait where it is: the body answers no status then. -/
def State.runLong (s : State) (m op : Nat) (reserved : List (Nat × Nat)) (body : State → Mbox → State × Option (Nat × List Nat)) :
    State :=
  if ¬ s.ready m op then s
  else if s.notServed op ≠ 0 then s.answer m (s.notServed op) []
  else
    let b := s.stw.mb m
    if s.stw.jrnl.full && op / 256 ≠ 0x0A then s.complete m 0x03F0 []
    else if 2 ≤ b.faults then s.failed m
    else if ¬ b.clean reserved then s.complete m 0x01F2 []
    else
      let r := body s b
      match r.2 with
      | none => r.1
      | some x => r.1.complete m x.1 x.2

/-- Zero bytes. -/
def zeros (n : Nat) : List Nat := List.replicate n 0

/-- The set bits of a list of truth values. -/
def maskOf (l : List Bool) : Nat := l.zipIdx.foldl (fun n p => n + 2 ^ p.2 * b2n p.1) 0

/-! ## Identity (Table 16.1) -/

/-- The response of ID_GET. -/
def State.idBytes (s : State) : List Nat :=
  [0x41, 0x32, 0, 0] ++ leBytes s.stw.version 4 ++ leBytes s.fab.uid.toNat 8 ++ leBytes s.fab.epoch 4
    ++ [s.fab.roleOut, b2n s.stw.safe, s.stw.bootWord % 256, 0] ++ leBytes s.pcr.bring.cap 4
    ++ [s.cfg.coberGib, b2n (s.cfg.cacheEn 0), 0, 0]
    ++ leBytes (maskOf ((List.range 32).map (fun a => decide ((s.fab.link a).st = .active)))) 4
    ++ leBytes (maskOf (s.fab.gran.slots.toList.map (fun c => c.agent.isSome))) 2 ++ zeros 26

/-- ID_GET (R443). -/
def execIdGet (m : Nat) (s : State) : Host.Outcome State Fault Refusal :=
  .next (s.query m 0x0101 [] (fun s _ => (0, s.idBytes)))

/-- One agent entry of ID_AGENTS (R64). -/
def Fabric.agentEntry (f : Fabric) (a : Nat) : List Nat :=
  let l := f.link a
  match l.decl with
  | none => [l.st.code] ++ zeros 31
  | some d => [l.st.code, dclKind d, dclSets d, dclWays d, l.slot.getD 0xFF, l.rate.toNat + 4 * l.width.toNat]
      ++ leBytes (dclField d 32 2) 2 ++ leBytes (dclUid d) 8 ++ leBytes (dclField d 34 2) 2 ++ [dclField d 36 1 % 2, 0]
      ++ leBytes (dclMaxOut d) 2 ++ zeros 10

/-- ID_AGENTS (R64). -/
def execIdAgents (m : Nat) (s : State) : Host.Outcome State Fault Refusal :=
  .next (s.query m 0x0102 [] (fun s _ => (0, (List.range 32).flatMap s.fab.agentEntry)))

/-! ## Epoch and configuration (Table 16.2) -/

/-- EPOCH_APPLY (R325, R446): its drain begins, or waits for the one that runs. -/
def execEpochApply (m : Nat) (s : State) : Host.Outcome State Fault Refusal :=
  .next (s.runLong m 0x0201 [(1, 3)] (fun s b =>
    let opts := b.pay 0 1
    if 8 ≤ opts then (s, some (0x01F2, []))
    else ((s.runs m .drain).askDrain (.apply m) opts, none)))

/-- The registers that a CFG_STAGE entry at a register stages: HOM_s_COH and TAG_s_CFG in all eight slices. -/
def CfgReg.staged (r : CfgReg) : List CfgReg :=
  match r with
  | .hom _ => (List.range 8).map CfgReg.hom
  | .tag _ => (List.range 8).map CfgReg.tag
  | r => [r]

/-- Stage one value under a mask in a register: the new image, or the status of a refusal (R444). -/
def Cfg.stage (c : Cfg) (r : CfgReg) (val mask : Nat) : Cfg × Nat :=
  let old := (r.get c).toNat
  let new := (old &&& (0xFFFFFFFF ^^^ mask)) ||| (val &&& mask)
  if mask &&& r.mask ≠ mask then (c, 0x0102)
  else if ¬ r.legal new then (c, 0x0103)
  else (r.staged.foldl (fun c r => r.set c (BitVec.ofNat 32 new)) c, 0)

/-- Stage entries in order; the first refusal ends with its index and status. -/
def Cfg.stageAll (c : Cfg) : Nat → List (Nat × Nat × Nat) → Cfg × Nat × Nat
  | _, [] => (c, 0xFFFFFFFF, 0)
  | i, (off, val, mask) :: rest =>
    match cfgReg off with
    | none => (c, i, 0x0101)
    | some r =>
      if 0x2000 ≤ off && off < 0x3000 then (c, i, 0x0101)
      else
        let (c', st) := c.stage r val mask
        if st ≠ 0 then (c, i, st) else Cfg.stageAll c' (i + 1) rest

/-- CFG_STAGE (R444): all or nothing; the response names the refused entry. -/
def execCfgStage (m : Nat) (s : State) : Host.Outcome State Fault Refusal :=
  .next (s.run m 0x0202 [(4, 4)] (fun s b =>
    let es := (List.range (b.pay 0 4)).map (fun i => (b.pay (8 + 12 * i) 4, b.pay (12 + 12 * i) 4, b.pay (16 + 12 * i) 4))
    let (c, i, st) := s.stw.staged.stageAll 0 es
    let s := if st = 0 then s.modStw (fun w => { w with staged := c }) else s
    (s, st, leBytes i 4 ++ zeros 4)))

/-- CFG_READ (R444). -/
def execCfgRead (m : Nat) (s : State) : Host.Outcome State Fault Refusal :=
  .next (s.query m 0x0203 [(1, 3)] (fun s b =>
    let which := b.pay 0 1
    let offs := (List.range (b.pay 4 4)).map (fun i => b.pay (8 + 4 * i) 4)
    if 1 < which || offs.any (fun o => (cfgReg o).isNone) then (0x0101, [])
    else
      let c := if which = 0 then s.stw.staged else s.cfg
      (0, offs.flatMap (fun o => match cfgReg o with
        | some r => leBytes ((r.get c).toNat &&& r.mask) 4
        | none => []))))

/-- CFG_DISCARD: the staged configuration is again the applied one (R439). -/
def execCfgDiscard (m : Nat) (s : State) : Host.Outcome State Fault Refusal :=
  .next (s.run m 0x0204 [] (fun s _ => (s.modStw (fun w => { w with staged := s.cfg }), 0, [])))

/-- CFG_CHECK (R445). -/
def execCfgCheck (m : Nat) (s : State) : Host.Outcome State Fault Refusal :=
  .next (s.query m 0x0205 [] (fun s _ => (0, leBytes s.checks.1 2 ++ [s.checks.2] ++ zeros 5)))

/-- The digest of the latest applied record; zeros where there is none. -/
def Journal.appliedDigest (j : Journal) : List Nat :=
  match j.last 0x10 1 with
  | some b => (b.drop 4).take 48
  | none => zeros 48

/-- CFG_DIGEST (R331). -/
def execCfgDigest (m : Nat) (s : State) : Host.Outcome State Fault Refusal :=
  .next (s.query m 0x0206 [] (fun s _ => (0, leBytes s.stw.staged.digest.toNat 48 ++ s.stw.jrnl.appliedDigest)))

/-- EPOCH_STATUS (R446). -/
def execEpochStatus (m : Nat) (s : State) : Host.Outcome State Fault Refusal :=
  .next (s.query m 0x0207 [] (fun s _ =>
    (0, leBytes s.fab.epoch 4 ++ leBytes s.stw.drainWord 4 ++ leBytes s.stw.lastTag 2 ++ [s.stw.lastMb, 0]
      ++ leBytes s.stw.lastStatus 2 ++ zeros 2 ++ leBytes s.stw.lastEpoch 4 ++ leBytes s.stw.abandoned 4)))

/-! ## Regions and tenants (Table 16.6) -/

/-- The response of REGION_LOOKUP for an address. -/
def State.lookup (s : State) (addr : Nat) : List Nat :=
  let la : LAddr := BitVec.ofNat 46 (addr / 64)
  let r := s.cfg.regionOf la
  let line := match r with | some r => r.backLine la | none => 0
  let head := match r with
    | some r => [r.idx, r.typ.code, r.tenant, r.part, sliceOf la, b2n r.line + 2 * b2n r.meter]
    | none => [0xFF, 0, 0, 0, sliceOf la, 0]
  let mapped := fun (n : Nat) => if r.isSome then n else 0
  head ++ [b2n (¬ s.fab.activeHome la), 0] ++ leBytes (mapped (line * 64 + addr % 64)) 8 ++ leBytes (setOf la) 4
    ++ [mapped (ddrChan line), mapped (b2n (s.fab.mem.marked (backPage line))), 0, 0] ++ leBytes (mapped (localPage line)) 8
    ++ zeros 8

/-- REGION_LOOKUP (R447). -/
def execRegionLookup (m : Nat) (s : State) : Host.Outcome State Fault Refusal :=
  .next (s.query m 0x0301 [] (fun s b =>
    let a := b.pay 0 8
    if 2 ^ 52 ≤ a then (0x0101, []) else (0, s.lookup a)))

/-- REGION_READ (R447). -/
def execRegionRead (m : Nat) (s : State) : Host.Outcome State Fault Refusal :=
  .next (s.query m 0x0302 [(3, 5)] (fun s b =>
    let which := b.pay 0 1
    let first := b.pay 1 1
    let n := b.pay 2 1
    if 1 < which || 63 < first || n = 0 || 64 < first + n then (0x0101, [])
    else
      let c := if which = 0 then s.stw.staged else s.cfg
      (0, (List.range n).flatMap (fun i =>
        let w := vget c.rgn RgnWords.zero (first + i)
        (List.range 6).flatMap (fun k => leBytes (w.word k).toNat 4)))))

/-- One entry of TENANT_READ (R447). -/
def State.tenantEntry (s : State) (t : Nat) : List Nat :=
  let rs := (List.range 64).map (fun n =>
    let w := vget s.cfg.rgn RgnWords.zero n
    w.en && decide ((w.region n).tenant = t))
  let sectors := (s.fab.cache.sectors.filter (fun p => ¬ p.2.stby && p.2.tenant.toNat = t)).length
  let lines := (s.fab.cache.cober.filter (fun p => p.2.v && p.2.tenant.toNat = t)).length
  leBytes (maskOf rs) 8 ++ leBytes sectors 4 ++ leBytes lines 4

/-- TENANT_READ (R447). -/
def execTenantRead (m : Nat) (s : State) : Host.Outcome State Fault Refusal :=
  .next (s.query m 0x0303 [(1, 3), (6, 2)] (fun s b =>
    let first := b.pay 0 1
    let n := b.pay 4 2
    if n = 0 || 256 < first + n then (0x0101, [])
    else (0, (List.range n).flatMap (fun i => s.tenantEntry (first + i)))))

/-! ## Cache (Table 16.7) -/

/-- CACHE_LOCK and CACHE_UNLOCK: the checks of R448, then a descriptor in internal queue 0. -/
def State.lockCmd (s : State) (m op hop : Nat) (flags : Nat) : State :=
  s.runLong m op [(17, 7)] (fun s b =>
    let a := b.pay 0 8
    let len := b.pay 8 8
    let fl := b.pay 16 1
    if fl &&& flags ≠ fl then (s, some (0x01F2, []))
    else if a % 4096 ≠ 0 || len % 4096 ≠ 0 || len = 0 then (s, some (0x0101, []))
    else if 2 ^ 52 < a + len || ¬ s.cfg.rangeIn (fun r => r.typ.cacheable) a len then (s, some (0x0102, []))
    else if ¬ s.cfg.cacheEn 0 then (s, some (0x0201, []))
    else
      let r := s.internal 49 (mkDesc hop 0 a len (fl = 1))
      (r.1.runs m (.lock r.2 (hop = 0x11)), none))

/-- CACHE_LOCK (R448). -/
def execCacheLock (m : Nat) (s : State) : Host.Outcome State Fault Refusal := .next (s.lockCmd m 0x0401 0x10 1)

/-- CACHE_UNLOCK (R448). -/
def execCacheUnlock (m : Nat) (s : State) : Host.Outcome State Fault Refusal := .next (s.lockCmd m 0x0402 0x11 0)

/-- CACHE_STATUS (R447). -/
def execCacheStatus (m : Nat) (s : State) : Host.Outcome State Fault Refusal :=
  .next (s.query m 0x0403 [] (fun s _ =>
    (0, (List.range 8).flatMap (fun i =>
      let x := vget s.fab.sstat SliceStat.zero i
      let cl := (s.fab.cache.cober.filter (fun p => p.2.lock && p.1 / 16 / 2 ^ s.cfg.coberM = i)).length
      [s.tagReg i 8, s.tagReg i 0xC, s.tagReg i 0x10, cl, x.noalloc.toNat, x.pinWait.toNat].flatMap (fun w => leBytes w 4)))))

/-- The entry of a sector way as Table 6.2 lays it out: the tag-cache copy where one is held (R449). -/
def Cache.sectorEntry (c : Cache) (set way : Nat) : Nat :=
  let tc := match c.tcKey set way with
    | some k => match Tab.find c.tc k with
      | some e => [(232, 5, set / 2 ^ 13), (237, 4, way), (241, 1, b2n e.tcd), (242, 1, b2n e.tcr)]
      | none => []
    | none => []
  let e := match c.sector (10 * set + way) with
    | some x => [(0, 64, x.valid.toNat), (64, 64, x.dirty.toNat), (128, 64, x.poison.toNat), (192, 22, x.tag.toNat),
        (214, 1, 1), (215, 2, x.rrpv.toNat), (217, 1, b2n x.lock), (218, 1, b2n x.stby), (219, 8, x.tenant.toNat)]
    | none => []
  packNat (e ++ tc)

/-- The line tag of a Cober way as Table 6.7 lays it out. -/
def Cache.lineTag (c : Cache) (set way : Nat) : Nat :=
  let e := match c.cline (16 * set + way) with
    | some x => [(0, 32, x.ctag.toNat), (32, 1, b2n x.v), (33, 1, b2n x.d), (34, 1, b2n x.p), (35, 1, b2n x.lock),
        (36, 8, x.tenant.toNat)]
    | none => []
  let plru := if way = 0 then [(48, 15, (Tab.get c.plru 0 set).toNat / 2)] else []
  packNat (e ++ plru)

/-- CACHE_TAG_READ (R449). -/
def execCacheTagRead (m : Nat) (s : State) : Host.Outcome State Fault Refusal :=
  .next (s.query m 0x0404 [(6, 2)] (fun s b =>
    let set := b.pay 0 4
    let way := b.pay 4 1
    let mode := b.pay 5 1
    if mode = 0 && set < 2 ^ 21 && way < 10 then (0, leBytes (s.fab.cache.sectorEntry set way) 32)
    else if mode = 1 && s.cfg.coberGib ≠ 0 && set < 8 * 2 ^ s.cfg.coberM && way < s.cfg.coberWays then
      (0, leBytes (s.fab.cache.lineTag set way) 8)
    else (0x0101, [])))

end Sys2Proof.Machine
end

