-- ==== Sys2Proof/Machine/CmdServices.lean ====
section
/-! DEFINITION. The firmware commands of classes 0x05 to 0x08: Harrow, integrity, twin, interrupts
(Tables 16.8 to 16.12). -/
namespace Sys2Proof.Machine

/-! ## Harrow and services (Table 16.8) -/

/-- HARROW_SUBMIT (R243, R450): the descriptor goes to the mailbox's own queue; while that has no slot, or the
twin log no record for it (R357), the command waits. -/
def execHarrowSubmit (m : Nat) (s : State) : Host.Outcome State Fault Refusal :=
  .next (s.runLong m 0x0501 [] (fun s b =>
    if ¬ s.fab.roomFor m then (s, none)
    else
      let raw : Line := BitVec.ofNat 512 (leNat (b.payBytes 0 64))
      let r := s.fab.submit s.cfg m raw none
      let s := { s with fab := r.1 }
      if r.2.1 ≠ 0 then (s, some (r.2.1, leBytes (acceptWord r.2.1 0) 8))
      else ((s.runs m (.submit r.2.2)).longAll, none)))

/-- QUEUE as HARROW_QUERY gives it. -/
def queueCode (q : Nat) : Nat := if q < 17 then q else if q < 49 then 32 + (q - 17) else 64 + (q - 49)

/-- The response of HARROW_QUERY for a ticket (R452). -/
def Fabric.ticketBytes (f : Fabric) (tk : Nat) : List Nat :=
  let age := (f.hrw.nextTicket + 2 ^ 32 - tk - 1) % 2 ^ 32
  let row := fun (st : Nat) (d : Desc) (progress status : Nat) =>
    [st, queueCode d.queue, 0, 0] ++ leBytes tk 4 ++ leBytes progress 8 ++ leBytes status 2 ++ zeros 6
  let none_ := [0, 0, 0, 0] ++ leBytes tk 4 ++ zeros 16
  if 8192 ≤ age then none_
  else match f.hrw.descs.find? (fun d => d.ticket = tk && ¬ d.mirror) with
  | some d =>
    if d.recording || d.ending then row 2 d d.progress 0
    else row (if d.running then 2 else 1) d d.progressRun 0
  | none => match f.hrw.ended.find? (fun d => d.ticket = tk && ¬ d.mirror) with
    | some d =>
      let kept := f.hrw.ring.map (·.2) ++ f.hrw.ringLate
      let inRing := d.queue < 17 && kept.any (fun r => bitsOf r.toNat 32 32 = tk)
      row (if inRing then 3 else 4) d d.progress d.status
    | none => none_

/-- HARROW_QUERY (R452). -/
def execHarrowQuery (m : Nat) (s : State) : Host.Outcome State Fault Refusal :=
  .next (s.query m 0x0502 [(4, 4)] (fun s b => (0, s.fab.ticketBytes (b.pay 0 4))))

/-- The ring sequence of the oldest record in the ring, or of the next one. -/
def Harrow.firstSeq (h : Harrow) : Nat := match h.ring with | r :: _ => r.1 | [] => h.ringSeq

/-- Free the records from FIRST_SEQ − 256 to ACK_SEQ, modulo 2³² (R451). -/
def Harrow.freeTo (h : Harrow) (ack : Nat) : Harrow :=
  let base := (h.firstSeq + 2 ^ 32 - 256) % 2 ^ 32
  let dist := fun (x : Nat) => (x + 2 ^ 32 - base) % 2 ^ 32
  { h with ring := h.ring.filter (fun r => ¬ decide (dist r.1 ≤ dist ack)) }

/-- HARROW_REAP (R451): the records that waited for a place in the ring take those that it frees. -/
def execHarrowReap (m : Nat) (s : State) : Host.Outcome State Fault Refusal :=
  .next (s.run m 0x0503 [(6, 2)] (fun s b =>
    let n := b.pay 4 2
    if n = 0 || 256 < n then (s, 0x0101, [])
    else
      let f : Fabric := { s.fab with hrw := s.fab.hrw.freeTo (b.pay 0 4) }
      let f := ringRunN f.hrw.ringLate.length f
      let h := f.hrw
      let l := h.ring.take n
      ({ s with fab := f }, 0,
        leBytes h.firstSeq 4 ++ leBytes l.length 2 ++ zeros 2 ++ l.flatMap (fun r => leBytes r.2.toNat 64))))

/-- HARROW_ABORT (R258, R452). -/
def execHarrowAbort (m : Nat) (s : State) : Host.Outcome State Fault Refusal :=
  .next (s.runLong m 0x0504 [(4, 4)] (fun s b =>
    let tk := b.pay 0 4
    match s.fab.hrw.descs.find? (fun d => d.ticket = tk && ¬ d.mirror) with
    | none => (s, some (0x0201, []))
    | some d =>
      if d.internal then (s, some (0x0202, []))
      else ((s.runs m (.abort tk)).onFab (fun f => (f.abort s.cfg tk).flow s.cfg), none)))

/-! ## Integrity (Table 16.9) -/

/-- A correctable-error entry as Table 11.5 lays it out. -/
def CeEntry.bytes (e : CeEntry) : List Nat := leBytes e.loc 6 ++ [e.sym, e.count] ++ leBytes e.first 4 ++ leBytes e.last 4

/-- CE_READ (R308). -/
def execCeRead (m : Nat) (s : State) : Host.Outcome State Fault Refusal :=
  .next (s.query m 0x0601 [(1, 7)] (fun s b =>
    let k := b.pay 0 1
    if 9 < k then (0x0101, [])
    else
      let t := (vget s.fab.gln.blks GlnBlk.zero k).table.take 64
      (0, t.flatMap CeEntry.bytes ++ zeros (16 * (64 - t.length)))))

/-- CE_CLEAR (R453): the tables named become empty, with their marks; CE_OVF is cleared. -/
def execCeClear (m : Nat) (s : State) : Host.Outcome State Fault Refusal :=
  .next (s.run m 0x0602 [(1, 7)] (fun s b =>
    let k := b.pay 0 1
    if 9 < k && k ≠ 0xFF then (s, 0x0101, [])
    else
      let g := (List.range 10).foldl (fun (g : Gln) i =>
        if k = 0xFF || k = i then g.modBlk i (fun x => { x with table := [], ceOvf := 0 }) else g) s.fab.gln
      ({ s with fab := { s.fab with gln := g } }, 0, [])))

/-- The error-log copies that the journal keeps: the newest 1,024 (Table 15.12). -/
def Journal.elogs (j : Journal) : List JEntry :=
  let l := j.entries.filter (fun e => e.rtype = 0x33)
  l.drop (l.length - 1024)

/-- ELOG_READ (R321). -/
def execElogRead (m : Nat) (s : State) : Host.Outcome State Fault Refusal :=
  .next (s.query m 0x0603 [(6, 2)] (fun s b =>
    let first := b.pay 0 4
    let n := b.pay 4 2
    if n = 0 || 1024 < n then (0x0101, [])
    else (0, ((s.stw.jrnl.elogs.filter (fun e => decide (first ≤ e.jseq))).take n).flatMap (fun e =>
      leBytes e.jseq 4 ++ e.body.take 16))))

/-- TAINT_CLEAR (R454). -/
def execTaintClear (m : Nat) (s : State) : Host.Outcome State Fault Refusal :=
  .next (s.run m 0x0604 [(1, 3)] (fun s b =>
    let bank := b.pay 0 1
    let bucket := b.pay 4 4
    if (7 < bank && bank ≠ 0xFF) || (2 ^ 18 ≤ bucket && bucket ≠ 0xFFFFFFFF) then (s, 0x0101, [])
    else
      let named := fun (t : Nat × BitVec 18) =>
        (bank = 0xFF || decide (t.1 = bank)) && (bucket = 0xFFFFFFFF || decide (t.2.toNat = bucket))
      let g := s.fab.gran
      let k := (g.taint.filter named).length
      if k = 0 then (s, 0x0201, [])
      else
        let left := g.taint.filter (fun t => ¬ named t)
        let banks := (List.range 8).foldl (fun v i =>
          if left.any (fun t => t.1 = i) then v else vmod v i (fun (x : GrnBank) => { x with taintSet := false })) g.banks
        ({ s with fab := { s.fab with gran := { g with taint := left, banks := banks } } }, 0, leBytes k 4)))

/-- The map word's bits take a value: both copies, every cached copy, every summary bit (R455). -/
def Mem.setMapWord (mm : Mem) (w value : Nat) : Mem :=
  let un := (List.range 512).foldl (fun (t : Tab Unit) j =>
    let page := pageOfLocal (w / 262144) (w % 262144 * 512 + j)
    if value.testBit j then Tab.erase t page else Tab.set t page ()) mm.unmarked
  let sum := (List.range 8).foldl (fun (t : Tab Unit) i =>
    let k := i * 2 ^ 22 + w
    if value = 0 then Tab.set t k () else Tab.erase t k) mm.sumClear
  { mm with unmarked := un, sumClear := sum, lostWords := mm.lostWords.filter (fun x => x ≠ w),
            mapBad := mm.mapBad.filter (fun p => p.1 ≠ w) }

/-- ZMAP_WRITE (R455). -/
def execZmapWrite (m : Nat) (s : State) : Host.Outcome State Fault Refusal :=
  .next (s.run m 0x0605 [(1, 3)] (fun s b =>
    let c := b.pay 0 1
    let q := b.pay 4 4
    if 11 < c || 262144 ≤ q then (s, 0x0101, [])
    else
      let w := c * 262144 + q
      if ¬ s.fab.mem.lostWords.contains w then (s, 0x0201, [])
      else
        let f := { s.fab with mem := s.fab.mem.setMapWord w (b.pay 8 64) }
        let s := { s with fab := (f.pushH (MemReq.tagWr (mapPrimary w))).pushH (MemReq.tagWr (mapMirror w)) }
        (s.modStw (fun x => x.clearEntries 0x32 (w % 65536) (fun l => l.take 5 = 0x14 :: leBytes w 4)), 0, [])))

/-- TAGLOST_CLEAR (R456). -/
def execTaglostClear (m : Nat) (s : State) : Host.Outcome State Fault Refusal :=
  .next (s.run m 0x0606 [(1, 3)] (fun s b =>
    let slice := b.pay 0 1
    let word := b.pay 4 4
    if 7 < slice then (s, 0x0101, [])
    else
      let cober := word.testBit 31
      let set := word % 2 ^ 31
      let key := if cober then set + 2 ^ 21 else set
      let home := if cober then set / 2 ^ s.cfg.coberM else set / 2 ^ 18
      let c := s.fab.cache
      let ways := c.lostList.filter (fun p => p.1 = key)
      if home ≠ slice || (¬ cober && 2 ^ 21 ≤ set) || ways = [] then (s, 0x0201, [])
      else
        let words := ways.foldl (fun l (p : Nat × Nat) =>
          addOnce (if cober then s.cfg.coberTagWord set p.2 else tagWord set p.2) l) []
        let f := { s.fab with cache := { c with lostList := c.lostList.filter (fun p => p.1 ≠ key) },
                              gln := { s.fab.gln with storeUnusable := s.fab.gln.storeUnusable.filter (fun x => x ≠ slice) } }
        let s := { s with fab := words.foldl (fun f w => f.pushH (MemReq.tagWr w)) f }
        let s := ways.foldl (fun (s : State) p => s.modStw (fun x =>
          x.clearEntries 0x32 ((16 * p.1 + p.2) % 65536) (fun l => l.take 5 = 0x15 :: leBytes (16 * p.1 + p.2) 4))) s
        (s, 0, [])))

/-- The recorded repairs: all but the candidates on their way to the Steward. -/
def Gln.recorded (g : Gln) : List Repair := g.repairs.filter (fun r => r.state ≠ 0)

/-- An entry of REPAIR_LIST. -/
def State.repairEntry (s : State) (i : Nat) (r : Repair) : List Nat :=
  let kind := if r.block = 10 then 0 else if r.block < 4 then 1 else 2
  let st := if r.state = 1 then 0 else if r.state = 3 then 2 else 1
  let seq := match (s.stw.jrnl.entries.filter (fun e => e.rtype = 0x30 && e.key = i)).getLast? with
    | some e => e.jseq
    | none => 0
  [kind, st] ++ leBytes r.loc 6 ++ leBytes seq 4 ++ zeros 4

/-- REPAIR_LIST (R319). -/
def execRepairList (m : Nat) (s : State) : Host.Outcome State Fault Refusal :=
  .next (s.query m 0x0607 [(6, 2)] (fun s b =>
    let first := b.pay 0 4
    let n := b.pay 4 2
    if n = 0 || 2047 < n then (0x0101, [])
    else
      let l := ((s.fab.gln.recorded.zipIdx).drop first).take n
      (0, leBytes (s.glnReg 0xC) 4 ++ leBytes l.length 4 ++ l.flatMap (fun p => s.repairEntry p.2 p.1))))

/-- Instances of an on-die array (Table 16.10). -/
def arrayInsts (a : Nat) : Nat :=
  if a = 0 || 0x10 < a then 0
  else if a = 0x0B then 4 else if a = 0x0C then 6 else if 0x0D ≤ a then 1 else 8

/-- LOC is a location of the block (Table 11.8). -/
def State.locOk (s : State) (block loc : Nat) : Bool :=
  if block < 4 then loc < 96 * 2 ^ 30 && loc % 64 = 0 && hbmChan (loc / 64) / 16 = block
  else if block < 10 then
    loc < 2 ^ 37 && decide (loc % 16 < 12) && 4 + loc % 16 / 2 = block && decide (loc / 16 < s.pcr.bring.cap * 2 ^ 24 / 12)
  else block = 10 && loc < 2 ^ 27 && decide (bitsOf loc 24 3 < arrayInsts (bitsOf loc 16 8))

/-- The row of a location. -/
def State.rowOf (s : State) (block loc : Nat) : Nat :=
  if block < 4 then hbmRow (loc / 64)
  else if block < 10 then
    let p := ddrPlace s.fab.mem.rbits (loc / 16)
    packNat [(0, 4, loc % 16), (4, 1, p.sc), (5, 4, p.rnk), (9, 3, p.bg), (12, 2, p.ba), (14, 24, p.row)]
  else loc

/-- The field fuse entry of an on-die row (Table 11.11). -/
def fuseEntry (loc : Nat) : Word32 := BitVec.ofNat 32 (loc % 2 ^ 27 + 2 ^ 31)

/-- Step 2 of Table 11.10 for repair `i`: a journal record marked pending, and for an on-die row a fuse
entry; source 174 when the field fuse bank becomes full (Table 11.21). -/
def State.recordRepair (s : State) (i : Nat) (r : Repair) : State :=
  let r := { r with state := 1 }
  let g := s.fab.gln
  let g := if r.block = 10 then { g with fuses := g.fuses ++ [fuseEntry r.loc] } else g
  let s := { s with fab := { s.fab with gln := g } }
  let s := s.modStw (fun w => w.log 0x30 i r.body)
  if r.block = 10 && g.fuses.length = 512 then s.raise 174 else s

/-- REPAIR_NOMINATE (R457). -/
def execRepairNominate (m : Nat) (s : State) : Host.Outcome State Fault Refusal :=
  .next (s.run m 0x0608 [(1, 1)] (fun s b =>
    let block := b.pay 0 1
    let loc := b.pay 2 6
    let g := s.fab.gln
    let row := s.rowOf block loc
    if ¬ s.locOk block loc then (s, 0x0101, [])
    else if 64 ≤ g.pendingCount then (s, 0x0301, [])
    else if block = 10 && 512 ≤ g.fuses.length then (s, 0x0302, [])
    else if g.repairs.any (fun r => r.block = block && r.row = row && decide (r.state ≤ 1)) then (s, 0x0303, [])
    else
      let dram := match ((vget g.blks GlnBlk.zero block).table.find? (fun e => e.row = row)) with
        | some e => if 4 ≤ block && block < 10 then e.sym else 10
        | none => 10
      let r : Repair := { block := block, row := row, loc := loc, dram := dram, state := 1, epoch := 0 }
      let k := g.recorded.length
      let g := { g with repairs := g.recorded ++ [r] ++ g.repairs.filter (fun r => r.state = 0) }
      (({ s with fab := { s.fab with gln := g } } : State).recordRepair k r, 0, [])))

/-! ## Twin (Table 16.11) -/

/-- TWIN_STAGE (R459). -/
def execTwinStage (m : Nat) (s : State) : Host.Outcome State Fault Refusal :=
  .next (s.run m 0x0701 [] (fun s b =>
    let (c, st) := s.stw.staged.stage .twn (b.pay 0 4) (b.pay 4 4)
    if st ≠ 0 then (s, st, []) else (s.modStw (fun w => { w with staged := c }), 0, [])))

/-- TWIN_STATUS (R375). -/
def execTwinStatus (m : Nat) (s : State) : Host.Outcome State Fault Refusal :=
  .next (s.query m 0x0702 [] (fun s _ =>
    let p := match s.fab.twin.partner with
      | some h => leBytes h.uid.toNat 8 ++ leBytes (packNat [(0, 16, h.fwPatch), (16, 8, h.fwMinor), (24, 8, h.fwMajor)]) 4
          ++ leBytes h.epoch 4
      | none => zeros 16
    (0, [4, 8, 0xC, 0x10].flatMap (fun k => leBytes (s.twnReg k) 4) ++ p ++ leBytes s.fab.twin.lastGood.toNat 8 ++ zeros 8)))

/-- TWIN_WITNESS (R350, R460): the two samples are taken now. -/
def execTwinWitness (m : Nat) (up down : Bool) (s : State) : Host.Outcome State Fault Refusal :=
  .next (s.run m 0x0703 [] (fun s _ =>
    (s.onFab (fun f => f.witnessTest s.cfg up down), 0, [(witnessOf up down).toNat, 0, 0, 0])))

/-- TWIN_TAKEOVER (R461). -/
def execTwinTakeover (m : Nat) (s : State) : Host.Outcome State Fault Refusal :=
  .next (s.runLong m 0x0704 [] (fun s b =>
    let uid := match s.fab.twin.partner with | some h => h.uid.toNat | none => 0
    if s.fab.twin.pair ≠ .waiting then (s, some (0x0201, []))
    else if b.pay 0 8 ≠ uid then (s, some (0x0101, []))
    else ((s.runs m .takeover).onFab (fun f => f.takeOver s.cfg), none)))

/-- What this device's hello says (R353). -/
def State.ownHello (s : State) : Hello :=
  { uid := s.fab.uid, digest := s.cfg.digest, fwMajor := s.stw.version / 2 ^ 24, fwMinor := bitsOf s.stw.version 16 8,
    fwPatch := s.stw.version % 2 ^ 16, capGib := s.pcr.bring.cap, epoch := s.stw.jrnl.committed,
    survived := s.fab.twin.survived, time := s.fab.time, strap := s.fab.twin.strap, witness := s.fab.twin.witness,
    resetSince := s.fab.twin.powerSince }

/-- The disagreement of two hellos that keeps the devices from pairing (Table 13.4); 0 for none. -/
def helloDis (own h : Hello) : Nat :=
  if own.digest ≠ h.digest then 1
  else if own.fwMajor ≠ h.fwMajor || own.fwMinor ≠ h.fwMinor then 2
  else if own.capGib ≠ h.capGib then 4
  else if (helloRole own h).isNone then 5
  else 0

/-- TWIN_REJOIN (R370, R462). -/
def execTwinRejoin (m : Nat) (s : State) : Host.Outcome State Fault Refusal :=
  .next (s.run m 0x0705 [] (fun s _ =>
    let p := s.fab.twin.pair
    if ¬ ((p = .single && s.cfg.twinEn) || p = .survivor) then (s, 0x0201, [])
    else if ¬ s.fab.twin.heard then (s, 0x0202, [])
    else match s.fab.twin.partner with
    | none => (s, 0x0202, [])
    | some h =>
      let d := helloDis s.ownHello h
      if d ≠ 0 then (s, 0x0203, [d, 0, 0, 0]) else (s.onFab (fun f => f.rejoin s.ownHello), 0, [0, 0, 0, 0])))

/-! ## Interrupts (Table 16.12) -/

/-- A target that IRQ_ROUTE accepts. -/
def routable (t : Nat) : Bool := (targetNo t).isSome || t = 0xFF

/-- IRQ_ROUTE (R463): all or nothing. -/
def execIrqRoute (m : Nat) (s : State) : Host.Outcome State Fault Refusal :=
  .next (s.run m 0x0801 [(2, 6)] (fun s b =>
    let es := (List.range (b.pay 0 2)).map (fun i => (b.pay (8 + 4 * i) 1, b.pay (9 + 4 * i) 1, b.pay (10 + 4 * i) 2))
    if es.any (fun e => e.2.2 ≠ 0) then (s, 0x01F2, [])
    else match es.findIdx? (fun e => ¬ routable e.2.1) with
    | some i => (s, 0x0101, leBytes i 4)
    | none =>
      let q := es.foldl (fun (q : Irq) e => q.routeOne e.1 e.2.1) s.irq
      ({ s with irq := q }, 0, leBytes 0xFFFFFFFF 4)))

/-- IRQ_COALESCE (R463, R464). -/
def execIrqCoalesce (m : Nat) (s : State) : Host.Outcome State Fault Refusal :=
  .next (s.run m 0x0802 [(1, 1)] (fun s b =>
    let n := b.pay 2 2
    let t := b.pay 4 4
    match targetNo (b.pay 0 1) with
    | none => (s, 0x0101, [])
    | some k =>
      if n = 0 || 4095 < n then (s, 0x0102, [])
      else if t = 0 || 65000 < t then (s, 0x0103, [])
      else ({ s with irq := s.irq.coalesce k n t }, 0, [])))

/-- IRQ_OASIS (R464, R495). -/
def execIrqOasis (m : Nat) (s : State) : Host.Outcome State Fault Refusal :=
  .next (s.run m 0x0803 [(1, 7)] (fun s b =>
    let n := b.pay 0 1
    if 32 < n then (s, 0x0101, [])
    else if (b.payBytes (8 + n) (32 - n)).any (fun x => x ≠ 0) then (s, 0x01F2, [])
    else ({ s with irq := { s.irq with list := b.payBytes 8 n } }, 0, [])))

/-- IRQ_READ (R463). -/
def execIrqRead (m : Nat) (s : State) : Host.Outcome State Fault Refusal :=
  .next (s.query m 0x0804 [] (fun s _ =>
    let routes := (List.range 256).flatMap (fun n => [n, (s.irq.source n).target.toNat, 0, 0])
    let coal := (List.range 96).flatMap (fun t => leBytes (s.irq.coalOf t).ct 2 ++ [0, 0] ++ leBytes (s.irq.coalOf t).tt 4)
    let l := s.irq.list.take 32
    (0, routes ++ coal ++ [l.length] ++ zeros 7 ++ l ++ zeros (32 - l.length))))

end Sys2Proof.Machine
end

