-- ==== Sys2Proof/Machine/CmdMeter.lean ====
section
/-! DEFINITION. The metering commands of class 0x09 (Tables 16.13 and 16.14). -/
namespace Sys2Proof.Machine

/-- The Weighbridge acts, and its events are raised. -/
def State.onWgb (s : State) (g : Wgb → Wgb) : State :=
  ({ s with wgb := g s.wgb } : State).finish s.fab.tlink.st s.fab.twin.pair

/-- A command that the Weighbridge serves: its command port fails `fails` times, always while it has no
supply; one failure is repeated and reported (R466, Table 16.14, R427). -/
def State.meter (s : State) (fails : Nat) (body : State → State × Nat × List Nat) : State × Nat × List Nat :=
  if 2 ≤ fails || ¬ s.wgb.powered then (s, 0x0401, [])
  else
    let r := body s
    if fails = 1 && r.2.1 = 0 then (r.1, 0x06F0, r.2.2) else r

/-- The response of a readout: header with RECORDS and NEXT, then the records; a refusal gives 0x0501. -/
def State.readoutResp (s : State) (next : Nat) : State × Nat × List Nat :=
  match s.wgb.answer with
  | some (0, l) => (s, 0, leBytes l.length 4 ++ leBytes next 4 ++ zeros 8 ++ recBytes l)
  | _ => (s, 0x0501, [])

/-- Largest number of body records in a readout of mailbox `m` (R465). -/
def bodyLimit (m : Nat) : Nat := if m = 16 then 60 else 508

/-- METER_ID. -/
def execMeterId (m : Nat) (portFails : Nat) (s : State) : Host.Outcome State Fault Refusal :=
  .next (s.run m 0x0901 [] (fun s b => s.meter portFails (fun s =>
    (s.onWgb (fun w => w.readId (BitVec.ofNat 128 (b.pay 0 16)))).readoutResp 0)))

/-- The whole blocks at the front of a list whose records stay within a limit. -/
def Wgb.wholeBlocks (w : Wgb) : Nat → List Block → List Block
  | _, [] => []
  | room, b :: rest =>
    let n := (w.blockRecs b).length
    if n ≤ room then b :: w.wholeBlocks (room - n) rest else []

/-- METER_INTERVALS (R465): NEXT is the first INO not covered. -/
def execMeterIntervals (m : Nat) (portFails : Nat) (s : State) : Host.Outcome State Fault Refusal :=
  .next (s.run m 0x0902 [(1, 3), (12, 4)] (fun s b =>
    let g := b.pay 0 1
    let lo := b.pay 4 4
    let hi := b.pay 8 4
    let nonce : BitVec 128 := BitVec.ofNat 128 (b.pay 16 16)
    if 15 < g || hi < lo then (s, 0x0101, [])
    else s.meter portFails (fun s =>
      let all := s.wgb.range g lo hi
      let some_ := s.wgb.wholeBlocks (bodyLimit m) all
      let next := match all[some_.length]? with
        | some x => max lo x.ino
        | none => (hi + 1) % 2 ^ 32
      (s.onWgb (fun w => w.readout 0 (some_.flatMap w.blockRecs) nonce)).readoutResp next)))

/-- METER_CUMULATIVE. -/
def execMeterCumulative (m : Nat) (portFails : Nat) (s : State) : Host.Outcome State Fault Refusal :=
  .next (s.run m 0x0903 [(1, 1), (4, 4)] (fun s b =>
    let first := b.pay 0 1
    let n := b.pay 2 2
    if n = 0 || 256 < first + n then (s, 0x0101, [])
    else s.meter portFails (fun s =>
      (s.onWgb (fun w => w.readCumulative 1 first n (BitVec.ofNat 128 (b.pay 8 16)))).readoutResp 0)))

/-- METER_AUDIT: NEXT is the index after the last record returned. -/
def execMeterAudit (m : Nat) (portFails : Nat) (s : State) : Host.Outcome State Fault Refusal :=
  .next (s.run m 0x0904 [(6, 2)] (fun s b =>
    let first := b.pay 0 4
    let n := b.pay 4 2
    if n = 0 || 508 < n then (s, 0x0101, [])
    else s.meter portFails (fun s =>
      let k := ((s.wgb.audit.drop first).take n).length
      (s.onWgb (fun w => w.readAudit first n (BitVec.ofNat 128 (b.pay 8 16)))).readoutResp (first + k))))

/-- METER_STATUS. -/
def execMeterStatus (m : Nat) (portFails : Nat) (s : State) : Host.Outcome State Fault Refusal :=
  .next (s.run m 0x0905 [] (fun s _ => s.meter portFails (fun s =>
    (s.onWgb Wgb.status, 0, leBytes s.wgb.stat.toNat 4 ++ leBytes s.wgb.cur.ino 4 ++ leBytes s.wgb.auditCnt 4
      ++ leBytes s.wgb.t 8 ++ leBytes s.wgb.serial.toNat 8 ++ zeros 4))))

/-- METER_TIME_NOTE (R381): the pair of T and civil time is stored. -/
def execMeterTimeNote (m : Nat) (portFails : Nat) (s : State) : Host.Outcome State Fault Refusal :=
  .next (s.run m 0x0906 [(12, 4)] (fun s b => s.meter portFails (fun s =>
    let s' := s.onWgb (fun w => w.timeNote (BitVec.ofNat 96 (b.pay 0 12)))
    if ¬ s.wgb.tcxoOk then (s', 0x0202, []) else (s', 0, leBytes s.wgb.t 8))))

/-- METER_CLOSE_SHORT (R387, R466): it runs until T reaches the boundary. -/
def execMeterCloseShort (m : Nat) (portFails : Nat) (s : State) : Host.Outcome State Fault Refusal :=
  .next (s.runLong m 0x0907 [] (fun s _ =>
    if 2 ≤ portFails || ¬ s.wgb.powered then (s, some (0x0401, []))
    else
      let s := if portFails = 1 then s.modMb m (fun b => { b with faults := 1 }) else s
      if ¬ s.wgb.tcxoOk then (s.onWgb Wgb.closeShort, some (0x0202, []))
      else ((s.runs m (.short s.wgb.cur.ino)).onWgb Wgb.closeShort, none)))

/-- METER_MARK_FAILOVER: only where the pair is in FAILOVER or SURVIVOR. -/
def execMeterMarkFailover (m : Nat) (portFails : Nat) (s : State) : Host.Outcome State Fault Refusal :=
  .next (s.run m 0x0908 [] (fun s _ =>
    if s.fab.twin.pair ≠ .failover && s.fab.twin.pair ≠ .survivor then (s, 0x0201, [])
    else s.meter portFails (fun s => (s.onWgb Wgb.markFailover, 0, []))))

end Sys2Proof.Machine
end

