-- ==== Sys2Proof/Machine/CmdFirmware.lean ====
section
/-! DEFINITION. The firmware commands of classes 0x0A and 0x0B: images, activation, resets, journal,
diagnostics (Tables 16.15 and 16.16), and the end of a journal compaction. -/
namespace Sys2Proof.Machine

/-! ## Images (R406 to R414, R467 to R469) -/

/-- A slot after a write at an offset: offset 0 erases it first; it becomes unverified (R467). -/
def FlashSlot.write (x : FlashSlot) (off : Nat) (data : List Nat) : FlashSlot :=
  let old := if off = 0 then [] else x.bytes
  let bytes := data.zipIdx.foldl (fun (t : Tab Nat) (p : Nat × Nat) => Tab.put 0xFF t (off + p.2) (p.1 % 256)) old
  { x with bytes := bytes, written := off + data.length, verified := none }

/-- Change slot `i`. -/
def State.modSlot (s : State) (i : Nat) (g : FlashSlot → FlashSlot) : State :=
  s.modStw (fun w => { w with slots := vmod w.slots i g })

/-- FlashSlot `i`. -/
def State.slot (s : State) (i : Nat) : FlashSlot := vget s.stw.slots FlashSlot.init i

/-- FW_WRITE (R411, R467): `spi` is how many of the SPI NOR write's attempts fail. -/
def execFwWrite (m : Nat) (spi : Nat) (s : State) : Host.Outcome State Fault Refusal :=
  .next (s.run m 0x0A01 [(1, 3), (12, 4)] (fun s b =>
    let i := b.pay 0 1
    let off := b.pay 4 4
    let n := b.pay 8 4
    if 1 < i || n < 4 || 32744 < n || n % 4 ≠ 0 then (s, 0x0101, [])
    else if ¬ s.stw.safe && s.stw.running = i then (s, 0x0201, [])
    else if 0x800000 < off + n || (off ≠ 0 && off < (s.slot i).written) then (s, 0x0102, [])
    else if 2 ≤ spi then ((s.modSlot i (fun x => { x with verified := none })).raise 242, 0x0402, [])
    else (s.modSlot i (fun x => x.write off (b.payBytes 16 n)), if spi = 1 then 0x06F0 else 0, [])))

/-- FW_VERIFY (R408, R411): the result is journalled. -/
def execFwVerify (m : Nat) (s : State) : Host.Outcome State Fault Refusal :=
  .next (s.run m 0x0A02 [(1, 7)] (fun s b =>
    let i := b.pay 0 1
    if 1 < i then (s, 0x0101, [])
    else
      let r := s.stw.verify i
      let x := s.slot i
      let s := (s.modSlot i (fun x => { x with verified := some r, lastResult := r })).modStw (fun w => w.log 0x60 (4 + i) [i, r])
      (s, 0, [r, 0, 0, 0] ++ leBytes x.version 4 ++ leBytes x.imgRollback 1 ++ zeros 7)))

/-- Another mailbox's command runs: one that goes on running, or one taken that queues behind none. -/
def State.othersRun (s : State) (m : Nat) : Bool :=
  s.stw.longs.any (fun l => l.1 ≠ m)
    || (List.range 17).any (fun k => k ≠ m && (s.stw.mb k).unfinished && ¬ s.stw.sq.contains k)

/-- FW_ACTIVATE (R412, R468): the preferred slot is journalled; the restart follows 1 ms after DONE. -/
def execFwActivate (m : Nat) (s : State) : Host.Outcome State Fault Refusal :=
  .next (s.runLong m 0x0A03 [(1, 7)] (fun s b =>
    let i := b.pay 0 1
    let v := (s.slot i).version / 2 ^ 16
    let p := match s.fab.twin.partner with | some h => h.fwMajor * 256 + h.fwMinor | none => v
    let paired := s.fab.twin.pair = .paired || s.fab.twin.pair = .resync
    if 1 < i then (s, some (0x0101, []))
    else if s.stw.busy then (s, some (0x02F1, []))
    else if (s.slot i).verified ≠ some 0 then (s, some (0x0201, []))
    else if paired && p ≠ v then (s, some (0x0202, []))
    else if s.othersRun m then (s, none)
    else
      let s := s.modStw (fun w =>
        { (w.log 0x60 0 [i]).log 0x60 2 [i, 0] with trial := some (1 - i), activating := true, preferred := i })
      (s, some (0, []))))

/-- FW_ROLLBACK_COMMIT (R414, R469). -/
def execFwRollbackCommit (m : Nat) (s : State) : Host.Outcome State Fault Refusal :=
  .next (s.run m 0x0A04 [(1, 7)] (fun s b =>
    let fl := b.pay 0 1
    let other := 1 - s.stw.running
    let lower := s.stw.verify other = 0 && decide ((s.slot other).imgRollback < s.stw.imgRollback)
    if 2 ≤ fl then (s, 0x01F2, [])
    else if ¬ s.stw.accepted || 2 ≤ s.stw.running then (s, 0x0201, [])
    else if lower && fl = 0 then (s, 0x0202, [])
    else
      let n := min 64 (max s.stw.rollback s.stw.imgRollback)
      (s.modStw (fun w => { w with rollback := n }), 0, leBytes n 4)))

/-- A slot as FW_STATUS gives it. -/
def FlashSlot.statusBytes (x : FlashSlot) : List Nat :=
  let st := match x.verified with | none => 0 | some 0 => 1 | some _ => 2
  [st, x.lastResult, 0, 0] ++ leBytes x.version 4 ++ leBytes x.imgRollback 1 ++ zeros 7

/-- FW_STATUS (R411). -/
def execFwStatus (m : Nat) (s : State) : Host.Outcome State Fault Refusal :=
  .next (s.query m 0x0A05 [] (fun s _ =>
    (0, (s.slot 0).statusBytes ++ (s.slot 1).statusBytes ++ leBytes s.stw.bootWord 4 ++ zeros 12)))

/-! ## Reset and stop (R470, R471) -/

/-- DEVICE_RESET: it completes first; the reset follows 1 ms after DONE, a goodbye before it in twin mode. -/
def execDeviceReset (m : Nat) (s : State) : Host.Outcome State Fault Refusal :=
  .next (s.run m 0x0A06 [] (fun s b =>
    if b.pay 0 8 ≠ s.fab.uid.toNat then (s, 0x0103, [])
    else
      let s := if s.fab.twin.pair ≠ .single then s.onFab (fun f => f.sendCtl 4 0) else s
      (s.modStw (fun w => { w with resetDue := true }), 0, [])))

/-- DEVICE_STOP: a drain with FLUSH, which ends after 7b. -/
def execDeviceStop (m : Nat) (s : State) : Host.Outcome State Fault Refusal :=
  .next (s.runLong m 0x0A07 [] (fun s b =>
    if b.pay 0 8 ≠ s.fab.uid.toNat then (s, some (0x0103, []))
    else ((s.runs m .drain).askDrain (.stop m) 4, none)))

/-! ## Journal (R435, R472) -/

/-- Whole entries from the front of a list within a number of records. -/
def wholeEntries : Nat → List JEntry → List JEntry
  | _, [] => []
  | room, e :: rest => if e.nrec ≤ room then e :: wholeEntries (room - e.nrec) rest else []

/-- JOURNAL_READ. -/
def execJournalRead (m : Nat) (s : State) : Host.Outcome State Fault Refusal :=
  .next (s.query m 0x0A08 [(6, 2)] (fun s b =>
    let n := b.pay 4 2
    if n = 0 || 511 < n then (0x0101, [])
    else
      let j := s.stw.jrnl
      let first := if b.pay 0 4 = 0 then
          (match liveEntries (s.stw.liveCommits s.pcr.aon) j.entries with | e :: _ => e.jseq | [] => j.nextSeq)
        else b.pay 0 4
      let l := wholeEntries n (j.entries.filter (fun e => first ≤ e.jseq))
      (0, leBytes j.segSeq 4 ++ leBytes (recCount l) 2 ++ zeros 2 ++ l.flatMap (fun e => e.records.flatMap id))))

/-- The journal is compacted; a change of FULL raises source 240 (R435, Table 15.18). -/
def State.compactJournal (s : State) : State :=
  let j := s.stw.jrnl.compact (s.stw.liveCommits s.pcr.aon)
  let s' := s.modStw (fun w => { w with jrnl := j })
  if j.full == s.stw.jrnl.full then s' else s'.raise 240

/-- JOURNAL_COMPACT (R472). -/
def execJournalCompact (m : Nat) (s : State) : Host.Outcome State Fault Refusal :=
  .next (s.run m 0x0A09 [] (fun s _ =>
    let s := s.compactJournal
    if s.stw.jrnl.full then (s, 0x03F0, []) else (s, 0, leBytes s.stw.jrnl.word 4)))

/-- JOURNAL_COMPACTION_END (R435): the header write of the compaction in progress. -/
def execJournalCompactionEnd (s : State) : Host.Outcome State Fault Refusal :=
  .next (if s.stw.jrnl.compacting then s.compactJournal else s)

/-! ## Diagnostics (R473, R474) -/

/-- PORT_RESET (R336, R473): the whole port, or one half of a split port. -/
def execPortReset (m : Nat) (s : State) : Host.Outcome State Fault Refusal :=
  .next (s.runLong m 0x0B01 [(2, 6)] (fun s b =>
    let p := b.pay 0 1
    let h := b.pay 1 1
    let split := s.cfg.split p
    if 15 < p || (h ≠ 0 && h ≠ 1 && h ≠ 0xFF) || (h = 1 && ¬ split) then (s, some (0x0101, []))
    else
      let links := if h = 0xFF then (if split then [2 * p, 2 * p + 1] else [2 * p]) else [2 * p + h]
      ((s.runs m (.port links)).onFab (fun f => (links.foldl (fun f a => f.portReset s.cfg a) f).flow s.cfg), none)))

/-- SPD_READ. -/
def execSpdRead (m : Nat) (s : State) : Host.Outcome State Fault Refusal :=
  .next (s.query m 0x0B02 [(6, 2)] (fun s b =>
    let c := b.pay 0 1
    let d := b.pay 1 1
    let off := b.pay 2 2
    let n := b.pay 4 2
    match vget s.pcr.bring.spd none (2 * c + d) with
    | some l =>
      if 11 < c || 1 < d || n = 0 || 1024 < off + n then (0x0101, [])
      else (0, (List.range n).map (fun i => l.getD (off + i) 0))
    | none => (0x0101, [])))

/-- SENSOR_READ. -/
def execSensorRead (m : Nat) (s : State) : Host.Outcome State Fault Refusal :=
  .next (s.query m 0x0B03 [] (fun s _ =>
    let b := s.pcr.bring
    (0, b.hbc.toList.map (fun h => h.temp) ++ b.dimm.toList ++ b.die.toList ++ zeros 4
      ++ leBytes b.current 2 ++ leBytes b.power 2 ++ zeros 4)))

end Sys2Proof.Machine
end

