-- ==== Sys2Proof/Machine/ExecMeter.lean ====
section
/-! DEFINITION. The meanings of the Weighbridge's own rows: ticks and boundaries with the frames of the
taps, closing, supply and clock, and the commands of its two ports (chapter 14). -/
namespace Sys2Proof.Machine

/-! ## Taps (R383 to R386) -/

/-- Tap `k` has power: slices 0 to 7, HBM controllers 8 to 11, DDR5 channel pairs 12 to 17. -/
def State.tapOn (s : State) (k : Nat) : Bool := s.on (k + 10)

/-- The frame with which tap `k` ends a segment at T. -/
def State.tapFrame (s : State) (k t : Nat) : Frame :=
  let tp := s.fab.taps
  let seq := vget tp.seq 0 k
  let full := tp.needReset || decide ((seq + 1) % 1000 = 0)
  if k < 8 then
    let counts := (List.range 256).filterMap (fun tn =>
      let q := Tab.get tp.q (0, 0, 0) (256 * k + tn)
      if q = (0, 0, 0) then none else some (tn, q))
    let occ := (List.range 256).filterMap (fun tn =>
      let o := s.fab.cache.occupancy s.cfg k tn
      let was := if tp.needReset then 0 else Tab.get tp.sent 0 (256 * k + tn)
      if o ≠ was || full then some (tn, o) else none)
    { tap := k, seq := seq, endT := t, epoch := s.fab.epoch, counts := counts, occ := occ, full := full, reset := tp.needReset }
  else
    let b := vget s.fab.mem.tapBytes (0, 0) (k - 8)
    { tap := k, seq := seq, endT := t, epoch := s.fab.epoch, counts := if b = (0, 0) then [] else [(0, b.1, b.2, 0)],
      occ := [], full := false, reset := tp.needReset }

/-- Every powered tap ends its segment at T and sends its frame (R386). -/
def State.segment (s : State) (t : Nat) : State :=
  let on := (List.range 18).filter s.tapOn
  if on = [] then s
  else
    let frames := on.map (fun k => s.tapFrame k t)
    let tp := s.fab.taps
    let sent := (frames.filter (fun fr => fr.tap < 8)).foldl (fun (acc : Tab Nat) fr =>
      fr.occ.foldl (fun acc (p : Nat × Nat) => Tab.put 0 acc (256 * fr.tap + p.1) p.2) acc)
      (if tp.needReset then [] else tp.sent)
    let seq := Vector.ofFn (fun (i : Fin 18) =>
      let n := vget tp.seq 0 i.val
      if on.contains i.val then (n + 1) % 2 ^ 32 else n)
    let tp := { tp with q := [], sent := sent, seq := seq, frames := tp.frames ++ frames, needReset := false }
    { s with fab := { s.fab with taps := tp, mem := { s.fab.mem with tapBytes := Vector.replicate 10 (0, 0) } } }

/-- The Weighbridge acts at a boundary of its segments, at which the taps send their frames. -/
def State.boundary (s : State) (g : Wgb → Wgb) : State :=
  let w := g s.wgb
  if w.t = s.wgb.t then s.onWgb g else ({ s with wgb := w } : State).segment w.t |>.onWgb id

/-- Metering time runs: supply and WGB_TCXO are good (R379, R380). -/
def Wgb.runs (w : Wgb) : Bool := w.powered && w.tcxoOk

/-- SHORT_BOUNDARY (R387). -/
def execShortBoundary (s : State) : Host.Outcome State Fault Refusal :=
  .next (if s.wgb.runs && s.wgb.short.isSome then s.boundary Wgb.shortBoundary else s)

/-- METERING_TICK (R389, R390): T moves to its next 1 ms tick; a short boundary that lies before it comes
first. -/
def execMeteringTick (s : State) : Host.Outcome State Fault Refusal :=
  .next (if ¬ s.wgb.runs then s
    else
      let next := (s.wgb.t / 10000 + 1) * 10000
      let early := match s.wgb.short with | some tc => decide (tc < next) | none => false
      let s := if early then s.boundary Wgb.shortBoundary else s
      s.boundary (fun w =>
        let w := w.tick
        if w.short = some w.t then w.shortBoundary else w))

/-- TAP_FRAME_RECEIVE (R386): the oldest frame under way from a tap arrives; `bad1` and `bad2` tell which of
its two copies fail their CRC-32. -/
def execTapFrameReceive (tap : Nat) (bad1 bad2 : Bool) (s : State) : Host.Outcome State Fault Refusal :=
  let tp := s.fab.taps
  .next (match tp.frames.find? (fun fr => fr.tap = tap) with
    | none => s
    | some fr =>
      let rest := tp.frames.eraseP (fun fr => fr.tap = tap)
      ({ s with fab := { s.fab with taps := { tp with frames := rest } } } : State).onWgb (fun w => w.frame fr bad1 bad2))

/-- INTERVAL_CLOSE (R388): `late` tells that 10 ms have passed since END. -/
def execIntervalClose (late : Bool) (s : State) : Host.Outcome State Fault Refusal :=
  .next (if s.wgb.powered then s.onWgb (fun w => w.close late) else s)

/-- WGB_PFAIL (R390). -/
def execWgbPfail (s : State) : Host.Outcome State Fault Refusal := .next (s.onWgb Wgb.pfailAssert)

/-- WEIGHBRIDGE_POWER_RESTORE (R390). -/
def execWeighbridgePowerRestore (s : State) : Host.Outcome State Fault Refusal := .next (s.onWgb Wgb.powerRestore)

/-- WEIGHBRIDGE_POWER_LOSS (R517). -/
def execWeighbridgePowerLoss (s : State) : Host.Outcome State Fault Refusal := .next (s.onWgb Wgb.powerLoss)

/-- TIME_FAULT (R380). -/
def execTimeFault (s : State) : Host.Outcome State Fault Refusal := .next (s.onWgb Wgb.timeFault)

/-- TIME_FAULT_END (R380). -/
def execTimeFaultEnd (s : State) : Host.Outcome State Fault Refusal := .next (s.onWgb Wgb.timeFaultEnd)

/-! ## Commands of the two ports (Tables 14.2 and 14.9) -/

/-- A command arrives on a port, 0 the verification port and 1 the Steward port: its CRC-8 is checked on the
verification port, and a port that does not offer it refuses it (R378, R396, R398). -/
def Wgb.command (w : Wgb) (port : Nat) (crcOk offered : Bool) (cmd : Nat) (g : Wgb → Wgb) : Wgb :=
  if ¬ w.powered || 2 ≤ port then w
  else if port = 0 && ¬ crcOk then w.reply 3 []
  else if offered then g w
  else w.refuse port 2 cmd

/-- READ_ID (R395). -/
def execReadId (port : Nat) (nonce : BitVec 128) (crcOk : Bool) (s : State) : Host.Outcome State Fault Refusal :=
  .next (s.onWgb (fun w => w.command port crcOk true 1 (fun w => w.readId nonce)))

/-- READ_PARAMS (R396). -/
def execReadParams (port : Nat) (nonce : BitVec 128) (crcOk : Bool) (s : State) : Host.Outcome State Fault Refusal :=
  .next (s.onWgb (fun w => w.command port crcOk (port = 0) 2 (fun w => w.readParams nonce)))

/-- READ_INTERVALS (R395). -/
def execReadIntervals (port group lo hi : Nat) (nonce : BitVec 128) (crcOk : Bool) (s : State) :
    Host.Outcome State Fault Refusal :=
  .next (s.onWgb (fun w => w.command port crcOk true 3 (fun w => w.readIntervals port group lo hi nonce)))

/-- READ_CUMULATIVE (R395). -/
def execReadCumulative (port first n : Nat) (nonce : BitVec 128) (crcOk : Bool) (s : State) :
    Host.Outcome State Fault Refusal :=
  .next (s.onWgb (fun w => w.command port crcOk true 4 (fun w => w.readCumulative port first n nonce)))

/-- READ_AUDIT (R395). -/
def execReadAudit (port first n : Nat) (nonce : BitVec 128) (crcOk : Bool) (s : State) :
    Host.Outcome State Fault Refusal :=
  .next (s.onWgb (fun w => w.command port crcOk true 5 (fun w => w.readAudit first n nonce)))

/-- SELF_TEST (R396). -/
def execSelfTest (port : Nat) (journalOk tapsOk crcOk : Bool) (s : State) : Host.Outcome State Fault Refusal :=
  .next (s.onWgb (fun w => w.command port crcOk (port = 0) 6 (fun w => w.selfTest journalOk tapsOk)))

/-- SET_PARAMS (R398). -/
def execSetParams (port len : Nat) (crcOk : Bool) (s : State) : Host.Outcome State Fault Refusal :=
  .next (s.onWgb (fun w => w.command port crcOk (port = 0) 0x10 (fun w => w.setParams (len % 2 ^ 16))))

/-- LOAD_PATCH (R396); `pin` is the level of WGB_SEAL_EN. -/
def execLoadPatch (port : Nat) (pin : Bool) (bytes : List Nat) (crcOk : Bool) (s : State) :
    Host.Outcome State Fault Refusal :=
  .next (s.onWgb (fun w => ({ w with sealEn := pin } : Wgb).command port crcOk (port = 0) 0x11 (fun w => w.loadPatch bytes)))

/-- SEAL (R397, R398); `pin` is the level of WGB_SEAL_EN. -/
def execSeal (port : Nat) (pin : Bool) (confirm : Word32) (officer : BitVec 192) (date : Word64) (crcOk : Bool) (s : State) :
    Host.Outcome State Fault Refusal :=
  .next (s.onWgb (fun w => ({ w with sealEn := pin } : Wgb).command port crcOk (port = 0) 0x12 (fun w =>
    w.doSeal confirm officer date)))

/-- CLOSE_SHORT (R387). -/
def execCloseShort (port : Nat) (crcOk : Bool) (s : State) : Host.Outcome State Fault Refusal :=
  .next (s.onWgb (fun w => w.command port crcOk (port = 1) 0x20 Wgb.closeShort))

/-- MARK_FAILOVER (R400). -/
def execMarkFailover (port : Nat) (crcOk : Bool) (s : State) : Host.Outcome State Fault Refusal :=
  .next (s.onWgb (fun w => w.command port crcOk (port = 1) 0x21 Wgb.markFailover))

/-- TIME_NOTE (R381). -/
def execTimeNote (port : Nat) (civil : BitVec 96) (crcOk : Bool) (s : State) : Host.Outcome State Fault Refusal :=
  .next (s.onWgb (fun w => w.command port crcOk (port = 1) 0x22 (fun w => w.timeNote civil)))

/-- STATUS (R378). -/
def execStatus (port : Nat) (crcOk : Bool) (s : State) : Host.Outcome State Fault Refusal :=
  .next (s.onWgb (fun w => w.command port crcOk (port = 1) 0x23 Wgb.status))

end Sys2Proof.Machine
end

