-- ==== Sys2Proof/Machine/ExecLink.lean ====
section
/-! DEFINITION. The meanings of the rows at the ports and the twin link: link training and faults, agents'
declarations, requests, evictions and responses (chapters 2 to 4). -/
namespace Sys2Proof.Machine

/-- The port pair of link `a`, or the twin block for link 32, has power. -/
def State.linkOn (s : State) (a : Nat) : Bool := a < 33 && s.on (if a = 32 then 8 else a / 4)

/-- A command at link `a` acts where the link has power. -/
def State.atLink (s : State) (a : Nat) (g : Fabric → Fabric) : State := if s.linkOn a then s.onFab g else s

/-! ## Links (R36 to R61) -/

/-- CODEWORD_PAIR_RECEIVED. -/
def execCodewordPairReceived (a errA errB : Nat) (hdr : BitVec 40) (flits : List Flit) (s : State) :
    Host.Outcome State Fault Refusal :=
  .next (s.atLink a (fun f => f.codewordPair s.cfg a errA errB hdr flits))

/-- REPLAY_TIMEOUT. -/
def execReplayTimeout (a : Nat) (s : State) : Host.Outcome State Fault Refusal :=
  .next (s.atLink a (fun f => f.replayTimeout s.cfg a))

/-- LANE_DETECT. -/
def execLaneDetect (a offer : Nat) (s : State) : Host.Outcome State Fault Refusal :=
  .next (s.atLink a (fun f => f.laneDetect s.cfg a offer))

/-- POLLING_COMPLETE. -/
def execPollingComplete (a : Nat) (s : State) : Host.Outcome State Fault Refusal :=
  .next (s.atLink a (fun f => f.pollingComplete s.cfg a))

/-- POLLING_TIMEOUT. -/
def execPollingTimeout (a : Nat) (s : State) : Host.Outcome State Fault Refusal :=
  .next (s.atLink a (fun f => f.pollingTimeout s.cfg a))

/-- CONFIGURE_TIMEOUT. -/
def execConfigureTimeout (a : Nat) (s : State) : Host.Outcome State Fault Refusal :=
  .next (s.atLink a (fun f => f.trainTimeout s.cfg a .configure))

/-- DECLARE_TIMEOUT. -/
def execDeclareTimeout (a : Nat) (s : State) : Host.Outcome State Fault Refusal :=
  .next (s.atLink a (fun f => f.trainTimeout s.cfg a .declare))

/-- RECOVERY_COMPLETE; a device in WAITING whose twin link is back is PAIRED again (Table 13.3). -/
def execRecoveryComplete (a : Nat) (s : State) : Host.Outcome State Fault Refusal :=
  .next (s.atLink a (fun f =>
    let was := (f.link a).st
    let f := f.recoveryComplete s.cfg a
    if a = 32 && was = .recovery && f.tlink.st = .active && f.twin.pair = .waiting then f.setPair .paired else f))

/-- RECOVERY_TIMEOUT. -/
def execRecoveryTimeout (a : Nat) (faults : BitVec 8) (s : State) : Host.Outcome State Fault Refusal :=
  .next (s.atLink a (fun f => f.recoveryTimeout s.cfg a faults |>.flow s.cfg))

/-- LINK_BUFFERS_EMPTY. -/
def execLinkBuffersEmpty (a : Nat) (s : State) : Host.Outcome State Fault Refusal :=
  .next (s.atLink a (fun f => f.buffersEmpty s.cfg a))

/-- AGENT_DECLARATION. -/
def execAgentDeclaration (a : Nat) (decl : Line) (tie : Option (Nat × Line)) (s : State) : Host.Outcome State Fault Refusal :=
  .next (s.atLink a (fun f => f.declarations s.cfg a decl tie))

/-! ## Requests and evictions (chapters 3, 4, 8) -/

/-- A request or eviction of agent `a` with the header `hdr`, whose OPCODE is that of the row. -/
def State.agentReq (s : State) (a : Nat) (o : Op) (hdr : Slot) (d : Line) (be : BitVec 64) (opnd : Slot) (more : Bool) : State :=
  if a < 32 && hOp hdr = o.code then
    s.atLink a (fun f => f.request s.cfg a o { hdr := hdr, pay := reqPay o d be opnd } more)
  else s

/-- RDSHARED (R115). -/
def execRdshared (a : Nat) (hdr : Slot) (more : Bool) (s : State) : Host.Outcome State Fault Refusal :=
  .next (s.agentReq a .rdShared hdr 0 0 0 more)

/-- RDOWN (R115). -/
def execRdown (a : Nat) (hdr : Slot) (more : Bool) (s : State) : Host.Outcome State Fault Refusal :=
  .next (s.agentReq a .rdOwn hdr 0 0 0 more)

/-- RDONCE (R115). -/
def execRdonce (a : Nat) (hdr : Slot) (more : Bool) (s : State) : Host.Outcome State Fault Refusal :=
  .next (s.agentReq a .rdOnce hdr 0 0 0 more)

/-- UPGRADE (R115). -/
def execUpgrade (a : Nat) (hdr : Slot) (more : Bool) (s : State) : Host.Outcome State Fault Refusal :=
  .next (s.agentReq a .upgrade hdr 0 0 0 more)

/-- WRINVFULL (R115). -/
def execWrinvfull (a : Nat) (hdr : Slot) (data : Line) (more : Bool) (s : State) : Host.Outcome State Fault Refusal :=
  .next (s.agentReq a .wrInvFull hdr data 0 0 more)

/-- WRPARTIAL (R86). -/
def execWrpartial (a : Nat) (hdr : Slot) (data : Line) (be : BitVec 64) (more : Bool) (s : State) :
    Host.Outcome State Fault Refusal :=
  .next (s.agentReq a .wrPartial hdr data be 0 more)

/-- RDUNCACHED (R222). -/
def execRduncached (a : Nat) (hdr : Slot) (more : Bool) (s : State) : Host.Outcome State Fault Refusal :=
  .next (s.agentReq a .rdUncached hdr 0 0 0 more)

/-- WRUNCACHED (R221). -/
def execWruncached (a : Nat) (hdr : Slot) (data : Line) (more : Bool) (s : State) : Host.Outcome State Fault Refusal :=
  .next (s.agentReq a .wrUncached hdr data 0 0 more)

/-- LDRESV (R233). -/
def execLdresv (a : Nat) (hdr : Slot) (more : Bool) (s : State) : Host.Outcome State Fault Refusal :=
  .next (s.agentReq a .ldResv hdr 0 0 0 more)

/-- STCOND (R235). -/
def execStcond (a : Nat) (hdr : Slot) (opnd : Slot) (more : Bool) (s : State) : Host.Outcome State Fault Refusal :=
  .next (s.agentReq a .stCond hdr 0 0 opnd more)

/-- ATOMIC (R236). -/
def execAtomic (a : Nat) (hdr : Slot) (opnd : Slot) (more : Bool) (s : State) : Host.Outcome State Fault Refusal :=
  .next (s.agentReq a .atomic hdr 0 0 opnd more)

/-- CBAR (R226). -/
def execCbar (a : Nat) (hdr : Slot) (more : Bool) (s : State) : Host.Outcome State Fault Refusal :=
  .next (s.agentReq a .cBar hdr 0 0 0 more)

/-- RESVCLEAR (R234). -/
def execResvclear (a : Nat) (hdr : Slot) (more : Bool) (s : State) : Host.Outcome State Fault Refusal :=
  .next (s.agentReq a .resvClear hdr 0 0 0 more)

/-- SVCREQ (R227). -/
def execSvcreq (a : Nat) (hdr : Slot) (data : Line) (more : Bool) (s : State) : Host.Outcome State Fault Refusal :=
  .next (s.agentReq a .svcReq hdr data 0 0 more)

/-- WBDIRTY (R118). -/
def execWbdirty (a : Nat) (hdr : Slot) (data : Line) (more : Bool) (s : State) : Host.Outcome State Fault Refusal :=
  .next (s.agentReq a .wbDirty hdr data 0 0 more)

/-- WBOWNED (R118). -/
def execWbowned (a : Nat) (hdr : Slot) (data : Line) (more : Bool) (s : State) : Host.Outcome State Fault Refusal :=
  .next (s.agentReq a .wbOwned hdr data 0 0 more)

/-- EVICTCLEAN (R118). -/
def execEvictclean (a : Nat) (hdr : Slot) (more : Bool) (s : State) : Host.Outcome State Fault Refusal :=
  .next (s.agentReq a .evictClean hdr 0 0 0 more)

/-! ## Responses (R97, R109, R119, R124) -/

/-- A response of agent `a` of the row's OPCODE: it leaves its receive buffer and acts, and what it lets go
on goes on. -/
def State.agentRsp (s : State) (a : Nat) (o : Op) (hdr : Slot) (g : Fabric → Fabric) : State :=
  if a < 32 && hOp hdr = o.code then
    s.atLink a (fun f => (f.response s.cfg a o { hdr := hdr, pay := [] } g).twinProgress s.cfg)
  else s

/-- COMPACK. -/
def execCompack (a : Nat) (hdr : Slot) (s : State) : Host.Outcome State Fault Refusal :=
  .next (s.agentRsp a .compAck hdr (fun f => f.compAck s.cfg a hdr))

/-- RSPI. -/
def execRspi (a : Nat) (hdr : Slot) (s : State) : Host.Outcome State Fault Refusal :=
  .next (s.agentRsp a .rspI hdr (fun f => f.snoopResp s.cfg a .rspI hdr))

/-- RSPS. -/
def execRsps (a : Nat) (hdr : Slot) (s : State) : Host.Outcome State Fault Refusal :=
  .next (s.agentRsp a .rspS hdr (fun f => f.snoopResp s.cfg a .rspS hdr))

/-- RSPFWD. -/
def execRspfwd (a : Nat) (hdr : Slot) (s : State) : Host.Outcome State Fault Refusal :=
  .next (s.agentRsp a .rspFwd hdr (fun f => f.snoopResp s.cfg a .rspFwd hdr))

/-- RSPWBCROSSED. -/
def execRspwbcrossed (a : Nat) (hdr : Slot) (s : State) : Host.Outcome State Fault Refusal :=
  .next (s.agentRsp a .rspWbCrossed hdr (fun f => f.snoopResp s.cfg a .rspWbCrossed hdr))

/-- DATAFWD. -/
def execDatafwd (a : Nat) (hdr : Slot) (data : Line) (s : State) : Host.Outcome State Fault Refusal :=
  .next (if a < 32 && hOp hdr = Op.dataFwd.code then
      s.atLink a (fun f => (f.response s.cfg a .dataFwd { hdr := hdr, pay := dataSlots data (dtCrit hdr) }
        (fun f => f.dataFwd s.cfg a hdr data)).twinProgress s.cfg)
    else s)

end Sys2Proof.Machine
end

