-- ==== Sys2Proof/Machine/ExecHome.lean ====
section
/-! DEFINITION. The meanings of the rows inside the device's fabric: home slices and the Granary, memories,
ordering units, prefetch, the Harrow, integrity and the Gleaner (chapters 4 to 11). -/
namespace Sys2Proof.Machine

/-- A command at slice `i` acts where the slice has power. -/
def State.atSlice (s : State) (i : Nat) (g : Fabric → Fabric) : State :=
  if i < 8 && s.on (10 + i) then s.onFab g else s

/-- A command of the memories acts while the slices and stacks have power (R525). -/
def State.atMem (s : State) (g : Fabric → Fabric) : State := if s.on 10 then s.onFab g else s

/-- A command of the Harrow and Gleaner block acts where it has power. -/
def State.atHarrow (s : State) (g : Fabric → Fabric) : State := if s.on 31 then s.onFab g else s

/-! ## Home slices and the Granary -/

/-- SLICE_ARBITRATION (R111): one slice cycle of a slice's arbiter, `idle` cycles after the last one. -/
def execSliceArbitration (slice idle : Nat) (corr : List Nat) (s : State) : Host.Outcome State Fault Refusal :=
  .next (s.atSlice slice (fun f =>
    ((f.arbitrate s.cfg slice idle corr).meetCrossings s.cfg).ordAll s.cfg |>.twinProgress s.cfg))

/-- HOLD_EXPIRY (R113). -/
def execHoldExpiry (la : LAddr) (a : Nat) (s : State) : Host.Outcome State Fault Refusal :=
  .next (s.atMem (fun f => f.holdExpiry s.cfg la a))

/-- SNOOP_TIMEOUT (R126, R127). -/
def execSnoopTimeout (slice idx a : Nat) (s : State) : Host.Outcome State Fault Refusal :=
  .next (s.atSlice slice (fun f => ((f.snoopTimeout s.cfg slice idx a).flow s.cfg).twinProgress s.cfg))

/-- DEPARTURE_WALK_ROW (R146). -/
def execDepartureWalkRow (k : Nat) (s : State) : Host.Outcome State Fault Refusal :=
  .next (s.atMem (fun f => f.walkRow k))

/-- DISPLACEMENT_TIMEOUT (R142). -/
def execDisplacementTimeout (slice idx : Nat) (s : State) : Host.Outcome State Fault Refusal :=
  .next (s.atSlice slice (fun f => f.displaceTimeout slice idx))

/-- ALLOC_WAIT_EXPIRY (R169). -/
def execAllocWaitExpiry (slice idx : Nat) (s : State) : Host.Outcome State Fault Refusal :=
  .next (s.atSlice slice (fun f => f.allocExpiry s.cfg slice idx))

/-- TAG_STORE_READ_RETURN (R163). -/
def execTagStoreReadReturn (slice idx w : Nat) (err : ErrPat) (s : State) : Host.Outcome State Fault Refusal :=
  .next (s.atSlice slice (fun f => f.tagReturn s.cfg slice idx w err))

/-- The array of a Granary word. -/
def gwArray : GWord → GArray
  | .entry => .entry
  | .link => .link
  | .bucket => .bucket

/-- GRANARY_REREAD (R149, R152). -/
def execGranaryReread (b : Nat) (arr : GWord) (loc row : Nat) (out : GRead) (s : State) : Host.Outcome State Fault Refusal :=
  .next (s.atSlice b (fun f => (f.granaryReread s.cfg b (gwArray arr) loc row out).flow s.cfg))

/-- INDEX_REBUILD_END (R150). -/
def execIndexRebuildEnd (b : Nat) (s : State) : Host.Outcome State Fault Refusal :=
  .next (s.atSlice b (fun f => f.rebuildEnd s.cfg b))

/-- QRY_ANSWER (R151). -/
def execQryAnswer (loc : Nat) (ok : Bool) (e : Option GEntry) (s : State) : Host.Outcome State Fault Refusal :=
  .next (s.atMem (fun f => ((f.ctlTaken 8).qryAnswer s.cfg loc ok e).flow s.cfg))

/-- QRY_REQUEST (R348). -/
def execQryRequest (loc : Nat) (s : State) : Host.Outcome State Fault Refusal :=
  .next (s.atLink 32 (fun f => (f.ctlTaken 7).qryRequest loc))

/-! ## Memories -/

/-- HBM_READ_RETURN (R298). -/
def execHbmReadReturn (word : Nat) (err : ErrPat) (s : State) : Host.Outcome State Fault Refusal :=
  .next (s.atMem (fun f => f.hbmReturn s.cfg word err))

/-- DDR5_READ_RETURN (R194). -/
def execDdr5ReadReturn (line : Nat) (err : ErrPat) (s : State) : Host.Outcome State Fault Refusal :=
  .next (s.atMem (fun f => f.ddrReturn s.cfg line err))

/-- The part of an array row that failed. -/
def rowFault : RowPart → FaultPart
  | .address => .address
  | .data => .data
  | .control => .control

/-- REREAD_RETURN (R301, R318): the re-read of an HBM word, a DDR5 line or an on-die array row.  A lasting
fault of the Steward's working memory restarts the Steward (Tables 11.9, 12.7). -/
def execRereadReturn (r : Reread) (s : State) : Host.Outcome State Fault Refusal :=
  .next (match r with
    | .hbm word err => s.atMem (fun f => f.rereadReturn s.cfg false word err)
    | .ddr5 line err => s.atMem (fun f => f.rereadReturn s.cfg true line err)
    | .array arr inst row good a k part =>
      let s' := s.atMem (fun f => (f.arrayReread s.cfg arr inst row good a k (rowFault part)).flow s.cfg)
      if arr = 0x0E && ¬ good && s.on 28 then s'.watchdog else s')

/-- HBM_WRITE_ACCEPT (R215). -/
def execHbmWriteAccept (word : Nat) (s : State) : Host.Outcome State Fault Refusal :=
  .next (s.atMem (fun f => f.hbmAccept s.cfg word))

/-- DDR5_WRITE_ACCEPT (R215, R275). -/
def execDdr5WriteAccept (line : Nat) (e1 e2 : ErrPat) (s : State) : Host.Outcome State Fault Refusal :=
  .next (s.atMem (fun f => f.ddrAccept s.cfg line e1 e2))

/-- ZERO_MAP_WORD_RETURN (R280). -/
def execZeroMapWordReturn (slice idx : Nat) (err : ErrPat) (s : State) : Host.Outcome State Fault Refusal :=
  .next (s.atSlice slice (fun f => f.mapReturn s.cfg slice idx err))

/-- PAGE_FILL_QUEUED (R282). -/
def execPageFillQueued (slice idx : Nat) (s : State) : Host.Outcome State Fault Refusal :=
  .next (s.atSlice slice (fun f => f.pageFill s.cfg slice idx))

/-- HBM_REFRESH (R268). -/
def execHbmRefresh (bank limit : Nat) (s : State) : Host.Outcome State Fault Refusal :=
  .next (s.atMem (fun f => f.refreshDue false bank limit))

/-- DDR5_REFRESH (R272). -/
def execDdr5Refresh (bank limit : Nat) (s : State) : Host.Outcome State Fault Refusal :=
  .next (s.atMem (fun f => f.refreshDue true bank limit))

/-- QUEUE_ENTRY_AGING (R276). -/
def execQueueEntryAging (ddr : Bool) (word : Nat) (s : State) : Host.Outcome State Fault Refusal :=
  .next (s.atMem (fun f => f.ageEntry ddr word))

/-- DDR5_ROW_CLOSE (R277). -/
def execDdr5RowClose (row : Nat) (s : State) : Host.Outcome State Fault Refusal :=
  .next (s.atMem (fun f => f.closeRow row))

/-- WRITE_DRAIN (R277). -/
def execWriteDrain (ddr : Bool) (ch : Nat) (s : State) : Host.Outcome State Fault Refusal :=
  .next (s.atMem (fun f => f.writeDrain ddr ch))

/-! ## Ordering units -/

/-- ORDERED_TOKEN (R219). -/
def execOrderedToken (a : Nat) (s : State) : Host.Outcome State Fault Refusal :=
  .next (if a < 32 then s.atLink a (fun f => f.orderedToken s.cfg a) else s)

/-- END_POINT_NOTICE (R226). -/
def execEndPointNotice (a : Nat) (s : State) : Host.Outcome State Fault Refusal :=
  .next (if a < 32 then s.atLink a (fun f => f.endPointNotice s.cfg a) else s)

/-! ## Prefetch -/

/-- PREFETCH_QUEUE_TIMEOUT (R200). -/
def execPrefetchQueueTimeout (la : LAddr) (s : State) : Host.Outcome State Fault Refusal :=
  .next (s.atMem (fun f => f.pfTimeout la))

/-- PREFETCH_DATA_RETURN (R203). -/
def execPrefetchDataReturn (line : Nat) (err : ErrPat) (s : State) : Host.Outcome State Fault Refusal :=
  .next (s.atMem (fun f => f.prefetchReturn s.cfg line err))

/-- PREFETCH_RESOLUTION_REPORT (R205). -/
def execPrefetchResolutionReport (s : State) : Host.Outcome State Fault Refusal :=
  .next (s.atMem (fun f => f.pfReport s.cfg))

/-- STRIDE_TRAINING_RECORD (R206). -/
def execStrideTrainingRecord (s : State) : Host.Outcome State Fault Refusal :=
  .next (s.atMem (fun f => f.train s.cfg))

/-- STRIDE_TARGET (R207). -/
def execStrideTarget (s : State) : Host.Outcome State Fault Refusal :=
  .next (s.atMem (fun f => f.strideTarget s.cfg))

/-! ## Harrow -/

/-- DESCRIPTOR_START (R244). -/
def execDescriptorStart (s : State) : Host.Outcome State Fault Refusal :=
  .next (s.atHarrow (fun f => f.startNext s.cfg))

/-- HARROW_LINE_ISSUE (R250). -/
def execHarrowLineIssue (ticket : Nat) (s : State) : Host.Outcome State Fault Refusal :=
  .next (s.atHarrow (fun f => f.lineIssue s.cfg ticket))

/-- HARROW_LINE_ANSWER (R247). -/
def execHarrowLineAnswer (ticket : Nat) (s : State) : Host.Outcome State Fault Refusal :=
  .next (s.atHarrow (fun f => f.lineAnswer s.cfg ticket))

/-! ## Gleaner and repairs -/

/-- PATROL_READ_ISSUE (R314). -/
def execPatrolReadIssue (ddr : Bool) (u : Nat) (s : State) : Host.Outcome State Fault Refusal :=
  .next (s.atHarrow (fun f => f.patrolIssue s.cfg ddr u))

/-- PATROL_READ_RESULT (R315). -/
def execPatrolReadResult (ddr : Bool) (word : Nat) (err : ErrPat) (s : State) : Host.Outcome State Fault Refusal :=
  .next (s.atHarrow (fun f => f.patrolReturn s.cfg ddr word err))

/-- Step 2 of Table 11.10 for the oldest candidate passed to the Steward: recorded as pending; dropped where
64 repairs are pending, and refused where no fuse entry is left, with source 174 (R320). -/
def State.recordCandidate (s : State) : State :=
  let g := s.fab.gln
  match g.repairs.filter (fun r => r.state = 0) with
  | [] => s
  | r :: rest =>
    let k := g.recorded.length
    let put := fun (l : List Repair) => ({ s with fab := { s.fab with gln := { g with repairs := g.recorded ++ l ++ rest } } } : State)
    if 64 ≤ g.pendingCount then ((put []).modStw (fun w => w.log 0x30 0xFFFF { r with state := 3 }.body)).raise 174
    else if r.block = 10 && 512 ≤ g.fuses.length then
      let r := { r with state := 3 }
      ((put [r]).modStw (fun w => w.log 0x30 k r.body)).raise 174
    else (put [{ r with state := 1 }]).recordRepair k r

/-- REPAIR_CANDIDATE_RECORD (R319). -/
def execRepairCandidateRecord (s : State) : Host.Outcome State Fault Refusal :=
  .next (if s.stw.up then s.recordCandidate else s)

end Sys2Proof.Machine
end

