-- ==== Sys2Proof/Machine/ExecTwin.lean ====
section
/-! DEFINITION. The meanings of the rows of the twin link (chapter 13) and of the epoch drain (chapter 12). -/
namespace Sys2Proof.Machine

/-! ## Twin pairing (chapter 13) -/

/-- TWIN_HELLO (R353). -/
def execTwinHello (h : Hello) (s : State) : Host.Outcome State Fault Refusal :=
  .next (s.atLink 32 (fun f => (f.ctlTaken 3).hello s.cfg s.ownHello h))

/-- TWIN_HEARTBEAT (R348). -/
def execTwinHeartbeat (s : State) : Host.Outcome State Fault Refusal := .next (s.atLink 32 (fun f => f.heartbeat s.cfg))

/-- TWIN_GOODBYE (R363): the partner is lost at once. -/
def execTwinGoodbye (s : State) : Host.Outcome State Fault Refusal :=
  .next (s.atLink 32 (fun f => (f.ctlTaken 4).partnerLost s.cfg))

/-- HB_TIMEOUT (R363). -/
def execHbTimeout (s : State) : Host.Outcome State Fault Refusal := .next (s.atLink 32 (fun f => f.hbTimeout s.cfg))

/-- WITNESS_TEST (R350); `up` and `down` are the pin's samples under pull-up and pull-down. -/
def execWitnessTest (up down : Bool) (s : State) : Host.Outcome State Fault Refusal :=
  .next (s.atLink 32 (fun f => f.witnessTest s.cfg up down))

/-- WITNESS_WAIT_EXPIRY (R364). -/
def execWitnessWaitExpiry (s : State) : Host.Outcome State Fault Refusal := .next (s.atLink 32 (fun f => f.witnessExpiry s.cfg))

/-- FAILOVER_REPLAY_END (R364). -/
def execFailoverReplayEnd (s : State) : Host.Outcome State Fault Refusal := .next (s.atLink 32 (fun f => f.replayEnd s.cfg))

/-- RECONCILE_WAIT_EXPIRY (R367). -/
def execReconcileWaitExpiry (s : State) : Host.Outcome State Fault Refusal :=
  .next (s.atLink 32 (fun f => f.reconcileExpiry s.cfg))

/-- RESEND_WINDOW_EXPIRY (R367). -/
def execResendWindowExpiry (s : State) : Host.Outcome State Fault Refusal :=
  .next (s.atLink 32 (fun f => f.resendExpiry s.cfg))

/-- STBY_WALK_END (R364). -/
def execStbyWalkEnd (s : State) : Host.Outcome State Fault Refusal := .next (s.atLink 32 (fun f => f.stbyWalkEnd))

/-- LOG_RECORD_RECEIVE (R357). -/
def execLogRecordReceive (r : TRec) (s : State) : Host.Outcome State Fault Refusal :=
  .next (s.atLink 32 (fun f => f.logReceive s.cfg r))

/-- LOG_RECORD_APPLY (R358). -/
def execLogRecordApply (src : Nat) (s : State) : Host.Outcome State Fault Refusal :=
  .next (s.atLink 32 (fun f => f.logApply s.cfg src))

/-- TWIN_ACK_RECEIVE (R357). -/
def execTwinAckReceive (src lseq : Nat) (s : State) : Host.Outcome State Fault Refusal :=
  .next (s.atLink 32 (fun f => ((f.ctlTaken 1).ackReceive s.cfg src lseq).flow s.cfg))

/-- AGENT_MAP_UPDATE (R354). -/
def execAgentMapUpdate (uid : Word64) (a slot sets ways : Nat) (present : Bool) (s : State) :
    Host.Outcome State Fault Refusal :=
  .next (s.atLink 32 (fun f => (f.ctlTaken 6).mapUpdate uid a slot sets ways present))

/-- TIME_SYNC_SEND (R374). -/
def execTimeSyncSend (s : State) : Host.Outcome State Fault Refusal := .next (s.atLink 32 (fun f => f.timeSend))

/-- TIME_SYNC_RECEIVE (R374). -/
def execTimeSyncReceive (t : Word64) (roundTrip : Nat) (s : State) : Host.Outcome State Fault Refusal :=
  .next (s.atLink 32 (fun f => (f.ctlTaken 5).timeReceive t roundTrip))

/-- RESYNC_COPY_END (R372). -/
def execResyncCopyEnd (s : State) : Host.Outcome State Fault Refusal := .next (s.atLink 32 (fun f => f.copyEnd))

/-! ## The epoch drain (chapter 12) -/

/-- The Steward moves the drain on, with all that follows from it; it does so only while it runs. -/
def State.drainMove (s : State) (g : State → State) : State :=
  if s.stw.up then (g s).finish s.fab.tlink.st s.fab.twin.pair else s

/-- PRECLEAN_END (R326). -/
def execPrecleanEnd (s : State) : Host.Outcome State Fault Refusal :=
  .next (s.drainMove (fun s => if s.stw.preclean && s.fab.queue1Empty then s.step1 else s))

/-- Step 8 has ended: no drain runs, and the next one that waits begins (R325). -/
def State.endDrain (s : State) : State := (s.modStw (fun w => { w with step := 0, sub := 0 })).nextDrain

/-- DRAIN_STEP_END (R327). -/
def execDrainStepEnd (s : State) : Host.Outcome State Fault Refusal :=
  .next (s.drainMove (fun s => if s.stw.step = 8 then s.endDrain else s.stepBy State.nextStep))

/-- DRAIN_SUBSTEP_END (R331). -/
def execDrainSubstepEnd (dis : Nat) (outcomes : List Bool) (partner : Bool) (s : State) : Host.Outcome State Fault Refusal :=
  .next (s.drainMove (fun s => s.stepBy (fun s => s.nextSub dis outcomes partner)))

/-- TENANT_REWRITE_END (R182). -/
def execTenantRewriteEnd (s : State) : Host.Outcome State Fault Refusal :=
  .next (s.drainMove (fun s =>
    if s.stw.rewrite then (s.rewriteTenants.modStw (fun w => { w with rewrite := false })).raise 88 else s))

end Sys2Proof.Machine
end

