-- ==== Sys2Proof/Machine/ExecPower.lean ====
section
/-! DEFINITION. The meanings of the rows of resets, start-up, the Steward's life, power, thermal and clock
conditions (chapters 10, 12, 15, 19). -/
namespace Sys2Proof.Machine

/-- A change of the control side, with all that follows from it. -/
def State.andThen (s : State) (g : State → State) : State := (g s).finish s.fab.tlink.st s.fab.twin.pair

/-! ## Resets and start-up -/

/-- POWER_ON_RESET (R336). -/
def execPowerOnReset (s : State) : Host.Outcome State Fault Refusal := .next s.powerOn

/-- PORST_RELEASE (R529): the straps are sampled; with TEST_EN at 1 the device is held in manufacturing test,
to which nothing of the manual applies (Table 19.6). -/
def execPorstRelease (role : Bool) (smb : BitVec 2) (testEn : Bool) (s : State) : Host.Outcome State Fault Refusal :=
  if s.pcr.porst && testEn then .fault .manufacturingTest else .next (s.porstRelease role smb)

/-- STARTUP_STEP_END (R531). -/
def execStartupStepEnd (s : State) : Host.Outcome State Fault Refusal := .next (s.andThen State.startupStep)

/-- BOOT_IMAGE_CHECK (R409); `spiFail` tells that reading the flash failed twice. -/
def execBootImageCheck (spiFail : Bool) (s : State) : Host.Outcome State Fault Refusal :=
  .next (s.andThen (fun s => s.bootCheck spiFail))

/-- MEMORY_BRINGUP_STEP_END (R286). -/
def execMemoryBringupStepEnd (ddr : Bool) (fails : BitVec 12) (lanes : List (BitVec 16)) (geo : List Geo)
    (shown : DimmIn) (s : State) : Host.Outcome State Fault Refusal :=
  .next (s.bringup ddr { toDimmIn := shown, fails := fails, lanes := lanes, geo := geo })

/-- DEVICE_RESET_START (R470): the reset that a completed DEVICE_RESET left due. -/
def execDeviceResetStart (s : State) : Host.Outcome State Fault Refusal :=
  .next (if s.stw.resetDue then s.deviceReset else s)

/-- JTAG_DEVICE_RESET (R552). -/
def execJtagDeviceReset (s : State) : Host.Outcome State Fault Refusal := .next s.deviceReset

/-! ## PCI Express reset and domains -/

/-- PERST_ASSERT (R336, R429). -/
def execPerstAssert (s : State) : Host.Outcome State Fault Refusal := .next s.perstAssert

/-- PERST_DEASSERT (R522). -/
def execPerstDeassert (s : State) : Host.Outcome State Fault Refusal := .next s.perstDeassert

/-- PCIE_DOMAIN_OFF (R523). -/
def execPcieDomainOff (s : State) : Host.Outcome State Fault Refusal := .next s.pcieOff

/-- SMBUS_ADDRESS_MATCH (R524). -/
def execSmbusAddressMatch (s : State) : Host.Outcome State Fault Refusal :=
  .next (if s.started then s.wakeSteward else s)

/-! ## The Steward's life -/

/-- WATCHDOG_EXPIRY (R337). -/
def execWatchdogExpiry (s : State) : Host.Outcome State Fault Refusal := .next s.watchdog

/-- STEWARD_RESTART_END (R410). -/
def execStewardRestartEnd (s : State) : Host.Outcome State Fault Refusal := .next (s.andThen State.restartEnd)

/-- ACTIVATION_ACCEPTED (R413). -/
def execActivationAccepted (s : State) : Host.Outcome State Fault Refusal := .next s.accept

/-- ACTIVATION_RESTART (R468). -/
def execActivationRestart (s : State) : Host.Outcome State Fault Refusal := .next s.activationRestart

/-! ## Power failure and conditions -/

/-- PWR_FAIL_ASSERT (R339). -/
def execPwrFailAssert (s : State) : Host.Outcome State Fault Refusal := .next (s.powerFail 1 0)

/-- POWER_FAIL_STEP_END (R339). -/
def execPowerFailStepEnd (s : State) : Host.Outcome State Fault Refusal := .next s.powerFailStep

/-- RAIL_MONITOR (R518). -/
def execRailMonitor (rail : Nat) (far : Bool) (s : State) : Host.Outcome State Fault Refusal := .next (s.rail rail far)

/-- RAIL_BACK_IN_RANGE (R518). -/
def execRailBackInRange (rail : Nat) (s : State) : Host.Outcome State Fault Refusal := .next (s.railBack rail)

/-- THERMAL_READING (R528). -/
def execThermalReading (sensor idx value : Nat) (cleared : Bool) (s : State) : Host.Outcome State Fault Refusal :=
  .next (if s.pcr.porst || s.pcr.supplyHold then s else s.reading sensor idx value cleared)

/-- SYS_CLK_MISSING (R521). -/
def execSysClkMissing (s : State) : Host.Outcome State Fault Refusal :=
  .next (({ s with pcr := { s.pcr with sysClk := false } } : State).setCond 5 true)

/-- SYS_CLK_RETURN (R521). -/
def execSysClkReturn (s : State) : Host.Outcome State Fault Refusal :=
  .next (({ s with pcr := { s.pcr with sysClk := true } } : State).setCond 5 false)

/-- REFCLK_MISSING (R521). -/
def execRefclkMissing (s : State) : Host.Outcome State Fault Refusal := .next (s.andThen State.refclkGone)

/-- REFCLK_RETURN (R521). -/
def execRefclkReturn (s : State) : Host.Outcome State Fault Refusal :=
  .next (({ s with pcr := { s.pcr with refClk := true } } : State).setCond 6 false)

/-- OSCILLATOR_TRIM (R521): the always-on oscillator is trimmed against SYS_CLK. -/
def execOscillatorTrim (s : State) : Host.Outcome State Fault Refusal :=
  .next (if s.pcr.sysClk then { s with pcr := { s.pcr with trimmed := true } } else s)

end Sys2Proof.Machine
end

