-- ==== Sys2Proof/Machine/ExecHost.lean ====
section
/-! DEFINITION. The meanings of the rows of the host interface: mailboxes and SMBus (chapter 15), interrupts
and Oasis (chapter 17), direct registers and the endpoint (chapters 15, 18). -/
namespace Sys2Proof.Machine

/-! ## Mailboxes (R422, R424) -/

/-- MAILBOX_BUFFER_WRITE: a host write at an offset of buffer `m`; a byte that is not enabled is `none`. -/
def execMailboxBufferWrite (m off : Nat) (bytes : List (Option Nat)) (poisoned : Bool) (s : State) :
    Host.Outcome State Fault Refusal := .next (s.bufferWrite m off bytes poisoned)

/-- MAILBOX_GO; `same` tells that the doorbell crosses in the Steward cycle of the one before it. -/
def execMailboxGo (m : Nat) (same : Bool) (s : State) : Host.Outcome State Fault Refusal :=
  .next (if ¬ s.mmio then s.unsupported else if m < 16 then s.go m same else s)

/-- MAILBOX_ACK. -/
def execMailboxAck (m : Nat) (s : State) : Host.Outcome State Fault Refusal :=
  .next (if ¬ s.mmio then s.unsupported else if m < 16 then s.ack m else s)

/-- COMMAND_TAKE. -/
def execCommandTake (faults : Nat) (s : State) : Host.Outcome State Fault Refusal := .next (s.take faults)

/-! ## SMBus (R430, R431) -/

/-- What a read returned. -/
def State.reads (s : State) (l : List Nat) : State := { s with pci := { s.pci with answer := l } }

/-- A transaction of the BMC reaches the SMBus mailbox: the Steward domain is on, and the PEC is right. -/
def State.smbus (s : State) (pecOk : Bool) (g : State → State) : State := if s.on 28 && pecOk then g s else s

/-- SMBUS_STATUS_READ. -/
def execSmbusStatusRead (s : State) : Host.Outcome State Fault Refusal :=
  .next (s.smbus true (fun s => s.reads (leBytes (s.stw.mb 16).status 4)))

/-- SMBUS_SET_OFFSET. -/
def execSmbusSetOffset (off : Nat) (pecOk : Bool) (s : State) : Host.Outcome State Fault Refusal :=
  .next (s.smbus pecOk (fun s =>
    s.modStw (fun w => { w with smbOffset := if off < 8192 then off else Config.smbusOffset off % 8192 })))

/-- SMBUS_BLOCK_WRITE of 1 to 255 bytes. -/
def execSmbusBlockWrite (bytes : List Nat) (pecOk : Bool) (s : State) : Host.Outcome State Fault Refusal :=
  .next (s.smbus (pecOk && 1 ≤ bytes.length && bytes.length ≤ 255) (fun s =>
    let off := s.stw.smbOffset
    let l := bytes.map some
    let n := 0x1000 - off
    let s := if off < 0x1000 then s.modMb 16 (fun b => b.write 16 off (l.take n)) else s
    let s := if n < l.length then s.modMb 16 (fun b => b.write 16 0x1000 (l.drop n)) else s
    s.modStw (fun w => { w with smbOffset := min 0x2000 (off + l.length) })))

/-- SMBUS_BLOCK_READ of up to 255 bytes, which stops at 0x1FFF. -/
def execSmbusBlockRead (n : Nat) (s : State) : Host.Outcome State Fault Refusal :=
  .next (s.smbus true (fun s =>
    let off := s.stw.smbOffset
    let k := min (min n 255) (0x2000 - off)
    let l := (List.range k).map (fun i => (s.stw.mb 16).byte (off + i))
    (s.reads l).modStw (fun w => { w with smbOffset := off + k })))

/-- SMBUS_GO. -/
def execSmbusGo (same : Bool) (pecOk : Bool) (s : State) : Host.Outcome State Fault Refusal :=
  .next (s.smbus pecOk (fun s => s.go 16 same))

/-- SMBUS_ACK: it also releases SMBALERT_N. -/
def execSmbusAck (pecOk : Bool) (s : State) : Host.Outcome State Fault Refusal :=
  .next (s.smbus pecOk (fun s => (s.ack 16).alert false))

/-- SMBUS_ALERT_RESPONSE. -/
def execSmbusAlertResponse (s : State) : Host.Outcome State Fault Refusal :=
  .next (s.smbus true (fun s => s.alert false))

/-- SMBUS_CLOCK_LOW_TIMEOUT (R430): the bus is released; no transaction is held between commands. -/
def execSmbusClockLowTimeout (s : State) : Host.Outcome State Fault Refusal := .next s

/-! ## Interrupts (R477 to R488) -/

/-- The controller changes; a vector that is due in D3hot asks for PME (R490). -/
def State.onIrq (s : State) (g : Irq → Irq) : State := ({ s with irq := g s.irq } : State).pme

/-- The oldest event under way is taken off. -/
def State.dropEvent (s : State) : State := { s with fab := { s.fab with raised := s.fab.raised.drop 1 } }

/-- EVENT_ARRIVAL (R477): the oldest event under way reaches the controller while the PCIe domain is on. -/
def execEventArrival (s : State) : Host.Outcome State Fault Refusal :=
  .next (if ¬ s.on 9 || s.irq.oasisOn then s
    else match s.fab.raised with
    | [] => s
    | e :: _ => s.dropEvent.onIrq (fun q => q.arrive e.1 e.2))

/-- COALESCING_TIMER_EXPIRY (R479). -/
def execCoalescingTimerExpiry (t : Nat) (s : State) : Host.Outcome State Fault Refusal :=
  .next (if t < 96 then s.onIrq (fun q => q.expire t s.pcr.aon) else s)

/-- VECTOR_CLAIM (R481, R482). -/
def execVectorClaim (v : Nat) (s : State) : Host.Outcome State Fault Refusal :=
  .next (if v < 64 then (s.claim v).pme else s)

/-- CAUSE_READ (R483): answers the entry, and IRQ_VEC_v_STAT after the read. -/
def execCauseRead (v : Nat) (s : State) : Host.Outcome State Fault Refusal :=
  .next (if ¬ s.mmio then s.unsupported
    else if v < 64 then
      let r := s.irq.cause v
      (s.onIrq (fun _ => r.1)).reads [r.2, r.1.vecWord v]
    else s)

/-- SOURCE_MASK_WRITE (R480, R486); `late` tells that it lands within 64 event cycles of a claim that moved the
source. -/
def execSourceMaskWrite (n : Nat) (mask late : Bool) (s : State) : Host.Outcome State Fault Refusal :=
  .next (if ¬ s.mmio then s.unsupported else if n < 256 then s.onIrq (fun q => q.setMask n mask late) else s)

/-- AGENT_TARGET_DELIVERY (R487). -/
def execAgentTargetDelivery (a : Nat) (s : State) : Host.Outcome State Fault Refusal := .next (s.deliverAgent a)

/-- A pin of the device is driven. -/
def State.drive (s : State) (o : Out) : State := { s with pci := { s.pci with out := s.pci.out ++ [o] } }

/-- OASIS_EVENT (R492): the oldest event under way reaches Oasis while the PCIe domain is off or its wake has
not handed over; the first latch drives OASIS_WAKE_N low. -/
def execOasisEvent (s : State) : Host.Outcome State Fault Refusal :=
  .next (if ¬ s.irq.oasisOn then s
    else match s.fab.raised with
    | [] => s
    | e :: _ =>
      let s' := { s.dropEvent with irq := s.irq.oasisEvent e.1 e.2 }
      if s.irq.waking = 0 && 0 < s'.irq.waking then s'.drive (.oasisWake true) else s')

/-- OASIS_WAKE_POWERUP_END (R493): the PCIe and Steward domains are on. -/
def execOasisWakePowerupEnd (s : State) : Host.Outcome State Fault Refusal :=
  .next (if s.irq.waking = 1 || s.irq.waking = 2 then
      let q := { s.irq with waking := 3, watching := false }
      ({ s with irq := q, pcr := { s.pcr with pd := s.pcr.pd ||| 0x200 } } : State).wakeSteward
    else s)

/-- OASIS_HANDOVER (R493). -/
def execOasisHandover (s : State) : Host.Outcome State Fault Refusal :=
  .next (if s.irq.waking = 3 then (s.onIrq Irq.handOver).drive (.oasisWake false) else s)

/-! ## Direct registers (R497 to R510) -/

/-- The bits of the enabled bytes of a register: `be` has one bit per byte. -/
def byteMask (be : Nat) : Nat :=
  (List.range 4).foldl (fun n i => if be.testBit i then n + 0xFF * 2 ^ (8 * i) else n) 0

/-- A write to an RWE field is ignored: flagged, captured, and source 224 raised (R507). -/
def State.ignored (s : State) (off be block : Nat) : State :=
  let p := { s.pcr with cfgIgn := BitVec.ofNat 8 (putBit s.pcr.cfgIgn.toNat block true) }
  let p := if p.ignValid then p else { p with ignOff := off, ignBe := be, ignValid := true }
  ({ s with pcr := p } : State).raise 224

/-- The blocks are disabled: from the start of 7b until 7g has committed (R331, R507). -/
def Stw.disabled (w : Stw) : Bool := w.step = 7 && 2 ≤ w.sub && ¬ w.done7g

/-- A write to a configuration register (R332, R503, R507, R508): `x` holds the written bits, `m` the bits
of the enabled bytes. -/
def State.writeCfg (s : State) (r : CfgReg) (off be x m : Nat) : State :=
  let k := r.mask &&& m
  if k = 0 then s
  else if s.stw.disabled && s.on r.domain then
    let old := (r.get s.cfg).toNat
    { s with cfg := r.set s.cfg (BitVec.ofNat 32 ((old &&& (0xFFFFFFFF ^^^ k)) ||| (x &&& k))) }
  else s.ignored off be r.block

/-- W1C bits of the block window: the bits of `x` clear (R504, R505). -/
def State.clearBits (s : State) (off x : Nat) : State :=
  let f := s.fab
  let bit := x.testBit
  let keepB := fun (i : Nat) (b : Bool) => b && ¬ bit i
  if off < 0x400 then
    let n := off / 0x40
    let perr := fun (a : Nat) => if bit 10 then
        { s with fab := f.modLink a (fun l => { l with err := { l.err with firstValid := false } }) } else s
    match off % 0x40 with
    | 4 => { s with fab := { f with laneFault := vmod f.laneFault n (fun v => v &&& ~~~(BitVec.ofNat 8 (x / 2 ^ 16))) } }
    | 0x10 => perr (2 * n)
    | 0x14 => perr (2 * n + 1)
    | _ => s
  else if off = 0x2004 then
    { s with fab := f.modTwin (fun t => { t with disagree := keepB 12 t.disagree, timeStep := keepB 17 t.timeStep }) }
  else if 0x4000 ≤ off && off < 0x4080 then
    let g := f.gran.modBank ((off - 0x4000) / 0x10) (fun b =>
      if off % 0x10 = 4 then { b with taintSet := keepB 21 b.taintSet }
      else if off % 0x10 = 8 then { b with capValid := keepB 24 b.capValid } else b)
    { s with fab := { f with gran := g } }
  else if 0x8000 ≤ off && off < 0x8010 then
    let h := vmod s.pcr.bring.hbc ((off - 0x8000) / 4) (fun h => { h with hot := keepB 30 h.hot })
    { s with pcr := { s.pcr with bring := { s.pcr.bring with hbc := h } } }
  else if 0x8100 ≤ off && off < 0x8160 && off % 8 = 0 then
    let d := vmod s.pcr.bring.ddc ((off - 0x8100) / 8) (fun d => { d with out := keepB 28 d.out })
    { s with pcr := { s.pcr with bring := { s.pcr.bring with ddc := d } } }
  else if 0x8200 ≤ off && off < 0x8220 then
    { s with fab := f.modStat ((off - 0x8200) / 4) (fun z => { z with lostSet := keepB 31 z.lostSet }) }
  else if off = 0xA010 then { s with fab := { f with gln := { f.gln with overrun := keepB 4 f.gln.overrun } } }
  else if 0xA200 ≤ off && off < 0xA300 && off % 0x10 = 0 then
    let e := vmod f.gln.elog ((off - 0xA200) / 0x10) (fun e => { e with valid := keepB 31 e.valid })
    { s with fab := { f with gln := { f.gln with elog := e } } }
  else if off = 0xC000 then
    let p := s.pcr
    let p := { p with powerOn := keepB 0 p.powerOn, deviceRst := keepB 1 p.deviceRst, unclean := keepB 2 p.unclean,
                      noWarning := keepB 3 p.noWarning, perstSeen := keepB 4 p.perstSeen }
    { s with pcr := p }
  else if off = 0xC010 then { s with pcr := { s.pcr with cfgIgn := s.pcr.cfgIgn &&& ~~~(BitVec.ofNat 8 x) } }
  else if off = 0xC014 then { s with pcr := { s.pcr with ignValid := keepB 31 s.pcr.ignValid } }
  else s

/-- A write of STW_MB_m_STS or STW_MB_m_DB (Tables 15.13, 15.14). -/
def State.mailboxReg (s : State) (off x : Nat) : State :=
  let m := (off - 0x200000) / 8
  if off % 8 = 0 then
    s.modMb m (fun b => { b with bufViol := b.bufViol && ¬ x.testBit 2, dbViol := b.dbViol && ¬ x.testBit 3,
                                 lost := b.lost && ¬ x.testBit 4 })
  else if x.testBit 0 && x.testBit 1 then s.modMb m (fun b => { b with dbViol := true })
  else if x.testBit 0 then s.go m false
  else if x.testBit 1 then s.ack m
  else s

/-- A 32-bit write to the register at an offset: `be` its byte enables, `x` the written value. -/
def State.writeReg (s : State) (off be x : Nat) : State :=
  let m := byteMask be
  match cfgReg off with
  | some r => s.writeCfg r off be x m
  | none =>
    let x := x &&& m
    if 0x200000 ≤ off && off < 0x200080 then s.mailboxReg off x
    else if 0x300000 ≤ off && off < 0x300400 then
      if m.testBit 8 then s.onIrq (fun q => q.setMask ((off - 0x300000) / 4) (x.testBit 8) false) else s
    else match shadowDomain off with
    | some d => if s.on d then s.clearBits off x else s
    | none => s

/-- The bytes of one register in a write: its enables and its value. -/
def regPart (off : Nat) (bytes : List (Option Nat)) (reg : Nat) : Nat × Nat :=
  bytes.zipIdx.foldl (fun (acc : Nat × Nat) (p : Option Nat × Nat) =>
    match p.1 with
    | some v => if (off + p.2) / 4 = reg / 4 then
        (acc.1 + 2 ^ ((off + p.2) % 4), acc.2 + v % 256 * 2 ^ (8 * ((off + p.2) % 4))) else acc
    | none => acc) (0, 0)

/-- MSI-X table and pending-bit array (R418): an aligned DWORD or QWORD; the array ignores writes. -/
def State.msixWrite (s : State) (off : Nat) (bytes : List (Option Nat)) : State :=
  let n := bytes.length
  if bytes.any Option.isNone || ¬ ((n = 4 && off % 4 = 0) || (n = 8 && off % 8 = 0)) then s.aer 0
  else if 0x201400 ≤ off then s
  else
    let v := (off - 0x201000) / 16
    let b := bytes.map (fun x => x.getD 0 % 256)
    let word := fun (e : Msix) (k x : Nat) =>
      match k with
      | 0 => { e with addr := BitVec.ofNat 64 (e.addr.toNat / 2 ^ 32 * 2 ^ 32 + x) }
      | 4 => { e with addr := BitVec.ofNat 64 (e.addr.toNat % 2 ^ 32 + x * 2 ^ 32) }
      | 8 => { e with data := BitVec.ofNat 32 x }
      | _ => { e with mask := x.testBit 0 }
    let table := vmod s.pci.msix v (fun e =>
      let e := word e (off % 16) (leNat (b.take 4))
      if n = 8 then word e (off % 16 + 4) (leNat (b.drop 4)) else e)
    { s with pci := { s.pci with msix := table } }

/-- The window of the MSI-X table and pending-bit array. -/
def msixWindow (off : Nat) : Bool := (0x201000 ≤ off && off < 0x201400) || (0x202000 ≤ off && off < 0x202008)

/-- MSIX_TABLE_WRITE; `off` is the BAR0 offset. -/
def execMsixTableWrite (off : Nat) (bytes : List (Option Nat)) (s : State) : Host.Outcome State Fault Refusal :=
  .next (if ¬ s.mmio then s.unsupported else if msixWindow off then s.msixWrite off bytes else s)

/-- A write to a register window (R497, R498, R499). -/
def State.windowWrite (s : State) (off : Nat) (bytes : List (Option Nat)) : State :=
  let n := bytes.length
  let on := (List.range n).filter (fun i => (bytes.getD i none).isSome)
  let regs := (on.map (fun i => (off + i) / 4 * 4)).eraseDups
  if n = 8 && off % 8 = 0 then
    let e := regPart off bytes off
    let o := regPart off bytes (off + 4)
    let s := if e.1 = 0 then s else s.writeReg off e.1 e.2
    if o.1 = 0 then s else s.writeReg (off + 4) o.1 o.2
  else if 1 ≤ n && n ≤ 4 then
    match regs with
    | [] => s
    | [r] =>
      let p := regPart off bytes r
      s.writeReg r p.1 p.2
    | _ => s.aer 0
  else s.aer 0

/-- REGISTER_WRITE (R10): a memory write to BAR0; a write to a mailbox buffer or to the MSI-X structures acts
as in its own row. -/
def execRegisterWrite (off : Nat) (bytes : List (Option Nat)) (poisoned : Bool) (s : State) : Host.Outcome State Fault Refusal :=
  .next (if ¬ s.mmio || 0x4000000 ≤ off then s.unsupported
    else if poisoned then s.aer 2
    else if 0x100000 ≤ off && off < 0x200000 then s.bufferWrite ((off - 0x100000) / 0x10000) (off % 0x10000) bytes false
    else if msixWindow off then s.msixWrite off bytes
    else s.windowWrite off bytes)

/-- PCR_TIME_L_READ (R513): the low word, and the high word of the same copy into the latch. -/
def execPcrTimeLRead (s : State) : Host.Outcome State Fault Refusal :=
  .next (if ¬ s.mmio then s.unsupported
    else
      let hi := Tab.get s.pci.shadow 0 0xC00C
      let s := { s with pci := { s.pci with timeHi := BitVec.ofNat 32 hi } }
      s.reads [s.readReg 0xC008])

/-- SHADOW_CAPTURE (R501, R513, R527): an edge of the always-on clock; device time advances, PCR_COND is evaluated,
timers that wait start, and the copies are taken, with the high half of device time beside its low half. -/
def execShadowCapture (s : State) : Host.Outcome State Fault Refusal :=
  .next (if s.pcr.porst || s.pcr.supplyHold then s
    else
      let now := s.pcr.aon + 1
      let f := { s.fab with time := s.fab.time + 1 }
      let s := ({ s with fab := f, pcr := { s.pcr with aon := now }, irq := s.irq.edge now } : State).evalCond
      if s.on 9 then
        { s with pci := { s.pci with shadow := Tab.set s.capture 0xC00C (bitsOf s.fab.time.toNat 32 32) } }
      else s)

/-! ## The endpoint (R490) -/

/-- A field that a configuration write leaves alone keeps its value. -/
def keepOr (x : Option Bool) (old : Bool) : Bool := x.getD old

/-- PCI_CONFIG_WRITE. -/
def execPciConfigWrite (w : PciWrite) (s : State) : Host.Outcome State Fault Refusal :=
  .next (if ¬ s.on 9 then s
    else
      let p := s.pci
      let p := { p with d3 := keepOr w.d3 p.d3, pmeStatus := p.pmeStatus && ¬ w.clearPme, pmeEn := keepOr w.pmeEn p.pmeEn,
                        msixEn := keepOr w.msixEn p.msixEn, funcMask := keepOr w.funcMask p.funcMask,
                        busMaster := keepOr w.busMaster p.busMaster, memSpace := keepOr w.memSpace p.memSpace }
      let p := { p with l0 := p.l0 && ¬ p.d3 }
      ({ s with pci := p } : State).pme)

/-- PME_SERVICE_TIMEOUT (R490): a PM_PME that has not been serviced is sent again. -/
def execPmeServiceTimeout (s : State) : Host.Outcome State Fault Refusal :=
  .next (if s.on 9 && s.pci.d3 && s.pci.pmeEn && s.pci.pmeStatus then s.drive .pme else s)

end Sys2Proof.Machine
end

