-- ==== Sys2Proof/Machine/Dispatch.lean ====
section
/-! DEFINITION. The meaning of every command: one arm per constructor, one direct call each. -/
namespace Sys2Proof.Machine

/-- The effect of a command on everything but the queue. -/
def exec (i : Instr) (s : State) : Host.Outcome State Fault Refusal :=
  match i with
  | .codewordPairReceived a errA errB hdr flits => Sys2Proof.Machine.execCodewordPairReceived a errA errB hdr flits s
  | .replayTimeout a => Sys2Proof.Machine.execReplayTimeout a s
  | .laneDetect a offer => Sys2Proof.Machine.execLaneDetect a offer s
  | .pollingComplete a => Sys2Proof.Machine.execPollingComplete a s
  | .pollingTimeout a => Sys2Proof.Machine.execPollingTimeout a s
  | .configureTimeout a => Sys2Proof.Machine.execConfigureTimeout a s
  | .declareTimeout a => Sys2Proof.Machine.execDeclareTimeout a s
  | .recoveryComplete a => Sys2Proof.Machine.execRecoveryComplete a s
  | .recoveryTimeout a faults => Sys2Proof.Machine.execRecoveryTimeout a faults s
  | .linkBuffersEmpty a => Sys2Proof.Machine.execLinkBuffersEmpty a s
  | .agentDeclaration a decl tie => Sys2Proof.Machine.execAgentDeclaration a decl tie s
  | .rdshared a hdr more => Sys2Proof.Machine.execRdshared a hdr more s
  | .rdown a hdr more => Sys2Proof.Machine.execRdown a hdr more s
  | .rdonce a hdr more => Sys2Proof.Machine.execRdonce a hdr more s
  | .upgrade a hdr more => Sys2Proof.Machine.execUpgrade a hdr more s
  | .wrinvfull a hdr data more => Sys2Proof.Machine.execWrinvfull a hdr data more s
  | .wrpartial a hdr data be more => Sys2Proof.Machine.execWrpartial a hdr data be more s
  | .rduncached a hdr more => Sys2Proof.Machine.execRduncached a hdr more s
  | .wruncached a hdr data more => Sys2Proof.Machine.execWruncached a hdr data more s
  | .ldresv a hdr more => Sys2Proof.Machine.execLdresv a hdr more s
  | .stcond a hdr opnd more => Sys2Proof.Machine.execStcond a hdr opnd more s
  | .atomic a hdr opnd more => Sys2Proof.Machine.execAtomic a hdr opnd more s
  | .cbar a hdr more => Sys2Proof.Machine.execCbar a hdr more s
  | .resvclear a hdr more => Sys2Proof.Machine.execResvclear a hdr more s
  | .svcreq a hdr data more => Sys2Proof.Machine.execSvcreq a hdr data more s
  | .wbdirty a hdr data more => Sys2Proof.Machine.execWbdirty a hdr data more s
  | .wbowned a hdr data more => Sys2Proof.Machine.execWbowned a hdr data more s
  | .evictclean a hdr more => Sys2Proof.Machine.execEvictclean a hdr more s
  | .compack a hdr => Sys2Proof.Machine.execCompack a hdr s
  | .rspi a hdr => Sys2Proof.Machine.execRspi a hdr s
  | .rsps a hdr => Sys2Proof.Machine.execRsps a hdr s
  | .rspfwd a hdr => Sys2Proof.Machine.execRspfwd a hdr s
  | .rspwbcrossed a hdr => Sys2Proof.Machine.execRspwbcrossed a hdr s
  | .datafwd a hdr data => Sys2Proof.Machine.execDatafwd a hdr data s
  | .sliceArbitration slice idle corr => Sys2Proof.Machine.execSliceArbitration slice idle corr s
  | .holdExpiry la a => Sys2Proof.Machine.execHoldExpiry la a s
  | .snoopTimeout slice idx a => Sys2Proof.Machine.execSnoopTimeout slice idx a s
  | .departureWalkRow k => Sys2Proof.Machine.execDepartureWalkRow k s
  | .displacementTimeout slice idx => Sys2Proof.Machine.execDisplacementTimeout slice idx s
  | .allocWaitExpiry slice idx => Sys2Proof.Machine.execAllocWaitExpiry slice idx s
  | .tagStoreReadReturn slice idx w err => Sys2Proof.Machine.execTagStoreReadReturn slice idx w err s
  | .granaryReread b arr loc row out => Sys2Proof.Machine.execGranaryReread b arr loc row out s
  | .indexRebuildEnd b => Sys2Proof.Machine.execIndexRebuildEnd b s
  | .qryAnswer loc ok e => Sys2Proof.Machine.execQryAnswer loc ok e s
  | .qryRequest loc => Sys2Proof.Machine.execQryRequest loc s
  | .hbmReadReturn word err => Sys2Proof.Machine.execHbmReadReturn word err s
  | .ddr5ReadReturn line err => Sys2Proof.Machine.execDdr5ReadReturn line err s
  | .rereadReturn r => Sys2Proof.Machine.execRereadReturn r s
  | .hbmWriteAccept word => Sys2Proof.Machine.execHbmWriteAccept word s
  | .ddr5WriteAccept line e1 e2 => Sys2Proof.Machine.execDdr5WriteAccept line e1 e2 s
  | .zeroMapWordReturn slice idx err => Sys2Proof.Machine.execZeroMapWordReturn slice idx err s
  | .pageFillQueued slice idx => Sys2Proof.Machine.execPageFillQueued slice idx s
  | .hbmRefresh bank limit => Sys2Proof.Machine.execHbmRefresh bank limit s
  | .ddr5Refresh bank limit => Sys2Proof.Machine.execDdr5Refresh bank limit s
  | .queueEntryAging ddr word => Sys2Proof.Machine.execQueueEntryAging ddr word s
  | .ddr5RowClose row => Sys2Proof.Machine.execDdr5RowClose row s
  | .orderedToken a => Sys2Proof.Machine.execOrderedToken a s
  | .endPointNotice a => Sys2Proof.Machine.execEndPointNotice a s
  | .prefetchQueueTimeout la => Sys2Proof.Machine.execPrefetchQueueTimeout la s
  | .prefetchDataReturn line err => Sys2Proof.Machine.execPrefetchDataReturn line err s
  | .prefetchResolutionReport => Sys2Proof.Machine.execPrefetchResolutionReport s
  | .strideTrainingRecord => Sys2Proof.Machine.execStrideTrainingRecord s
  | .strideTarget => Sys2Proof.Machine.execStrideTarget s
  | .descriptorStart => Sys2Proof.Machine.execDescriptorStart s
  | .harrowLineIssue ticket => Sys2Proof.Machine.execHarrowLineIssue ticket s
  | .harrowLineAnswer ticket => Sys2Proof.Machine.execHarrowLineAnswer ticket s
  | .patrolReadIssue ddr u => Sys2Proof.Machine.execPatrolReadIssue ddr u s
  | .patrolReadResult ddr word err => Sys2Proof.Machine.execPatrolReadResult ddr word err s
  | .repairCandidateRecord => Sys2Proof.Machine.execRepairCandidateRecord s
  | .epochApply m => Sys2Proof.Machine.execEpochApply m s
  | .precleanEnd => Sys2Proof.Machine.execPrecleanEnd s
  | .drainStepEnd => Sys2Proof.Machine.execDrainStepEnd s
  | .drainSubstepEnd dis outcomes partner => Sys2Proof.Machine.execDrainSubstepEnd dis outcomes partner s
  | .tenantRewriteEnd => Sys2Proof.Machine.execTenantRewriteEnd s
  | .powerOnReset => Sys2Proof.Machine.execPowerOnReset s
  | .porstRelease role smb testEn => Sys2Proof.Machine.execPorstRelease role smb testEn s
  | .startupStepEnd => Sys2Proof.Machine.execStartupStepEnd s
  | .bootImageCheck spiFail => Sys2Proof.Machine.execBootImageCheck spiFail s
  | .memoryBringupStepEnd ddr fails lanes geo shown => Sys2Proof.Machine.execMemoryBringupStepEnd ddr fails lanes geo shown s
  | .perstAssert => Sys2Proof.Machine.execPerstAssert s
  | .perstDeassert => Sys2Proof.Machine.execPerstDeassert s
  | .watchdogExpiry => Sys2Proof.Machine.execWatchdogExpiry s
  | .stewardRestartEnd => Sys2Proof.Machine.execStewardRestartEnd s
  | .activationAccepted => Sys2Proof.Machine.execActivationAccepted s
  | .activationRestart => Sys2Proof.Machine.execActivationRestart s
  | .deviceResetStart => Sys2Proof.Machine.execDeviceResetStart s
  | .pwrFailAssert => Sys2Proof.Machine.execPwrFailAssert s
  | .powerFailStepEnd => Sys2Proof.Machine.execPowerFailStepEnd s
  | .railMonitor rail far => Sys2Proof.Machine.execRailMonitor rail far s
  | .thermalReading sensor idx value cleared => Sys2Proof.Machine.execThermalReading sensor idx value cleared s
  | .sysClkMissing => Sys2Proof.Machine.execSysClkMissing s
  | .refclkMissing => Sys2Proof.Machine.execRefclkMissing s
  | .oscillatorTrim => Sys2Proof.Machine.execOscillatorTrim s
  | .pcieDomainOff => Sys2Proof.Machine.execPcieDomainOff s
  | .smbusAddressMatch => Sys2Proof.Machine.execSmbusAddressMatch s
  | .twinHello h => Sys2Proof.Machine.execTwinHello h s
  | .twinHeartbeat => Sys2Proof.Machine.execTwinHeartbeat s
  | .twinGoodbye => Sys2Proof.Machine.execTwinGoodbye s
  | .hbTimeout => Sys2Proof.Machine.execHbTimeout s
  | .witnessTest up down => Sys2Proof.Machine.execWitnessTest up down s
  | .witnessWaitExpiry => Sys2Proof.Machine.execWitnessWaitExpiry s
  | .failoverReplayEnd => Sys2Proof.Machine.execFailoverReplayEnd s
  | .reconcileWaitExpiry => Sys2Proof.Machine.execReconcileWaitExpiry s
  | .resendWindowExpiry => Sys2Proof.Machine.execResendWindowExpiry s
  | .stbyWalkEnd => Sys2Proof.Machine.execStbyWalkEnd s
  | .logRecordReceive r => Sys2Proof.Machine.execLogRecordReceive r s
  | .logRecordApply src => Sys2Proof.Machine.execLogRecordApply src s
  | .twinAckReceive src lseq => Sys2Proof.Machine.execTwinAckReceive src lseq s
  | .agentMapUpdate uid a slot sets ways present => Sys2Proof.Machine.execAgentMapUpdate uid a slot sets ways present s
  | .timeSyncSend => Sys2Proof.Machine.execTimeSyncSend s
  | .timeSyncReceive t roundTrip => Sys2Proof.Machine.execTimeSyncReceive t roundTrip s
  | .resyncCopyEnd => Sys2Proof.Machine.execResyncCopyEnd s
  | .meteringTick => Sys2Proof.Machine.execMeteringTick s
  | .tapFrameReceive tap bad1 bad2 => Sys2Proof.Machine.execTapFrameReceive tap bad1 bad2 s
  | .shortBoundary => Sys2Proof.Machine.execShortBoundary s
  | .intervalClose late => Sys2Proof.Machine.execIntervalClose late s
  | .wgbPfail => Sys2Proof.Machine.execWgbPfail s
  | .weighbridgePowerRestore => Sys2Proof.Machine.execWeighbridgePowerRestore s
  | .timeFault => Sys2Proof.Machine.execTimeFault s
  | .timeFaultEnd => Sys2Proof.Machine.execTimeFaultEnd s
  | .readId port nonce crcOk => Sys2Proof.Machine.execReadId port nonce crcOk s
  | .readParams port nonce crcOk => Sys2Proof.Machine.execReadParams port nonce crcOk s
  | .readIntervals port group lo hi nonce crcOk => Sys2Proof.Machine.execReadIntervals port group lo hi nonce crcOk s
  | .readCumulative port first n nonce crcOk => Sys2Proof.Machine.execReadCumulative port first n nonce crcOk s
  | .readAudit port first n nonce crcOk => Sys2Proof.Machine.execReadAudit port first n nonce crcOk s
  | .selfTest port journalOk tapsOk crcOk => Sys2Proof.Machine.execSelfTest port journalOk tapsOk crcOk s
  | .setParams port len crcOk => Sys2Proof.Machine.execSetParams port len crcOk s
  | .loadPatch port pin bytes crcOk => Sys2Proof.Machine.execLoadPatch port pin bytes crcOk s
  | .seal port pin confirm officer date crcOk => Sys2Proof.Machine.execSeal port pin confirm officer date crcOk s
  | .closeShort port crcOk => Sys2Proof.Machine.execCloseShort port crcOk s
  | .markFailover port crcOk => Sys2Proof.Machine.execMarkFailover port crcOk s
  | .timeNote port civil crcOk => Sys2Proof.Machine.execTimeNote port civil crcOk s
  | .status port crcOk => Sys2Proof.Machine.execStatus port crcOk s
  | .mailboxBufferWrite m off bytes poisoned => Sys2Proof.Machine.execMailboxBufferWrite m off bytes poisoned s
  | .mailboxGo m same => Sys2Proof.Machine.execMailboxGo m same s
  | .mailboxAck m => Sys2Proof.Machine.execMailboxAck m s
  | .commandTake faults => Sys2Proof.Machine.execCommandTake faults s
  | .journalCompactionEnd => Sys2Proof.Machine.execJournalCompactionEnd s
  | .smbusStatusRead => Sys2Proof.Machine.execSmbusStatusRead s
  | .smbusSetOffset off pecOk => Sys2Proof.Machine.execSmbusSetOffset off pecOk s
  | .smbusBlockWrite bytes pecOk => Sys2Proof.Machine.execSmbusBlockWrite bytes pecOk s
  | .smbusBlockRead n => Sys2Proof.Machine.execSmbusBlockRead n s
  | .smbusGo same pecOk => Sys2Proof.Machine.execSmbusGo same pecOk s
  | .smbusAck pecOk => Sys2Proof.Machine.execSmbusAck pecOk s
  | .smbusAlertResponse => Sys2Proof.Machine.execSmbusAlertResponse s
  | .idGet m => Sys2Proof.Machine.execIdGet m s
  | .idAgents m => Sys2Proof.Machine.execIdAgents m s
  | .cfgStage m => Sys2Proof.Machine.execCfgStage m s
  | .cfgRead m => Sys2Proof.Machine.execCfgRead m s
  | .cfgDiscard m => Sys2Proof.Machine.execCfgDiscard m s
  | .cfgCheck m => Sys2Proof.Machine.execCfgCheck m s
  | .cfgDigest m => Sys2Proof.Machine.execCfgDigest m s
  | .epochStatus m => Sys2Proof.Machine.execEpochStatus m s
  | .regionLookup m => Sys2Proof.Machine.execRegionLookup m s
  | .regionRead m => Sys2Proof.Machine.execRegionRead m s
  | .tenantRead m => Sys2Proof.Machine.execTenantRead m s
  | .cacheLock m => Sys2Proof.Machine.execCacheLock m s
  | .cacheUnlock m => Sys2Proof.Machine.execCacheUnlock m s
  | .cacheStatus m => Sys2Proof.Machine.execCacheStatus m s
  | .cacheTagRead m => Sys2Proof.Machine.execCacheTagRead m s
  | .harrowSubmit m => Sys2Proof.Machine.execHarrowSubmit m s
  | .harrowQuery m => Sys2Proof.Machine.execHarrowQuery m s
  | .harrowReap m => Sys2Proof.Machine.execHarrowReap m s
  | .harrowAbort m => Sys2Proof.Machine.execHarrowAbort m s
  | .ceRead m => Sys2Proof.Machine.execCeRead m s
  | .ceClear m => Sys2Proof.Machine.execCeClear m s
  | .elogRead m => Sys2Proof.Machine.execElogRead m s
  | .taintClear m => Sys2Proof.Machine.execTaintClear m s
  | .zmapWrite m => Sys2Proof.Machine.execZmapWrite m s
  | .taglostClear m => Sys2Proof.Machine.execTaglostClear m s
  | .repairList m => Sys2Proof.Machine.execRepairList m s
  | .repairNominate m => Sys2Proof.Machine.execRepairNominate m s
  | .twinStage m => Sys2Proof.Machine.execTwinStage m s
  | .twinStatus m => Sys2Proof.Machine.execTwinStatus m s
  | .twinWitness m up down => Sys2Proof.Machine.execTwinWitness m up down s
  | .twinTakeover m => Sys2Proof.Machine.execTwinTakeover m s
  | .twinRejoin m => Sys2Proof.Machine.execTwinRejoin m s
  | .irqRoute m => Sys2Proof.Machine.execIrqRoute m s
  | .irqCoalesce m => Sys2Proof.Machine.execIrqCoalesce m s
  | .irqOasis m => Sys2Proof.Machine.execIrqOasis m s
  | .irqRead m => Sys2Proof.Machine.execIrqRead m s
  | .meterId m portFails => Sys2Proof.Machine.execMeterId m portFails s
  | .meterIntervals m portFails => Sys2Proof.Machine.execMeterIntervals m portFails s
  | .meterCumulative m portFails => Sys2Proof.Machine.execMeterCumulative m portFails s
  | .meterAudit m portFails => Sys2Proof.Machine.execMeterAudit m portFails s
  | .meterStatus m portFails => Sys2Proof.Machine.execMeterStatus m portFails s
  | .meterTimeNote m portFails => Sys2Proof.Machine.execMeterTimeNote m portFails s
  | .meterCloseShort m portFails => Sys2Proof.Machine.execMeterCloseShort m portFails s
  | .meterMarkFailover m portFails => Sys2Proof.Machine.execMeterMarkFailover m portFails s
  | .fwWrite m spi => Sys2Proof.Machine.execFwWrite m spi s
  | .fwVerify m => Sys2Proof.Machine.execFwVerify m s
  | .fwActivate m => Sys2Proof.Machine.execFwActivate m s
  | .fwRollbackCommit m => Sys2Proof.Machine.execFwRollbackCommit m s
  | .fwStatus m => Sys2Proof.Machine.execFwStatus m s
  | .deviceReset m => Sys2Proof.Machine.execDeviceReset m s
  | .deviceStop m => Sys2Proof.Machine.execDeviceStop m s
  | .journalRead m => Sys2Proof.Machine.execJournalRead m s
  | .journalCompact m => Sys2Proof.Machine.execJournalCompact m s
  | .portReset m => Sys2Proof.Machine.execPortReset m s
  | .spdRead m => Sys2Proof.Machine.execSpdRead m s
  | .sensorRead m => Sys2Proof.Machine.execSensorRead m s
  | .eventArrival => Sys2Proof.Machine.execEventArrival s
  | .coalescingTimerExpiry t => Sys2Proof.Machine.execCoalescingTimerExpiry t s
  | .vectorClaim v => Sys2Proof.Machine.execVectorClaim v s
  | .causeRead v => Sys2Proof.Machine.execCauseRead v s
  | .sourceMaskWrite n mask late => Sys2Proof.Machine.execSourceMaskWrite n mask late s
  | .agentTargetDelivery a => Sys2Proof.Machine.execAgentTargetDelivery a s
  | .oasisEvent => Sys2Proof.Machine.execOasisEvent s
  | .oasisWakePowerupEnd => Sys2Proof.Machine.execOasisWakePowerupEnd s
  | .oasisHandover => Sys2Proof.Machine.execOasisHandover s
  | .registerWrite off bytes poisoned => Sys2Proof.Machine.execRegisterWrite off bytes poisoned s
  | .pcrTimeLRead => Sys2Proof.Machine.execPcrTimeLRead s
  | .shadowCapture => Sys2Proof.Machine.execShadowCapture s
  | .pciConfigWrite w => Sys2Proof.Machine.execPciConfigWrite w s
  | .msixTableWrite off bytes => Sys2Proof.Machine.execMsixTableWrite off bytes s
  | .pmeServiceTimeout => Sys2Proof.Machine.execPmeServiceTimeout s
  | .weighbridgePowerLoss => Sys2Proof.Machine.execWeighbridgePowerLoss s
  | .railBackInRange rail => Sys2Proof.Machine.execRailBackInRange rail s
  | .sysClkReturn => Sys2Proof.Machine.execSysClkReturn s
  | .refclkReturn => Sys2Proof.Machine.execRefclkReturn s
  | .jtagDeviceReset => Sys2Proof.Machine.execJtagDeviceReset s
  | .smbusClockLowTimeout => Sys2Proof.Machine.execSmbusClockLowTimeout s
  | .writeDrain ddr ch => Sys2Proof.Machine.execWriteDrain ddr ch s

end Sys2Proof.Machine
end

