-- ==== Sys2Proof/Machine/Frame.lean ====
section
/-! DEFINITION. What a link puts on its lanes: flits framed into codeword pairs, the RS(544,514)
codewords, their interleaving and the deal onto logical lanes (R34, R35, Table 2.2). -/
namespace Sys2Proof.Machine

/-! ## Codeword pairs (R34, Table 2.2) -/

/-- A codeword pair as sent: its header and its five flits. -/
structure TxPair where
  hdr : BitVec 40
  flits : List Flit
  deriving DecidableEq, Repr

/-- The header of the pair with PAIR_CNT `n` modulo 256. -/
def pairHdr (n : Nat) : BitVec 40 := pack 40 [(0, 16, 0x5AC3), (16, 8, n)]

/-- The flits in groups of five, the last one completed with `pad`; `n` counts the pairs. -/
def pairsOf (pad : Flit) : Nat → Nat → List Flit → List TxPair
  | 0, _, _ => []
  | fuel + 1, n, fs =>
    if fs = [] then []
    else
      let g := fs.take 5
      ⟨pairHdr n, g ++ List.replicate (5 - g.length) pad⟩ :: pairsOf pad fuel (n + 1) (fs.drop 5)

/-- The codeword pairs that a link has sent since its port reset.  A transmitter that has nothing to send
completes its pair with NULL flits (R42).  DESIGN CHOICE (log entry 92): PAIR_CNT of the first pair
after a port reset is 0. -/
def Link.txPairs (l : Link) : List TxPair := pairsOf l.nullFlit l.wire.length 0 l.wire

/-- The 10,280 message bits of a pair: the header, then the flits in transmission order. -/
def TxPair.bits (p : TxPair) : Nat :=
  p.hdr.toNat ||| p.flits.zipIdx.foldl (fun acc f => acc ||| (f.1.toNat <<< (40 + 2048 * f.2))) 0

/-! ## RS(544,514) over 10-bit symbols (R34)

PRESUMED (log entry 92): the spec takes the code of IEEE 802.3 Clause 119 by name.  The field is
GF(2^10) with the polynomial x^10 + x^3 + 1, the generator polynomial has the roots 1, α, … α^29,
and the first message symbol is the highest coefficient. -/

/-- A field element times α. -/
def rsDouble (a : Nat) : Nat := if a < 512 then 2 * a else (2 * a) ^^^ 0x409

/-- The product of field elements over the low `n` bits of `b`. -/
def rsMul (a b : Nat) : Nat → Nat
  | 0 => 0
  | n + 1 => (if b.testBit (9 - n) then a else 0) ^^^ rsDouble (rsMul a b n)

/-- The coefficients below the leading one, highest first, of the product of (x + α^j), j < n. -/
def rsGen : Nat → List Nat
  | 0 => []
  | n + 1 =>
    let p := rsGen n
    let r := Nat.repeat rsDouble n 1
    List.zipWith (fun x y => x ^^^ rsMul r y 10) (p ++ [0]) (1 :: p)

/-- One message symbol enters the division register. -/
def rsShift (gen reg : List Nat) (s : Nat) : List Nat :=
  let fb := s ^^^ reg.headD 0
  List.zipWith (fun x g => x ^^^ rsMul fb g 10) (reg.drop 1 ++ [0]) gen

/-- The 30 parity symbols of a list of message symbols. -/
def rsParity (msg : List Nat) : List Nat :=
  msg.foldl (rsShift (rsGen 30)) (List.replicate 30 0)

/-- `n` symbols of a bit string, least significant bit first. -/
def symbolsOf (x n : Nat) : List Nat := (List.range n).map (fun i => bitsOf x (10 * i) 10)

/-- Codeword A (0) or B (1) of a pair: 514 message symbols, then 30 parity symbols. -/
def TxPair.codeword (p : TxPair) (h : Nat) : List Nat :=
  let msg := symbolsOf (p.bits >>> (5140 * h)) 514
  msg ++ rsParity msg

/-! ## Interleaving and lanes (R35) -/

/-- The symbols of a pair as sent: A0, B0, A1, B1, …, A543, B543. -/
def TxPair.symbols (p : TxPair) : List Nat :=
  (List.zipWith (fun a b => [a, b]) (p.codeword 0) (p.codeword 1)).flatten

/-- The symbols that logical lane `k` of `n` lanes carries. -/
def dealt (n k : Nat) (sy : List Nat) : List Nat :=
  (sy.zipIdx.filter (fun x => x.2 % n = k)).map (·.1)

/-- Logical lanes of a link: eight, or four on a half or a degraded link. -/
def Link.lanes (l : Link) : Nat := if l.width = 0 then 8 else 4

/-- What logical lane `k` of link `l` carries of a pair. -/
def Link.lane (l : Link) (k : Nat) (p : TxPair) : List Nat := dealt l.lanes k p.symbols

end Sys2Proof.Machine
end

