-- ==== Sys2Proof/Safety.lean ====
section
/-! DEFINITION. The words in which statements speak of the machine: when a command is served, what its
completion leaves, which parts of the device a command left alone, and what stays in bounds. -/
namespace Sys2Proof.Machine

/-! ## Commands of the mailboxes -/

/-- Mailbox `m` holds the command `op`, taken and free to begin; the Steward serves its class, its journal has
room for what changes state, and no internal fault, restart or PCI Express reset met it (R424, R427 to R429,
R435, R439, R440). -/
def State.serves (s : State) (m op : Nat) : Bool :=
  s.ready m op && s.notServed op = 0
    && (cmdKind op = some .q || ¬ s.stw.jrnl.full || op / 256 = 0x0A)
    && (s.stw.mb m).faults = 0 && ¬ (s.stw.mb m).rerun && ¬ (s.stw.mb m).discard

/-- Mailbox `m` has become DONE with a status and a response, and no other mailbox has changed (R421, R422). -/
def State.Answered (s t : State) (m status : Nat) (resp : List Nat) : Prop :=
  t.stw.mb m = { (s.stw.mb m).respond m status resp with st := .done } ∧ ∀ k, k ≠ m → t.stw.mb k = s.stw.mb k

/-- What a completion signals: source 200 + m of a host mailbox is asserted, SMBALERT_N of the SMBus mailbox is
driven low (R422, R431). -/
def State.Signalled (s t : State) (m : Nat) : Prop :=
  if m = 16 then t.fab = s.fab ∧ t.stw.smbAlert = true else t.fab = s.fab.level (200 + m) true

/-- Nothing but the mailbox, its signal and the queues of commands has changed. -/
def State.OnlyAnswered (s t : State) (m status : Nat) (resp : List Nat) : Prop :=
  s.Answered t m status resp ∧ s.Signalled t m ∧ t.pending = s.pending ∧ t.cfg = s.cfg ∧ t.irq = s.irq ∧ t.pcr = s.pcr ∧
    t.wgb = s.wgb ∧ t.stw.jrnl = s.stw.jrnl ∧ t.stw.staged = s.stw.staged ∧ t.stw.step = s.stw.step ∧
    t.stw.slots = s.stw.slots

/-- A state-changing command whose effect is `u` has completed in `t`: its commit record, its answer and its
signal, and nothing else (R422, R428). -/
def State.Committed (u t : State) (m status : Nat) (resp : List Nat) : Prop :=
  u.Answered t m status resp ∧ u.Signalled t m ∧ t.pending = u.pending ∧ t.cfg = u.cfg ∧ t.irq = u.irq ∧ t.pcr = u.pcr ∧
    t.wgb = u.wgb ∧ t.stw.staged = u.stw.staged ∧ t.stw.step = u.stw.step ∧ t.stw.slots = u.stw.slots ∧
    t.stw.jrnl = (u.stw.log 0x20 m (commitBody (u.stw.mb m) m status resp)).jrnl

/-- Between two states only the fabric, the Steward and the endpoint differ. -/
def State.SameRest (s t : State) : Prop :=
  t.pending = s.pending ∧ t.cfg = s.cfg ∧ t.pcr = s.pcr ∧ t.wgb = s.wgb ∧ t.irq = s.irq

/-! ## The fabric -/

/-- The state after a command whose effect on `s` is `u`: what the control side does at once has been done (a
twin link newly fenced, a pair newly in FAILOVER, departed agents, the journal's entries, long commands whose
wait is over, drains of the Steward's own). -/
def State.followed (s u : State) : State := u.finish s.fab.tlink.st s.fab.twin.pair

/-- The state after a command of the fabric that leaves the fabric `f`. -/
def State.after (s : State) (f : Fabric) : State := s.followed { s with fab := f }

/-- The control side has nothing to do about the fabric `f`. -/
def State.settled (s : State) (f : Fabric) : Bool :=
  decide (f.tlink.st = .fenced → s.fab.tlink.st = .fenced) && decide (f.twin.pair = .failover → s.fab.twin.pair = .failover)
    && f.agentDrops = [] && s.wgb.raised = [] && f.jreq = [] && f.gln.elogOut = [] && s.stw.longs = []
    && ¬ f.gln.storeUnusable.any s.cfg.cacheEn && ¬ f.twin.wantDrain

/-! ## Messages of agents -/

/-- The command that delivers a request or eviction of an opcode. -/
def requestOf (o : Op) (a : Nat) (hdr : Slot) (data : Line) (be : BitVec 64) (opnd : Slot) (more : Bool) : Option Instr :=
  match o with
  | .rdShared => some (.rdshared a hdr more)
  | .rdOwn => some (.rdown a hdr more)
  | .rdOnce => some (.rdonce a hdr more)
  | .upgrade => some (.upgrade a hdr more)
  | .wrInvFull => some (.wrinvfull a hdr data more)
  | .wrPartial => some (.wrpartial a hdr data be more)
  | .rdUncached => some (.rduncached a hdr more)
  | .wrUncached => some (.wruncached a hdr data more)
  | .ldResv => some (.ldresv a hdr more)
  | .stCond => some (.stcond a hdr opnd more)
  | .atomic => some (.atomic a hdr opnd more)
  | .cBar => some (.cbar a hdr more)
  | .resvClear => some (.resvclear a hdr more)
  | .svcReq => some (.svcreq a hdr data more)
  | .wbDirty => some (.wbdirty a hdr data more)
  | .wbOwned => some (.wbowned a hdr data more)
  | .evictClean => some (.evictclean a hdr more)
  | _ => none

/-- The command that delivers a snoop response of an opcode. -/
def responseOf (o : Op) (a : Nat) (hdr : Slot) : Option Instr :=
  match o with
  | .rspI => some (.rspi a hdr)
  | .rspS => some (.rsps a hdr)
  | .rspFwd => some (.rspfwd a hdr)
  | .rspWbCrossed => some (.rspwbcrossed a hdr)
  | _ => none

/-- A message of agent `a` reaches the crossbar: its port has power, its link is Active with an admitted agent,
and agent requests are taken (R286). -/
def State.linkUp (s : State) (a : Nat) : Bool := decide (a < 32) && s.linkOn a && s.fab.linkUp a

/-- A message that the link layer has not delivered yet has a TXID that is not live (R74). -/
def State.newTxid (s : State) (a : Nat) (hdr : Slot) : Bool :=
  (s.fab.link a).rxq.any (fun x => x.hdr = hdr) || ¬ (s.fab.link a).isLive (hTxid hdr)

/-- A message may act at once: none of its class came before it, or it is the oldest in the receive buffer
(R45), and no tracker that it needs is lacking (R26). -/
def State.first (s : State) (a : Nat) (o : Op) (m : Msg) : Bool :=
  let q := (s.fab.link a).ofClass o.cls
  (q = [] || q.head? = some m) && ¬ s.fab.mustWait a o m.hdr

/-- The port holds no request back (R26, R328). -/
def State.portClear (s : State) : Bool := s.fab.draining || s.fab.portHeld = []

/-- The device is the one home of every line: it is no part of a pair (Table 13.3). -/
def Fabric.alone (f : Fabric) : Bool :=
  f.twin.pair = .single && f.txns.all (fun t => match t.who with | .reconcile _ _ => false | _ => true)

/-- The message has left the receive buffer, where it lay there (R46). -/
def Fabric.taken (f : Fabric) (a : Nat) (hdr : Slot) : Fabric :=
  if (f.link a).rxq.any (fun x => x.hdr = hdr) then f.consume a hdr else f

/-- A request or eviction is delivered: its TXID is live, and a REQ holds a port request tracker (R26, R74). -/
def Fabric.begun (f : Fabric) (a : Nat) (o : Op) (hdr : Slot) : Fabric :=
  let g := if (f.link a).rxq.any (fun x => x.hdr = hdr) then f.consume a hdr
    else f.setLink a { f.link a with live := (f.link a).live ++ [hTxid hdr] }
  if o.cls = clsREQ then g.setLink a { g.link a with trk := (g.link a).trk ++ [hTxid hdr] } else g

/-- What a response lets go on goes on: held evictions, ordering units, the twin pair. -/
def Fabric.goesOn (cfg : Cfg) (f : Fabric) : Fabric := ((f.meetCrossings cfg).ordAll cfg).twinProgress cfg

/-! ## What stays in bounds -/

/-- Every count of the interrupt controller and of Oasis fits its field (Tables 17.5 to 17.10), and no claim list
names a source that does not exist. -/
def Irq.Bounded (q : Irq) : Prop :=
  (∀ n, (q.source n).count ≤ 4095) ∧ (∀ o ∈ q.old, o.2.2 ≤ 4095) ∧ (∀ p ∈ q.latch, p.2 ≤ 4095) ∧
    (∀ v, ∀ e ∈ vget q.claims [] v, e.count ≤ 4095 ∧ e.source < 256) ∧
    q.spurious ≤ 65535 ∧ q.lost ≤ 65535 ∧ q.agentDrop ≤ 255 ∧ q.maskLate ≤ 255 ∧ q.wakes ≤ 255

/-- What the seal fixes in the Weighbridge: its parameters and its identity (R397). -/
def Wgb.SealKept (w v : Wgb) : Prop :=
  v.sealed = true ∧ v.len = w.len ∧ v.serial = w.serial ∧ v.patch = w.patch ∧ v.sealDate = w.sealDate ∧
    v.officer = w.officer

/-- The commands at which the applied configuration may change: a drain at its sub-steps 7d (4) and, where the pair
disagrees, 7f (6); a register write while the blocks are disabled; start-up at its steps 4 and 7 (R331, R332, R531). -/
def State.configures (s : State) (c : Instr) : Bool :=
  match c with
  | .drainSubstepEnd _ _ _ => s.stw.up && s.stw.step = 7 && (s.stw.sub = 4 || s.stw.sub = 6)
  | .registerWrite _ _ _ => s.stw.disabled
  | .startupStepEnd => s.pcr.startup = 4 || s.pcr.startup = 7
  | _ => false

end Sys2Proof.Machine
end

