-- ==== Sys2Proof/Certificates/Slice0/Obligations.lean ====
section
/-! DEFINITION. The statements about the model, one for each entry of OBLIGATIONS.json. -/
open Sys2Proof Sys2Proof.Machine
set_option Elab.async false

/-- A step is exec of the command at the front of the queue; an empty queue idles. (95_what_each_step_holds.md). The
idle step is a choice of the model (log entry 1). -/
def Obligations.StepRunsTheFrontCommand : Prop :=
  (∀ (s : State) (c : Instr) (rest : List Instr),
     step { s with pending := c :: rest } = exec c { s with pending := rest }) ∧
  (∀ s : State, s.pending = [] → step s = .next s)

/-- What State.reset holds: the power-on values of every configuration register, no routes, nothing in flight. (R336,
R477, R508, R531). The tables of the registers give the values. What memory reads as at reset is a choice of the model
(log entry 7). -/
def Obligations.ResetLeavesTheResetValues : Prop :=
  let s := State.reset
  s.pending = [] ∧ s.irq.Bounded ∧ s.pcr.porst = true ∧ s.stw.up = false ∧ s.fab.accepting = false ∧
    (∀ n, n < 16 → s.live (0x40 * n) = 0x00AF0011) ∧ s.live 0x1000 = 3 ∧ s.live 0x2000 = 0x03C83228 ∧
    (∀ i, i < 8 → s.live (0x3000 + 0x10 * i) = 0x0014007D ∧ s.live (0x5000 + 0x20 * i) = 0x00140070) ∧
    (∀ p, p < 16 → s.live (0x5100 + 4 * p) = 0x3FF) ∧
    (∀ n k, n < 64 → k < 6 → s.live (0x6000 + 0x20 * n + 4 * k) = 0) ∧
    s.live 0x7000 = 0xC0A06045 ∧ s.live 0x9000 = 0x3040 ∧ (∀ a, a < 32 → s.live (0x9100 + 4 * a) = 0x09EE) ∧
    s.live 0xA000 = 0x00103019 ∧ (∀ n, n < 256 → (s.irq.source n).target = 0xFF ∧ (s.irq.source n).count = 0) ∧
    s.fab.links.toList.all (fun l => l.rxq = []) = true ∧ s.fab.cache.sectors = [] ∧ s.fab.gran.entries = [] ∧
    Memory.wf s.fab.mem = true

/-- Each of the twenty queries it names answers with what its table gives and changes nothing else. (R439, R445, R449,
R421). -/
def Obligations.QueriesOnlyAnswer : Prop :=
  (∀ (s : State) (m : Nat), let t := s.fab.twin
     (s.serves m 0x0101 → ∃ u, exec (.idGet m) s = .next u ∧ s.OnlyAnswered u m 0
       ([0x41, 0x32, 0, 0] ++ leBytes s.stw.version 4 ++ leBytes s.fab.uid.toNat 8 ++ leBytes s.fab.epoch 4 ++
         [if t.role = 1 then 1 else if t.role = 2 then 2 else 0, b2n s.stw.safe, s.stw.bootWord % 256, 0] ++
         leBytes s.pcr.bring.cap 4 ++ [s.cfg.coberGib, b2n (s.cfg.cacheEn 0), 0, 0] ++
         leBytes (maskOf ((List.range 32).map (fun a => decide ((s.fab.link a).st = .active)))) 4 ++
         leBytes (maskOf (s.fab.gran.slots.toList.map (fun c => c.agent.isSome))) 2 ++ List.replicate 26 0)) ∧
     (s.serves m 0x0102 → ∃ u, exec (.idAgents m) s = .next u ∧ s.OnlyAnswered u m 0 ((List.range 32).flatMap (fun a =>
       let l := s.fab.link a
       match l.decl with
       | none => [l.st.code] ++ List.replicate 31 0
       | some d => [l.st.code, dclKind d, dclSets d, dclWays d, l.slot.getD 0xFF, l.rate.toNat + 4 * l.width.toNat] ++
           leBytes (dclField d 32 2) 2 ++ leBytes (dclUid d) 8 ++ leBytes (dclField d 34 2) 2 ++
           [dclField d 36 1 % 2, 0] ++ leBytes (dclMaxOut d) 2 ++ List.replicate 10 0))) ∧
     (s.serves m 0x0205 → ∃ u, exec (.cfgCheck m) s = .next u ∧
       s.OnlyAnswered u m 0 (leBytes s.checks.1 2 ++ [s.checks.2] ++ [0, 0, 0, 0, 0])) ∧
     (s.serves m 0x0206 → ∃ u, exec (.cfgDigest m) s = .next u ∧
       s.OnlyAnswered u m 0 (leBytes s.stw.staged.digest.toNat 48 ++ s.stw.jrnl.appliedDigest)) ∧
     (s.serves m 0x0207 → ∃ u, exec (.epochStatus m) s = .next u ∧
       s.OnlyAnswered u m 0 (leBytes s.fab.epoch 4 ++
         leBytes (word32 [(0, 4, s.stw.step), (4, 3, s.stw.sub), (7, 1, b2n s.stw.preclean), (16, 8, s.stw.resumed)]) 4 ++
         leBytes s.stw.lastTag 2 ++ [s.stw.lastMb, 0] ++ leBytes s.stw.lastStatus 2 ++ [0, 0] ++ leBytes s.stw.lastEpoch 4 ++
         leBytes s.stw.abandoned 4)) ∧
     (s.serves m 0x0403 → ∃ u resp, exec (.cacheStatus m) s = .next u ∧ s.OnlyAnswered u m 0 resp ∧ resp.length = 192 ∧
       resp = (List.range 8).flatMap (fun i =>
         leBytes (word32 [(0, 22, s.fab.cache.sectorCount i)]) 4 ++ leBytes (word32 [(0, 28, s.fab.cache.dirtyCount s.cfg i)]) 4 ++
         leBytes (word32 [(0, 22, s.fab.cache.lockCount i)]) 4 ++
         leBytes (s.fab.cache.cober.filter (fun p => p.2.lock && p.1 / 16 / 2 ^ s.cfg.coberM = i)).length 4 ++
         leBytes (vget s.fab.sstat SliceStat.zero i).noalloc.toNat 4 ++ leBytes (vget s.fab.sstat SliceStat.zero i).pinWait.toNat 4)) ∧
     (s.serves m 0x0702 → ∃ u resp, exec (.twinStatus m) s = .next u ∧ s.OnlyAnswered u m 0 resp ∧ resp.length = 48 ∧
       resp.take 16 =
         leBytes (word32 [(0, 3, t.pair.code), (3, 2, t.role.toNat), (5, 4, s.fab.tlink.st.code), (9, 2, t.witness.toNat),
           (11, 1, b2n t.strap), (12, 1, b2n t.disagree), (13, 4, t.disCode.toNat), (17, 1, b2n t.timeStep)]) 4 ++
         leBytes (word32 [(0, 13, t.outstanding.length), (13, 13, t.backlog.length)]) 4 ++
         leBytes (word32 [(0, 16, t.dedupHits.toNat), (16, 8, t.failovers.toNat), (24, 8, t.voided.toNat)]) 4 ++
         leBytes (word32 [(0, 7, t.percent.toNat), (7, 1, b2n t.full)]) 4 ∧
       (resp.drop 16).take 16 = (match t.partner with
         | some h => leBytes h.uid.toNat 8 ++ leBytes (packNat [(0, 16, h.fwPatch), (16, 8, h.fwMinor), (24, 8, h.fwMajor)]) 4 ++
             leBytes h.epoch 4
         | none => List.replicate 16 0) ∧
       resp.drop 32 = leBytes t.lastGood.toNat 8 ++ List.replicate 8 0) ∧
     (s.serves m 0x0804 → ∃ u resp, exec (.irqRead m) s = .next u ∧ s.OnlyAnswered u m 0 resp ∧ resp.length = 1832 ∧
       resp = (List.range 256).flatMap (fun n => [n, (s.irq.source n).target.toNat, 0, 0]) ++
         (List.range 96).flatMap (fun k => leBytes (s.irq.coalOf k).ct 2 ++ [0, 0] ++ leBytes (s.irq.coalOf k).tt 4) ++
         [(s.irq.list.take 32).length] ++ List.replicate 7 0 ++ s.irq.list.take 32 ++
         List.replicate (32 - (s.irq.list.take 32).length) 0) ∧
     (s.serves m 0x0A05 → ∃ u, exec (.fwStatus m) s = .next u ∧ s.OnlyAnswered u m 0
       ([0, 1].flatMap (fun k => let x := s.slot k
         [match x.verified with | none => 0 | some 0 => 1 | some _ => 2, x.lastResult, 0, 0] ++ leBytes x.version 4 ++
           leBytes x.imgRollback 1 ++ List.replicate 7 0) ++ leBytes s.stw.bootWord 4 ++ List.replicate 12 0)) ∧
     (s.serves m 0x0B03 → ∃ u resp, exec (.sensorRead m) s = .next u ∧ s.OnlyAnswered u m 0 resp ∧ resp.length = 48 ∧
       resp = s.pcr.bring.hbc.toList.map (fun h => h.temp) ++ s.pcr.bring.dimm.toList ++ s.pcr.bring.die.toList ++ [0, 0, 0, 0] ++
         leBytes s.pcr.bring.current 2 ++ leBytes s.pcr.bring.power 2 ++ [0, 0, 0, 0])) ∧
  (∀ (s : State) (m : Nat), let b := s.stw.mb m
     (s.serves m 0x0301 → b.pay 0 8 < 2 ^ 52 → ∃ t, exec (.regionLookup m) s = .next t ∧ s.OnlyAnswered t m 0 (
        let la : LAddr := BitVec.ofNat 46 (b.pay 0 8 / 64)
        (match s.cfg.regionOf la with
          | some r => [r.idx, r.typ.code, r.tenant, r.part, sliceOf la, b2n r.line + 2 * b2n r.meter]
          | none => [0xFF, 0, 0, 0, sliceOf la, 0]) ++ [b2n (¬ s.fab.activeHome la), 0] ++
        (match s.cfg.regionOf la with
          | some r => leBytes (r.backLine la * 64 + b.pay 0 8 % 64) 8 ++ leBytes (setOf la) 4 ++
              [ddrChan (r.backLine la), b2n (s.fab.mem.marked (backPage (r.backLine la))), 0, 0] ++ leBytes (localPage (r.backLine la)) 8
          | none => leBytes 0 8 ++ leBytes (setOf la) 4 ++ [0, 0, 0, 0] ++ leBytes 0 8) ++ List.replicate 8 0)) ∧
     (s.serves m 0x0302 → b.clean [(3, 5)] = true → b.pay 0 1 ≤ 1 → b.pay 1 1 + b.pay 2 1 ≤ 64 → 1 ≤ b.pay 2 1 →
       ∃ t, exec (.regionRead m) s = .next t ∧ s.OnlyAnswered t m 0 ((List.range (b.pay 2 1)).flatMap (fun i =>
         (List.range 6).flatMap (fun k => leBytes ((vget (if b.pay 0 1 = 0 then s.stw.staged else s.cfg).rgn RgnWords.zero
           (b.pay 1 1 + i)).word k).toNat 4)))) ∧
     (s.serves m 0x0303 → b.clean [(1, 3), (6, 2)] = true → 1 ≤ b.pay 4 2 → b.pay 0 1 + b.pay 4 2 ≤ 256 →
       ∃ t, exec (.tenantRead m) s = .next t ∧
         s.OnlyAnswered t m 0 ((List.range (b.pay 4 2)).flatMap (fun i => let tn := b.pay 0 1 + i
            leBytes (maskOf ((List.range 64).map (fun n => (vget s.cfg.rgn RgnWords.zero n).en &&
              decide (((vget s.cfg.rgn RgnWords.zero n).region n).tenant = tn)))) 8 ++
            leBytes (s.fab.cache.sectors.filter (fun p => ¬ p.2.stby && p.2.tenant.toNat = tn)).length 4 ++
            leBytes (s.fab.cache.cober.filter (fun p => p.2.v && p.2.tenant.toNat = tn)).length 4))) ∧
     (s.serves m 0x0404 → b.clean [(6, 2)] = true → b.pay 5 1 = 0 → b.pay 0 4 < 2 ^ 21 → b.pay 4 1 < 10 →
       ∃ t, exec (.cacheTagRead m) s = .next t ∧
         s.OnlyAnswered t m 0 (leBytes (s.fab.cache.sectorEntry (b.pay 0 4) (b.pay 4 1)) 32)) ∧
     (s.serves m 0x0404 → b.clean [(6, 2)] = true → b.pay 5 1 = 1 → s.cfg.coberGib ≠ 0 → b.pay 0 4 < 8 * 2 ^ s.cfg.coberM →
       b.pay 4 1 < s.cfg.coberWays →
       ∃ t, exec (.cacheTagRead m) s = .next t ∧
         s.OnlyAnswered t m 0 (leBytes (s.fab.cache.lineTag (b.pay 0 4) (b.pay 4 1)) 8)) ∧
     (s.serves m 0x0502 → b.clean [(4, 4)] = true →
       ∃ t, exec (.harrowQuery m) s = .next t ∧ s.OnlyAnswered t m 0 (s.fab.ticketBytes (b.pay 0 4))) ∧
     (s.serves m 0x0601 → b.clean [(1, 7)] = true → b.pay 0 1 ≤ 9 →
       ∃ t, exec (.ceRead m) s = .next t ∧
         s.OnlyAnswered t m 0 (let l := (vget s.fab.gln.blks GlnBlk.zero (b.pay 0 1)).table.take 64
           l.flatMap (fun e => leBytes e.loc 6 ++ [e.sym, e.count] ++ leBytes e.first 4 ++ leBytes e.last 4) ++ List.replicate (16 * (64 - l.length)) 0)) ∧
     (s.serves m 0x0603 → b.clean [(6, 2)] = true → 1 ≤ b.pay 4 2 → b.pay 4 2 ≤ 1024 →
       ∃ t, exec (.elogRead m) s = .next t ∧
         s.OnlyAnswered t m 0 (((s.stw.jrnl.elogs.filter (fun e => decide (b.pay 0 4 ≤ e.jseq))).take (b.pay 4 2)).flatMap
           (fun e => leBytes e.jseq 4 ++ e.body.take 16))) ∧
     (s.serves m 0x0607 → b.clean [(6, 2)] = true → 1 ≤ b.pay 4 2 → b.pay 4 2 ≤ 2047 →
       ∃ t, exec (.repairList m) s = .next t ∧
         s.OnlyAnswered t m 0 (let l := ((s.fab.gln.recorded.zipIdx).drop (b.pay 0 4)).take (b.pay 4 2)
           leBytes (s.glnReg 0xC) 4 ++ leBytes l.length 4 ++ l.flatMap (fun p => s.repairEntry p.2 p.1))) ∧
     (s.serves m 0x0A08 → b.clean [(6, 2)] = true → 1 ≤ b.pay 4 2 → b.pay 4 2 ≤ 511 → b.pay 0 4 ≠ 0 →
       ∃ t, exec (.journalRead m) s = .next t ∧
         s.OnlyAnswered t m 0 (
           let l := wholeEntries (b.pay 4 2) (s.stw.jrnl.entries.filter (fun e => b.pay 0 4 ≤ e.jseq))
           leBytes s.stw.jrnl.segSeq 4 ++ leBytes (recCount l) 2 ++ [0, 0] ++ l.flatMap (fun e => e.records.flatMap id))) ∧
     (∀ spd, s.serves m 0x0B02 → b.clean [(6, 2)] = true → b.pay 0 1 ≤ 11 → b.pay 1 1 ≤ 1 →
       vget s.pcr.bring.spd none (2 * b.pay 0 1 + b.pay 1 1) = some spd → 1 ≤ b.pay 4 2 → b.pay 2 2 + b.pay 4 2 ≤ 1024 →
       ∃ t, exec (.spdRead m) s = .next t ∧
         s.OnlyAnswered t m 0 ((List.range (b.pay 4 2)).map (fun i => spd.getD (b.pay 2 2 + i) 0))))

/-- GO, ACK and buffer writes act by the state of the mailbox they name. (R418, R420, R422, R423). -/
def Obligations.DoorbellsMoveMailboxes : Prop :=
  (∀ (s : State) (m : Nat) (same : Bool), s.mmio = true → m < 16 →
     ((s.stw.mb m).st = .idle → ∃ t, exec (.mailboxGo m same) s = .next t ∧
       (t.stw.mb m).st = .busy ∧ (t.stw.mb m).phase = .bell ∧ (t.stw.mb m).buf = (s.stw.mb m).buf ∧
       (t.stw.mb m).dbViol = (s.stw.mb m).dbViol ∧
       (∃ k, (k, m) ∈ t.stw.bells ∧ k = if same then s.stw.batch else s.stw.batch + 1) ∧
       (∀ k, k ≠ m → t.stw.mb k = s.stw.mb k) ∧ t.fab = s.fab ∧ t.cfg = s.cfg ∧ t.irq = s.irq ∧ t.stw.jrnl = s.stw.jrnl) ∧
     ((s.stw.mb m).st ≠ .idle → ∃ t, exec (.mailboxGo m same) s = .next t ∧
       t.stw.mb m = { s.stw.mb m with dbViol := true } ∧ (∀ k, k ≠ m → t.stw.mb k = s.stw.mb k) ∧
       t.stw.bells = s.stw.bells ∧ t.fab = s.fab) ∧
     ((s.stw.mb m).st = .done → ∃ t, exec (.mailboxAck m) s = .next t ∧
       t.stw.mb m = { s.stw.mb m with st := .idle } ∧ (∀ k, k ≠ m → t.stw.mb k = s.stw.mb k) ∧
       t.fab = s.fab.level (200 + m) false ∧ t.cfg = s.cfg ∧ t.irq = s.irq ∧ t.stw.jrnl = s.stw.jrnl) ∧
     ((s.stw.mb m).st ≠ .done → ∃ t, exec (.mailboxAck m) s = .next t ∧
       t.stw.mb m = { s.stw.mb m with dbViol := true } ∧ (∀ k, k ≠ m → t.stw.mb k = s.stw.mb k) ∧ t.fab = s.fab)) ∧
  (∀ (s : State) (m off : Nat) (bytes : List (Option Nat)), s.mmio = true → m < 16 → off < 0x10000 →
     off % 4 = 0 → bytes.length % 4 = 0 → 4 ≤ bytes.length → off % 64 + bytes.length ≤ 64 →
     ∃ t, exec (.mailboxBufferWrite m off bytes false) s = .next t ∧
       exec (.registerWrite (0x100000 + 0x10000 * m + off) bytes false) s = .next t ∧
       (∀ k, k ≠ m → t.stw.mb k = s.stw.mb k) ∧ t.fab = s.fab ∧ t.cfg = s.cfg ∧ t.irq = s.irq ∧ t.pci = s.pci ∧
       (if off < 0x8000 ∧ (s.stw.mb m).st = .idle then
         (t.stw.mb m).st = .idle ∧ (t.stw.mb m).bufViol = (s.stw.mb m).bufViol ∧
         (∀ i, (t.stw.mb m).byte i =
           match bytes[i - off]? with
           | some (some x) => if off ≤ i then x % 256 else (s.stw.mb m).byte i
           | _ => (s.stw.mb m).byte i)
       else t.stw.mb m = { s.stw.mb m with bufViol := true }))

/-- Taking a command checks its header and the Steward's state, then queues it by its kind. (R424, R440, R441). That a
refused header writes no commit record is log entry 66. -/
def Obligations.TakenCommandsAreCheckedThenQueued : Prop :=
  ∀ (s : State) (k m faults : Nat) (rest : List (Nat × Nat)), s.stw.up = true → s.stw.bells = (k, m) :: rest → m < 17 →
    (∀ x ∈ rest, x.2 ≠ m) → (s.stw.mb m).discard = false →
    let b := s.stw.mb m
    let taken := { b with phase := .taken, faults := faults, tag := b.cmdTag }
    ∃ t, exec (.commandTake faults) s = .next t ∧ t.stw.bells = rest ∧ t.cfg = s.cfg ∧ t.irq = s.irq ∧ t.pcr = s.pcr ∧
      (∀ j, j ≠ m → t.stw.mb j = s.stw.mb j) ∧ t.stw.jrnl = s.stw.jrnl ∧ t.stw.staged = s.stw.staged ∧
      (match cmdKind b.opcode with
      | none => t.stw.mb m = { taken.respond m 0x01F0 [] with st := .done }
      | some kind =>
        if lengthOk m b.opcode b = false then t.stw.mb m = { taken.respond m 0x01F1 [] with st := .done }
        else if b.opcode / 256 ≠ 1 ∧ b.opcode / 256 ≠ 0x0A ∧ s.stw.safe = true then
          t.stw.mb m = { taken.respond m 0x02F0 [] with st := .done }
        else if b.opcode / 256 ≠ 1 ∧ b.opcode / 256 ≠ 0x0A ∧ s.pcr.byStop = true then
          t.stw.mb m = { taken.respond m 0x02F2 [] with st := .done }
        else t.stw.mb m = taken ∧ t.fab = s.fab ∧
          t.stw.sq = s.stw.sq ++ (if kind = .s then [m] else []) ∧ t.stw.uq = s.stw.uq ++ (if kind = .u then [m] else []))

/-- The SMBus transactions move the offset, the buffer and the state of mailbox 16. (R430, R431, R422). The end of the
buffer and the clock-low time-out follow log entry 74. -/
def Obligations.SmbusMailboxTransactions : Prop :=
  ∀ s : State, s.on 28 = true → let b := s.stw.mb 16
    (∃ t, exec .smbusStatusRead s = .next t ∧ t.pci.answer = leBytes b.status 4 ∧ t.stw = s.stw ∧ t.fab = s.fab) ∧
    (∀ off, off < 8192 → ∃ t, exec (.smbusSetOffset off true) s = .next t ∧ t.stw = { s.stw with smbOffset := off } ∧ t.fab = s.fab) ∧
    (∀ bytes : List Nat, 1 ≤ bytes.length → bytes.length ≤ 255 → s.stw.smbOffset + bytes.length ≤ 0x1000 → b.st = .idle →
      ∃ t, exec (.smbusBlockWrite bytes true) s = .next t ∧ t.stw.smbOffset = s.stw.smbOffset + bytes.length ∧
        (∀ i, (t.stw.mb 16).byte i = if s.stw.smbOffset ≤ i ∧ i < s.stw.smbOffset + bytes.length
          then bytes.getD (i - s.stw.smbOffset) 0 % 256 else b.byte i) ∧
        (t.stw.mb 16).bufViol = b.bufViol ∧ t.fab = s.fab) ∧
    (∀ bytes : List Nat, 1 ≤ bytes.length → bytes.length ≤ 255 → s.stw.smbOffset < 0x2000 →
      (b.st ≠ .idle ∨ 0x1000 ≤ s.stw.smbOffset) →
      ∃ t, exec (.smbusBlockWrite bytes true) s = .next t ∧ t.stw.smbOffset = min 0x2000 (s.stw.smbOffset + bytes.length) ∧
        (t.stw.mb 16).buf = b.buf ∧ (t.stw.mb 16).bufViol = true ∧ t.fab = s.fab) ∧
    (∀ n, n ≤ 255 → s.stw.smbOffset + n ≤ 0x2000 → ∃ t, exec (.smbusBlockRead n) s = .next t ∧
      t.pci.answer = (List.range n).map (fun i => b.byte (s.stw.smbOffset + i)) ∧
      t.stw = { s.stw with smbOffset := s.stw.smbOffset + n }) ∧
    (∀ same, b.st = .idle → ∃ t, exec (.smbusGo same true) s = .next t ∧ (t.stw.mb 16).st = .busy ∧
      (∃ k, (k, 16) ∈ t.stw.bells) ∧ (t.stw.mb 16).buf = b.buf ∧ t.fab = s.fab) ∧
    (b.st = .done → ∃ t, exec (.smbusAck true) s = .next t ∧ (t.stw.mb 16).st = .idle ∧ t.stw.smbAlert = false ∧ t.fab = s.fab) ∧
    (∃ t, exec .smbusAlertResponse s = .next t ∧ t.stw = { s.stw with smbAlert := false } ∧ t.fab = s.fab) ∧
    (∀ same, exec (.smbusGo same false) s = .next s) ∧ (∀ off, exec (.smbusSetOffset off false) s = .next s) ∧
    (∀ bytes, exec (.smbusBlockWrite bytes false) s = .next s) ∧ exec (.smbusAck false) s = .next s ∧
    exec .smbusClockLowTimeout s = .next s

/-- Each event adds 1 to its source's COUNT, which saturates at 4,095; targets are encoded as the interrupt commands
give. (R477). -/
def Obligations.EventsAreCountedAtTheController : Prop :=
  (∀ v, v < 0x40 → targetNo v = some v) ∧ (∀ a, a < 32 → targetNo (0x80 + a) = some (64 + a)) ∧ targetNo 0xFF = none ∧
  (∀ n, n < 256 → (State.reset.irq.source n).target = 0xFF) ∧
  (∀ x : Src, x.pending = true ↔ x.count ≠ 0 ∧ x.mask = false ∧ x.target ≠ 0xFF) ∧
  ∀ (s : State) (n : Nat) (rest : List (Nat × Nat)), n < 256 → s.on 9 = true → s.irq.oasisOn = false →
    let x := s.irq.source n
    let after := fun (kind : Nat) (y : Src) => s.fab.raised = (n, kind) :: rest →
      ∃ t, exec .eventArrival s = .next t ∧ t.fab = { s.fab with raised := rest } ∧ t.irq.source n = y ∧
        (∀ k, k ≠ n → t.irq.source k = s.irq.source k) ∧ t.irq.claims = s.irq.claims ∧ t.cfg = s.cfg ∧ t.stw = s.stw
    after 0 { x with count := min 4095 (x.count + 1) } ∧
    (x.asserted = false → after 1 { x with asserted := true, count := min 4095 (x.count + 1) }) ∧
    (x.asserted = true → after 1 x) ∧
    after 2 { x with asserted := false }

/-- A coalescing timer that has run TT always-on cycles makes its target due. (R479). An event whose condition does
not hold leaves the state unchanged (log entry 3). -/
def Obligations.TimersMakeTargetsDue : Prop :=
  ∀ (s : State) (k : Nat), k < 96 →
    (∀ x, (s.irq.coalOf k).start = some x → x + (s.irq.coalOf k).tt ≤ s.pcr.aon → 0 < s.irq.acc k →
      ∃ t, exec (.coalescingTimerExpiry k) s = .next t ∧
        t.irq = { s.irq with coal := vset s.irq.coal k { s.irq.coalOf k with start := none, due := true } } ∧
        t.fab = s.fab ∧ t.cfg = s.cfg ∧ t.stw = s.stw) ∧
    (∀ x, (s.irq.coalOf k).start = some x → s.pcr.aon < x + (s.irq.coalOf k).tt →
      ∃ t, exec (.coalescingTimerExpiry k) s = .next t ∧ t.irq = s.irq) ∧
    ((s.irq.coalOf k).start = none → ∃ t, exec (.coalescingTimerExpiry k) s = .next t ∧ t.irq = s.irq)

/-- A claim moves the pending sources of a vector with their COUNTs to its claim list and sends the message. (R481,
R482). An event whose condition does not hold leaves the state unchanged (log entry 3). -/
def Obligations.ClaimMovesPendingSources : Prop :=
  ∀ (s : State) (v : Nat), v < 64 →
    (s.claimable v = true → ∃ t, exec (.vectorClaim v) s = .next t ∧
      vget t.irq.claims [] v = (s.irq.pendingOf v).map (fun p => ⟨p.1, p.2, (s.irq.source p.1).asserted⟩) ∧
      (∀ w, w ≠ v → vget t.irq.claims [] w = vget s.irq.claims [] w) ∧
      (∀ n, n < 256 → t.irq.source n =
        if (s.irq.source n).pending ∧ (s.irq.source n).target.toNat = v then { s.irq.source n with count := 0 } else s.irq.source n) ∧
      t.irq.acc v = 0 ∧ (t.irq.coalOf v).due = false ∧ (t.irq.coalOf v).start = none ∧ (t.irq.coalOf v).armed = false ∧
      t.pci.out = s.pci.out ++ [.msix (s.pci.entry v).addr (s.pci.entry v).data] ∧ t.pci.l0 = true ∧
      t.fab = s.fab ∧ t.cfg = s.cfg ∧ t.stw = s.stw) ∧
    (s.claimable v = false → s.pci.d3 = false → exec (.vectorClaim v) s = .next s)

/-- A CAUSE read removes the first entry; a level source that has deasserted reads as the spurious code. (R485). That
a level source still asserted at the read counts one more event is the reading of log entry 73. -/
def Obligations.CauseReadsRemoveEntries : Prop :=
  ∀ (s : State) (v : Nat) (e : ClaimEnt) (rest : List ClaimEnt), v < 64 → s.mmio = true → e.source < 256 →
    vget s.irq.claims [] v = e :: rest →
    ∃ t, exec (.causeRead v) s = .next t ∧ vget t.irq.claims [] v = rest ∧
      (∀ w, w ≠ v → vget t.irq.claims [] w = vget s.irq.claims [] w) ∧ t.fab = s.fab ∧ t.cfg = s.cfg ∧ t.stw = s.stw ∧
      (if levelSource e.source = true ∧ ¬ (e.asserted = true ∧ (s.irq.source e.source).asserted = true) then
        t.pci.answer.head? = some (word32 [(0, 8, 0xFF), (8, 12, 0), (30, 1, b2n (rest ≠ [])), (31, 1, 1)]) ∧
        t.irq.spurious = min 65535 (s.irq.spurious + 1) ∧ t.irq.src = s.irq.src
      else
        t.pci.answer.head? = some (word32 [(0, 8, e.source), (8, 12, e.count), (30, 1, b2n (rest ≠ [])), (31, 1, 1)]) ∧
        t.irq.spurious = s.irq.spurious ∧
        (levelSource e.source = false → t.irq.src = s.irq.src) ∧
        (levelSource e.source = true → (t.irq.source e.source).count = min 4095 ((s.irq.source e.source).count + 1)))

/-- A due agent target sends one EvtIrq for each pending source and clears their COUNTs. (R487, R488). -/
def Obligations.AgentTargetsAreDelivered : Prop :=
  ∀ (s : State) (a : Nat), a < 32 →
    ((s.irq.coalOf (64 + a)).due = true → s.on 9 = true → (s.fab.link a).st = .active →
      0 < vget (s.fab.link a).credit 0 clsEVT →
      ∃ t, exec (.agentTargetDelivery a) s = .next t ∧
        t.fab = (s.irq.pendingOf (64 + a)).foldl (fun f (p : Nat × Nat) => f.send a (mkEvtIrq p.1 p.2)) s.fab ∧
        (∀ n, n < 256 → t.irq.source n =
          if (s.irq.source n).pending ∧ (s.irq.source n).target.toNat = 0x80 + a
          then { s.irq.source n with count := 0 } else s.irq.source n) ∧
        (t.irq.coalOf (64 + a)).due = false ∧ (t.irq.coalOf (64 + a)).start = none ∧
        t.irq.claims = s.irq.claims ∧ t.cfg = s.cfg ∧ t.stw = s.stw ∧ t.pci = s.pci) ∧
    ((s.fab.link a).st ≠ .active → exec (.agentTargetDelivery a) s = .next s)

/-- COUNTs and MASK writes move their target's ACC, its due state and its timer. (R477, R479, R480, R486). -/
def Obligations.CountsAndMasksMoveTheAccumulation : Prop :=
  (∀ (s : State) (n k : Nat) (rest : List (Nat × Nat)), n < 256 → s.on 9 = true → s.irq.oasisOn = false →
     s.irq.quiet = false → s.fab.raised = (n, 0) :: rest → (s.irq.source n).mask = false →
     targetNo (s.irq.source n).target.toNat = some k →
     ∃ t, exec .eventArrival s = .next t ∧ t.irq.acc k = min 4095 (s.irq.acc k + 1) ∧
       (t.irq.coalOf k).due = ((s.irq.coalOf k).due || decide ((s.irq.coalOf k).ct ≤ t.irq.acc k)) ∧
       (t.irq.coalOf k).armed = ((s.irq.coalOf k).armed || decide (s.irq.acc k = 0)) ∧
       (t.irq.coalOf k).start = (s.irq.coalOf k).start ∧ (t.irq.coalOf k).ct = (s.irq.coalOf k).ct) ∧
  (∀ (s : State) (n : Nat) (mask late : Bool), n < 256 → s.mmio = true →
     ((s.irq.source n).mask = mask → ∃ t, exec (.sourceMaskWrite n mask late) s = .next t ∧ t.irq = s.irq ∧ t.fab = s.fab) ∧
     ((s.irq.source n).mask ≠ mask → ∃ t, exec (.sourceMaskWrite n mask late) s = .next t ∧
       t.irq.source n = { s.irq.source n with mask := mask } ∧
       (∀ k, k ≠ n → t.irq.source k = s.irq.source k) ∧ t.irq.claims = s.irq.claims ∧
       t.fab = s.fab ∧ t.cfg = s.cfg ∧ t.stw = s.stw ∧
       t.irq.maskLate = (if mask ∧ late ∧ s.irq.claims.toList.any (fun l => l.any (fun e => e.source = n)) then
         min 255 (s.irq.maskLate + 1) else s.irq.maskLate) ∧
       (∀ k, targetNo (s.irq.source n).target.toNat = some k →
         if t.irq.acc k = 0 then
           (t.irq.coalOf k).due = false ∧ (t.irq.coalOf k).start = none ∧ (t.irq.coalOf k).armed = false
         else
           (t.irq.coalOf k).start = (s.irq.coalOf k).start ∧
           (t.irq.coalOf k).armed = ((s.irq.coalOf k).armed || decide (s.irq.acc k = 0)) ∧
           (t.irq.coalOf k).due = ((s.irq.coalOf k).due || decide ((s.irq.coalOf k).ct ≤ t.irq.acc k)))))

/-- Oasis latches listed sources, wakes the device and hands its latches over. (R492, R493). When WATCHING clears is
log entry 72. -/
def Obligations.OasisLatchesAndHandsOver : Prop :=
  (∀ (s : State) (n kind : Nat) (rest : List (Nat × Nat)), s.irq.oasisOn = true → s.fab.raised = (n, kind) :: rest →
     (kind ≠ 2 → s.irq.list.contains n = true → ∃ t, exec .oasisEvent s = .next t ∧
       t.fab = { s.fab with raised := rest } ∧ Tab.get t.irq.latch 0 n = min 4095 (Tab.get s.irq.latch 0 n + 1) ∧
       (∀ j, j ≠ n → Tab.get t.irq.latch 0 j = Tab.get s.irq.latch 0 j) ∧ t.irq.lost = s.irq.lost ∧
       (s.irq.waking = 0 → t.irq.waking = 1 ∧ t.irq.wakes = min 255 (s.irq.wakes + 1) ∧ t.pci.out = s.pci.out ++ [.oasisWake true]) ∧
       (s.irq.waking ≠ 0 → t.irq.waking = s.irq.waking ∧ t.irq.wakes = s.irq.wakes ∧ t.pci.out = s.pci.out) ∧
       t.cfg = s.cfg ∧ t.stw = s.stw) ∧
     (kind ≠ 2 → s.irq.list.contains n = false → ∃ t, exec .oasisEvent s = .next t ∧
       t.fab = { s.fab with raised := rest } ∧ t.irq.latch = s.irq.latch ∧ t.irq.lost = min 65535 (s.irq.lost + 1) ∧
       t.irq.waking = s.irq.waking ∧ t.pci.out = s.pci.out ∧ t.cfg = s.cfg ∧ t.stw = s.stw)) ∧
  (∀ s : State,
     (s.irq.waking = 1 ∨ s.irq.waking = 2 → ∃ t, exec .oasisWakePowerupEnd s = .next t ∧ t.irq.waking = 3 ∧
       t.irq.latch = s.irq.latch ∧ t.irq.src = s.irq.src ∧ t.on 9 = true ∧ t.on 28 = true ∧ t.cfg = s.cfg) ∧
     (s.irq.waking = 3 → ∃ t, exec .oasisHandover s = .next t ∧ t.irq.waking = 0 ∧ t.irq.watching = false ∧
       t.irq.latch = [] ∧ t.pci.out.getLast? = some (.oasisWake false) ∧
       (∀ n, n < 256 → t.irq.source n =
         let mine := s.irq.latch.filter (fun p => decide (p.1 = n))
         if mine = [] then s.irq.source n
         else { s.irq.source n with count := min 4095 ((s.irq.source n).count + mine.foldl (fun k p => k + p.2) 0) }) ∧
       t.fab = s.fab ∧ t.cfg = s.cfg ∧ t.stw = s.stw))

/-- A refused access to BAR0 is reported and changes nothing else. (R418, R497). The error bits reported are log entry
76. -/
def Obligations.RefusedAccessesReportAndDoNothing : Prop :=
  ∀ (s : State) (off : Nat) (bytes : List (Option Nat)),
    (∀ p, s.mmio = false → s.on 9 = true → exec (.registerWrite off bytes p) s = .next (s.aer 1)) ∧
    (∀ p, s.mmio = true → 0x4000000 ≤ off → s.on 9 = true → exec (.registerWrite off bytes p) s = .next (s.aer 1)) ∧
    (s.mmio = true → off < 0x4000000 → exec (.registerWrite off bytes true) s = .next (s.aer 2)) ∧
    (s.mmio = true → off < 0x4000000 → ¬ (0x100000 ≤ off ∧ off < 0x200000) → msixWindow off = false →
      ¬ (1 ≤ bytes.length ∧ bytes.length ≤ 4) → ¬ (bytes.length = 8 ∧ off % 8 = 0) →
      exec (.registerWrite off bytes false) s = .next (s.aer 0)) ∧
    (s.mmio = true → msixWindow off = true → ¬ (bytes.length = 4 ∧ off % 4 = 0) → ¬ (bytes.length = 8 ∧ off % 8 = 0) →
      exec (.msixTableWrite off bytes) s = .next (s.aer 0)) ∧
    (∀ m, s.mmio = true → m < 16 → off < 0x10000 →
      (off % 4 ≠ 0 ∨ bytes.length % 4 ≠ 0 ∨ bytes.length < 4 ∨ 64 < off % 64 + bytes.length) →
      exec (.mailboxBufferWrite m off bytes false) s = .next (s.aer 0))

/-- A direct write to an RWE field lands only while its block is disabled; otherwise it is flagged, captured and
raised. (R332, R507, R508). The value lands at the command itself (log entry 75). -/
def Obligations.ConfigurationWritesFollowTheEpoch : Prop :=
  ∀ (s : State) (off x : Nat) (r : CfgReg), s.mmio = true → cfgReg off = some r → off % 4 = 0 → off < 0x100000 → x < 2 ^ 32 →
    let w := Instr.registerWrite off ((leBytes x 4).map some) false
    (s.stw.disabled = true → s.on r.domain = true → ∃ t, exec w s = .next t ∧
      t = { s with cfg := r.set s.cfg (BitVec.ofNat 32 (((r.get s.cfg).toNat &&& (0xFFFFFFFF ^^^ r.mask)) ||| (x &&& r.mask))) }) ∧
    (s.stw.disabled = false → ∃ t, exec w s = .next t ∧ t.cfg = s.cfg ∧
      t.pcr.cfgIgn.toNat = putBit s.pcr.cfgIgn.toNat r.block true % 256 ∧ t.pcr.ignValid = true ∧
      (s.pcr.ignValid = false → t.pcr.ignOff = off ∧ t.pcr.ignBe = 15) ∧
      (s.pcr.ignValid = true → t.pcr.ignOff = s.pcr.ignOff ∧ t.pcr.ignBe = s.pcr.ignBe) ∧
      t.fab = s.fab.raise 224 ∧ t.irq = s.irq ∧ t.stw = s.stw)

/-- Writing 1 clears W1C and VALID bits and nothing else; reading PCR_TIME_L latches PCR_TIME_H. (R504, R505, R513).
-/
def Obligations.ClearingBitsAndReadingTime : Prop :=
  (∀ (s : State) (x : Nat), s.mmio = true → x < 2 ^ 32 →
     let w := fun off => Instr.registerWrite off ((leBytes x 4).map some) false
     (s.on 30 = true → ∃ t, exec (w 0xC000) s = .next t ∧
       let p := { s.pcr with powerOn := s.pcr.powerOn && !x.testBit 0, deviceRst := s.pcr.deviceRst && !x.testBit 1,
                             unclean := s.pcr.unclean && !x.testBit 2, noWarning := s.pcr.noWarning && !x.testBit 3,
                             perstSeen := s.pcr.perstSeen && !x.testBit 4 }
       t = { s with pcr := p }) ∧
     (∀ m, m < 16 → ∃ t, exec (w (0x200000 + 8 * m)) s = .next t ∧
       t.stw.mb m = { s.stw.mb m with bufViol := (s.stw.mb m).bufViol && !x.testBit 2,
                                      dbViol := (s.stw.mb m).dbViol && !x.testBit 3, lost := (s.stw.mb m).lost && !x.testBit 4 } ∧
       (∀ k, k ≠ m → t.stw.mb k = s.stw.mb k) ∧ t.fab = s.fab ∧ t.cfg = s.cfg ∧ t.pcr = s.pcr ∧ t.irq = s.irq) ∧
     (∀ i, i < 16 → s.on 31 = true → ∃ t, exec (w (0xA200 + 0x10 * i)) s = .next t ∧
       vget t.fab.gln.elog Elog.zero i = { vget s.fab.gln.elog Elog.zero i with valid := (vget s.fab.gln.elog Elog.zero i).valid && !x.testBit 31 } ∧
       (∀ k, k ≠ i → vget t.fab.gln.elog Elog.zero k = vget s.fab.gln.elog Elog.zero k) ∧
       t.cfg = s.cfg ∧ t.stw = s.stw ∧ t.pcr = s.pcr ∧ t.irq = s.irq)) ∧
  (∀ s : State, s.mmio = true → ∃ t, exec .pcrTimeLRead s = .next t ∧
     t.pci.timeHi = BitVec.ofNat 32 (Tab.get s.pci.shadow 0 0xC00C) ∧ t.pci.answer = [s.readReg 0xC008] ∧
     t.readReg 0xC00C = Tab.get s.pci.shadow 0 0xC00C % 2 ^ 32 ∧
     t.cfg = s.cfg ∧ t.fab = s.fab ∧ t.stw = s.stw ∧ t.irq = s.irq ∧ t.pcr = s.pcr ∧ t.wgb = s.wgb ∧ t.pci.shadow = s.pci.shadow)

/-- At each always-on edge time advances, armed timers start and powered blocks replace their copies. (R479, R501,
R503, R513, R527). That SHADOW_CAPTURE stands for one always-on edge is log entry 2; when PCR_COND is evaluated is log
entry 109. -/
def Obligations.EveryAlwaysOnEdgeCopiesTheRegisters : Prop :=
  ∀ s : State, s.pcr.porst = false → s.pcr.supplyHold = false →
    let b := s.pcr.bring
    let holds : List Bool := [b.die.toList.any (fun x => decide (100 < x)), b.hbc.toList.any (fun h => decide (95 < h.temp)),
      b.dimm.toList.any (fun x => decide (x ≠ 0xFF) && decide (85 < x)), decide (2100 < b.current), decide (s.pcr.railNear ≠ []),
      !s.pcr.sysClk, !s.pcr.refClk, decide (s.pcr.thrHbm ≠ 0) || s.pcr.thrDie || s.pcr.thrCur]
    ∃ t, exec .shadowCapture s = .next t ∧
    (∀ i, i < 8 → t.pcr.cond.toNat.testBit i = holds.getD i false) ∧ t.pcr = { s.pcr with aon := s.pcr.aon + 1, cond := t.pcr.cond } ∧
    t.fab = { s.fab with time := s.fab.time + 1, raised := s.fab.raised ++ (List.range 8).filterMap (fun i =>
      if s.pcr.cond.toNat.testBit i = holds.getD i false then none else some (216 + i, if holds.getD i false then 1 else 2)) } ∧
    t.cfg = s.cfg ∧ t.stw = s.stw ∧ t.wgb = s.wgb ∧ t.pending = s.pending ∧
    (∀ k, k < 96 → t.irq.coalOf k = if (s.irq.coalOf k).armed
      then { s.irq.coalOf k with armed := false, start := some (s.pcr.aon + 1) } else s.irq.coalOf k) ∧
    (∀ n, t.irq.source n = s.irq.source n) ∧
    (s.on 9 = true → (∀ off ∈ shadowOffsets, ∀ d, shadowDomain off = some d →
        (s.on d = true → Tab.get t.pci.shadow 0 off = t.live off) ∧
        (s.on d = false → Tab.get t.pci.shadow 0 off = Tab.get s.pci.shadow 0 off)) ∧
      Tab.get t.pci.shadow 0 0xC00C = (s.fab.time + 1).toNat / 2 ^ 32) ∧
    (s.on 9 = false → t.pci = s.pci)

/-- Configuration writes set the endpoint's state and PME; MSI-X table writes change the words they name. (R418,
R490). PME is checked as log entry 73 says; MSI-X writes as log entry 75. -/
def Obligations.ConfigurationSpaceAndTheMsixTable : Prop :=
  (∀ s : State, s.on 9 = true →
     (∀ w : PciWrite, w.d3.getD s.pci.d3 = false → ∃ t, exec (.pciConfigWrite w) s = .next t ∧
       let p := { s.pci with d3 := false, pmeStatus := s.pci.pmeStatus && !w.clearPme, pmeEn := w.pmeEn.getD s.pci.pmeEn,
                             msixEn := w.msixEn.getD s.pci.msixEn, funcMask := w.funcMask.getD s.pci.funcMask,
                             busMaster := w.busMaster.getD s.pci.busMaster, memSpace := w.memSpace.getD s.pci.memSpace }
       t = { s with pci := p }) ∧
     (∀ w : PciWrite, w.d3.getD s.pci.d3 = true → ∃ t, exec (.pciConfigWrite w) s = .next t ∧
       t.cfg = s.cfg ∧ t.fab = s.fab ∧ t.irq = s.irq ∧ t.stw = s.stw ∧ t.pcr = s.pcr ∧ t.pci.d3 = true ∧
       t.pci.msixEn = w.msixEn.getD s.pci.msixEn ∧ t.pci.funcMask = w.funcMask.getD s.pci.funcMask ∧
       t.pci.busMaster = w.busMaster.getD s.pci.busMaster ∧ t.pci.memSpace = w.memSpace.getD s.pci.memSpace ∧
       t.pci.pmeEn = w.pmeEn.getD s.pci.pmeEn ∧
       (w.pmeEn.getD s.pci.pmeEn = true → (s.pci.pmeStatus = false ∨ w.clearPme = true) → (∃ v, v < 64 ∧ (s.irq.coalOf v).due = true) →
         t.pci.pmeStatus = true ∧ t.pci.l0 = true ∧ t.pci.out = s.pci.out ++ [.pme]) ∧
       ((w.pmeEn.getD s.pci.pmeEn = false ∨ (s.pci.pmeStatus = true ∧ w.clearPme = false) ∨ (∀ v, v < 64 → (s.irq.coalOf v).due = false)) →
         t.pci.pmeStatus = (s.pci.pmeStatus && !w.clearPme) ∧ t.pci.l0 = false ∧ t.pci.out = s.pci.out)) ∧
     (s.pci.d3 = true → s.pci.pmeEn = true → s.pci.pmeStatus = true →
       exec .pmeServiceTimeout s = .next { s with pci := { s.pci with out := s.pci.out ++ [.pme] } }) ∧
     (s.pci.pmeStatus = false → exec .pmeServiceTimeout s = .next s)) ∧
  (∀ (s : State) (v k x y : Nat), s.mmio = true → v < 64 → k < 4 → x < 2 ^ 32 → y < 2 ^ 32 →
     let e := s.pci.entry v
     let dw := ((leBytes x 4).map some)
     ∃ t, exec (.msixTableWrite (0x201000 + 16 * v + 4 * k) dw) s = .next t ∧
       exec (.registerWrite (0x201000 + 16 * v + 4 * k) dw false) s = .next t ∧
       (∀ j, j ≠ v → t.pci.entry j = s.pci.entry j) ∧ t.cfg = s.cfg ∧ t.fab = s.fab ∧ t.irq = s.irq ∧ t.stw = s.stw ∧
       (t.pci.entry v).addr.toNat = (if k = 0 then e.addr.toNat / 2 ^ 32 * 2 ^ 32 + x
         else if k = 1 then e.addr.toNat % 2 ^ 32 + x * 2 ^ 32 else e.addr.toNat) ∧
       (t.pci.entry v).data.toNat = (if k = 2 then x else e.data.toNat) ∧
       (t.pci.entry v).mask = (if k = 3 then x.testBit 0 else e.mask) ∧
       (∃ u, (k = 0 ∨ k = 2) → exec (.msixTableWrite (0x201000 + 16 * v + 4 * k) ((leBytes x 4 ++ leBytes y 4).map some)) s = .next u ∧
         exec (.msixTableWrite (0x201000 + 16 * v + 4 * (k + 1)) ((leBytes y 4).map some)) t = .next u))

/-- CFG_STAGE stages its entries in order, all or none; CFG_READ returns staged or applied values. (R444). -/
def Obligations.StagedEntriesFollowTheirRule : Prop :=
  (∀ (c : Cfg) (i : Nat), c.stageAll i [] = (c, 0xFFFFFFFF, 0)) ∧
  (∀ (c : Cfg) (i off val mask : Nat) (rest : List (Nat × Nat × Nat)), cfgReg off = none ∨ (0x2000 ≤ off ∧ off < 0x3000) →
    c.stageAll i ((off, val, mask) :: rest) = (c, i, 0x0101)) ∧
  (∀ (c : Cfg) (i off val mask : Nat) (rest : List (Nat × Nat × Nat)) (r : CfgReg), cfgReg off = some r → ¬ (0x2000 ≤ off ∧ off < 0x3000) →
    val < 2 ^ 32 → mask < 2 ^ 32 →
    let new := ((r.get c).toNat &&& (0xFFFFFFFF ^^^ mask)) ||| (val &&& mask)
    (mask &&& r.mask ≠ mask → c.stageAll i ((off, val, mask) :: rest) = (c, i, 0x0102)) ∧
    (mask &&& r.mask = mask → r.legal new = false → c.stageAll i ((off, val, mask) :: rest) = (c, i, 0x0103)) ∧
    (mask &&& r.mask = mask → r.legal new = true → ∃ c' : Cfg, c.stageAll i ((off, val, mask) :: rest) = c'.stageAll (i + 1) rest ∧
      (∀ q ∈ r.staged, (q.get c').toNat = new) ∧ ∀ o q, cfgReg o = some q → q ∉ r.staged → q.get c' = q.get c)) ∧
  (∀ j, j < 8 → (CfgReg.hom j).staged = (List.range 8).map CfgReg.hom ∧ (CfgReg.tag j).staged = (List.range 8).map CfgReg.tag) ∧
  (∀ (s : State) (m : Nat), s.serves m 0x0202 → let b := s.stw.mb m
    let entries := (List.range (b.pay 0 4)).map (fun i => (b.pay (8 + 12 * i) 4, b.pay (12 + 12 * i) 4, b.pay (16 + 12 * i) 4))
    b.clean [(4, 4)] = true →
    (∀ c, s.stw.staged.stageAll 0 entries = (c, 0xFFFFFFFF, 0) → ∃ t, exec (.cfgStage m) s = .next t ∧
      (s.modStw (fun w => { w with staged := c })).Committed t m 0 [0xFF, 0xFF, 0xFF, 0xFF, 0, 0, 0, 0]) ∧
    (∀ c i st, s.stw.staged.stageAll 0 entries = (c, i, st) → st ≠ 0 → ∃ t, exec (.cfgStage m) s = .next t ∧
      s.Committed t m st (leBytes i 4 ++ [0, 0, 0, 0]))) ∧
  (∀ (s : State) (m : Nat), s.serves m 0x0203 → let b := s.stw.mb m
    b.clean [(1, 3)] = true →
    (b.pay 0 1 ≤ 1 → (∀ i, i < b.pay 4 4 → (cfgReg (b.pay (8 + 4 * i) 4)).isSome = true) →
      ∃ t, exec (.cfgRead m) s = .next t ∧ s.OnlyAnswered t m 0 ((List.range (b.pay 4 4)).flatMap (fun i =>
        match cfgReg (b.pay (8 + 4 * i) 4) with
        | some r => leBytes ((r.get (if b.pay 0 1 = 0 then s.stw.staged else s.cfg)).toNat &&& r.mask) 4
        | none => []))) ∧
    ((1 < b.pay 0 1 ∨ ∃ i, i < b.pay 4 4 ∧ cfgReg (b.pay (8 + 4 * i) 4) = none) →
      ∃ t, exec (.cfgRead m) s = .next t ∧ s.OnlyAnswered t m 0x0101 [])) ∧
  (∀ off, off % 4 ≠ 0 → cfgReg off = none)

/-- CFG_DISCARD makes the applied configuration the staged one; TWIN_STAGE stages TWN_CFG alone. (R444, R459). -/
def Obligations.DiscardingAndStagingTheTwin : Prop :=
  ∀ (s : State) (m : Nat), let b := s.stw.mb m
    (s.serves m 0x0204 → ∃ t, exec (.cfgDiscard m) s = .next t ∧
      (s.modStw (fun w => { w with staged := s.cfg })).Committed t m 0 []) ∧
    (s.serves m 0x0701 → ∀ c st, s.stw.staged.stage .twn (b.pay 0 4) (b.pay 4 4) = (c, st) →
      ∃ t, exec (.twinStage m) s = .next t ∧
        (if st = 0 then s.modStw (fun w => { w with staged := c }) else s).Committed t m st [])

/-- EPOCH_APPLY and DEVICE_STOP begin a drain at once, or wait for the one that runs. (R325, R326, R328, R446, R471).
The order of EPOCH_APPLY's checks is log entry 61. -/
def Obligations.ApplyAndStopBeginADrain : Prop :=
  ∀ (s : State) (m : Nat), let b := s.stw.mb m
    let begun := fun (t : State) (by_ : DrainBy) (opts : Nat) => t.stw.step = 1 ∧ t.stw.sub = 0 ∧ t.fab.draining = true ∧
      t.stw.by_ = by_ ∧ t.stw.opts = opts ∧ t.stw.before = s.cfg ∧ t.cfg = s.cfg ∧ t.stw.staged = s.stw.staged ∧
      t.fab.hrw.paused = true ∧ t.fab.gln.stopped = true ∧ t.fab.pfu.stopped = true ∧ (225, 0) ∈ t.fab.raised ∧
      (t.stw.mb m).st = .busy ∧ (t.stw.mb m).phase = .running ∧ t.stw.jrnl = s.stw.jrnl ∧ t.irq = s.irq ∧ t.fab.mem = s.fab.mem
    (s.serves m 0x0201 → s.stw.busy = false → s.pcr.byStop = false → b.clean [(1, 3)] = true → b.pay 0 1 < 8 →
      (b.pay 0 1).testBit 0 = false → s.stw.jrnl.committed ≠ 0xFFFFFFFF → (b.pay 4 4 = 0 ∨ b.pay 4 4 = s.fab.epoch) →
      s.checks.1 = 0 → ∃ t, exec (.epochApply m) s = .next t ∧ begun t (.apply m) (b.pay 0 1)) ∧
    (s.serves m 0x0A07 → s.stw.busy = false → s.pcr.byStop = false → b.pay 0 8 = s.fab.uid.toNat →
      ∃ t, exec (.deviceStop m) s = .next t ∧ begun t (.stop m) 4) ∧
    (s.serves m 0x0201 → s.stw.busy = true → b.clean [(1, 3)] = true → b.pay 0 1 < 8 →
      ∃ t, exec (.epochApply m) s = .next t ∧ t.stw.waiting = s.stw.waiting ++ [(.apply m, b.pay 0 1)] ∧
        t.stw.step = s.stw.step ∧ (t.stw.mb m).phase = .running ∧ t.fab = s.fab ∧ t.cfg = s.cfg)

/-- CACHE_LOCK and CACHE_UNLOCK queue a descriptor for a good range and refuse any other. (R448). -/
def Obligations.LockCommandsQueueADescriptor : Prop :=
  ∀ (s : State) (m : Nat), let b := s.stw.mb m
    let a := b.pay 0 8
    let len := b.pay 8 8
    let queued := fun (t : State) (op : Nat) (allow unlock : Bool) =>
      t.fab.hrw.descs = s.fab.hrw.descs ++ [Desc.new s.fab.hrw.nextTicket 49 (mkDesc op 0 a len allow)] ∧
      t.fab.hrw.nextTicket = (s.fab.hrw.nextTicket + 1) % 2 ^ 32 ∧
      t.stw.longs = s.stw.longs ++ [(m, .lock s.fab.hrw.nextTicket unlock)] ∧
      (t.stw.mb m).st = .busy ∧ (t.stw.mb m).phase = .running ∧ (∀ k, k ≠ m → t.stw.mb k = s.stw.mb k) ∧
      t.fab.cache = s.fab.cache ∧ t.fab.mem = s.fab.mem ∧ t.cfg = s.cfg ∧ t.irq = s.irq ∧ t.stw.jrnl = s.stw.jrnl
    let good := b.clean [(17, 7)] = true ∧ a % 4096 = 0 ∧ len % 4096 = 0 ∧ len ≠ 0 ∧ a + len ≤ 2 ^ 52 ∧
      s.cfg.rangeIn (fun r => r.typ.cacheable) a len = true
    (s.serves m 0x0401 → good → b.pay 16 1 ≤ 1 → s.cfg.cacheEn 0 = true →
      ∃ t, exec (.cacheLock m) s = .next t ∧ queued t 0x10 (b.pay 16 1 = 1) false) ∧
    (s.serves m 0x0402 → good → b.pay 16 1 = 0 → s.cfg.cacheEn 0 = true →
      ∃ t, exec (.cacheUnlock m) s = .next t ∧ queued t 0x11 false true) ∧
    (s.serves m 0x0401 → good → b.pay 16 1 ≤ 1 → s.cfg.cacheEn 0 = false →
      ∃ t, exec (.cacheLock m) s = .next t ∧ s.Committed t m 0x0201 []) ∧
    (s.serves m 0x0401 → b.clean [(17, 7)] = true → b.pay 16 1 ≤ 1 → (a % 4096 ≠ 0 ∨ len % 4096 ≠ 0 ∨ len = 0) →
      ∃ t, exec (.cacheLock m) s = .next t ∧ s.Committed t m 0x0101 []) ∧
    (s.serves m 0x0402 → b.clean [(17, 7)] = true → b.pay 16 1 ≠ 0 →
      ∃ t, exec (.cacheUnlock m) s = .next t ∧ s.Committed t m 0x01F2 [])

/-- HARROW_SUBMIT waits for a slot, refuses a bad descriptor and queues a good one. (R243, R246, R450). -/
def Obligations.SubmittedDescriptorsAreCheckedAndQueued : Prop :=
  ∀ (s : State) (m : Nat), let b := s.stw.mb m
    let raw : Line := BitVec.ofNat 512 (leNat (b.payBytes 0 64))
    let tk := s.fab.hrw.nextTicket
    s.serves m 0x0501 →
      (s.fab.roomFor m = false → exec (.harrowSubmit m) s = .next s) ∧
      (s.fab.roomFor m = true → dscStatus s.cfg m raw ≠ 0 → ∃ t, exec (.harrowSubmit m) s = .next t ∧
        ({ s with fab := { s.fab with hrw := { s.fab.hrw with refused := bvSat s.fab.hrw.refused 1 } } } : State).Committed t m
          (dscStatus s.cfg m raw) (leBytes (acceptWord (dscStatus s.cfg m raw) 0) 8)) ∧
      (s.fab.roomFor m = true → dscStatus s.cfg m raw = 0 → s.fab.mirrors = false → s.stw.longs = [] →
        (∀ d ∈ s.fab.hrw.descs, d.ticket ≠ tk) → ∃ t, exec (.harrowSubmit m) s = .next t ∧
        t.fab.hrw.descs = s.fab.hrw.descs ++ [Desc.new tk m raw] ∧ t.fab.hrw.nextTicket = (tk + 1) % 2 ^ 32 ∧
        (t.stw.mb m).st = .done ∧ t.stw.jrnl = (s.stw.log 0x20 m (commitBody b m 0 (leBytes (acceptWord 0 tk) 8))).jrnl ∧
        t.cfg = s.cfg ∧ t.irq = s.irq ∧ t.fab.mem = s.fab.mem) ∧
      (s.fab.roomFor m = true → dscStatus s.cfg m raw = 0 → s.fab.mirrors = true → s.stw.longs = [] →
        (∀ d ∈ s.fab.hrw.descs, d.ticket ≠ tk) → ∃ t d, exec (.harrowSubmit m) s = .next t ∧
        t.fab.hrw.descs = s.fab.hrw.descs ++ [d] ∧ d.ticket = tk ∧ d.queue = m ∧ d.raw = raw ∧ d.gate.isSome = true)

/-- HARROW_REAP frees acknowledged records and returns the oldest; HARROW_ABORT ends or stops its descriptor. (R251,
R258, R451, R452). -/
def Obligations.ReapingAndAborting : Prop :=
  (∀ (s : State) (m : Nat), let b := s.stw.mb m
     let h := s.fab.hrw.freeTo (b.pay 0 4)
     let k := min h.ringLate.length (256 - h.ring.length)
     let ring := h.ring ++ (h.ringLate.take k).zipIdx.map (fun p => ((h.ringSeq + p.2) % 2 ^ 32, p.1))
     (s.serves m 0x0503 → b.clean [(6, 2)] = true → 1 ≤ b.pay 4 2 → b.pay 4 2 ≤ 256 → h.ringSeq < 2 ^ 32 →
       ∃ t, exec (.harrowReap m) s = .next t ∧
       ({ s with fab := { s.fab with
           raised := s.fab.raised ++ List.replicate k (144, 0)
           hrw := { h with ring := ring, ringSeq := (h.ringSeq + k) % 2 ^ 32, ringLate := h.ringLate.drop k } } } : State).Committed t m 0
         (leBytes (match ring with | r :: _ => r.1 | [] => h.ringSeq) 4 ++ leBytes (ring.take (b.pay 4 2)).length 2 ++ [0, 0] ++
           (ring.take (b.pay 4 2)).flatMap (fun r => leBytes r.2.toNat 64))) ∧
     (∀ ack r, r ∈ (s.fab.hrw.freeTo ack).ring ↔ r ∈ s.fab.hrw.ring ∧
       (ack + 256 + 2 ^ 32 - s.fab.hrw.firstSeq % 2 ^ 32) % 2 ^ 32 < (r.1 + 256 + 2 ^ 32 - s.fab.hrw.firstSeq % 2 ^ 32) % 2 ^ 32)) ∧
  (∀ (s : State) (m : Nat) (d : Desc), s.serves m 0x0504 → let b := s.stw.mb m
     b.clean [(4, 4)] = true → s.fab.hrw.descs.filter (fun x => x.ticket = b.pay 0 4) = [d] → d.mirror = false →
     let acts := fun (g : Fabric → Prop) => ∃ f : Fabric,
       exec (.harrowAbort m) s = .next ((s.runs m (.abort d.ticket)).after (f.flow s.cfg)) ∧ g f
     (d.queue < 17 → d.running = false → d.recording = false → d.ending = false → d.stop = 0 → s.fab.mirrors = false →
       acts (fun f => f.hrw.aborted = bvSat s.fab.hrw.aborted 1 ∧ (∀ x ∈ f.hrw.descs, x.ticket = d.ticket → 17 ≤ x.queue) ∧
         ∃ r : Line, bitsOf r.toNat 64 16 = 0x0201 ∧ bitsOf r.toNat 32 32 = d.ticket % 2 ^ 32 ∧
           (s.fab.hrw.ringLate = [] → s.fab.hrw.ring.length < 256 → f.hrw.ring = s.fab.hrw.ring ++ [(s.fab.hrw.ringSeq, r)]) ∧
           (256 ≤ s.fab.hrw.ring.length → f.hrw.ring = s.fab.hrw.ring ∧ f.hrw.ringLate = s.fab.hrw.ringLate ++ [r]))) ∧
     (d.queue < 49 → d.running = false → d.recording = false → d.ending = false → d.stop = 0 → s.fab.mirrors = true →
       acts (fun f => f.hrw.aborted = bvSat s.fab.hrw.aborted 1 ∧ f.hrw.ring = s.fab.hrw.ring ∧ f.hrw.ringLate = s.fab.hrw.ringLate ∧
         ∃ x ∈ f.hrw.descs, x.ticket = d.ticket ∧ x.ending = true ∧ x.status = 0x0201 ∧
           x.gate = some (8, vget s.fab.twin.lseq 0 8))) ∧
     (d.queue < 49 → d.running = true → d.flight ≠ [] → d.recording = false → d.ending = false → d.stop = 0 →
       acts (fun f => ∃ x ∈ f.hrw.descs, x.ticket = d.ticket ∧ x.stop = 1 ∧ x.flight = d.flight)) ∧
     (d.queue < 49 → (d.recording = true ∨ d.ending = true ∨ d.stop ≠ 0) → acts (fun f => f = s.fab)) ∧
     (49 ≤ d.queue → ∃ t, exec (.harrowAbort m) s = .next t ∧ s.Committed t m 0x0202 []))

/-- CE_CLEAR empties the tables named; TAINT_CLEAR clears the buckets named. (R453, R454). -/
def Obligations.ClearingErrorTablesAndTaints : Prop :=
  (∀ (s : State) (m : Nat), s.serves m 0x0602 → let b := s.stw.mb m
     b.clean [(1, 7)] = true → (b.pay 0 1 ≤ 9 ∨ b.pay 0 1 = 0xFF) →
     ∃ (t : State) (g : Gln), exec (.ceClear m) s = .next t ∧ ({ s with fab := { s.fab with gln := g } } : State).Committed t m 0 [] ∧
       (∀ i, i < 10 → vget g.blks GlnBlk.zero i =
         if b.pay 0 1 = 0xFF ∨ b.pay 0 1 = i then { vget s.fab.gln.blks GlnBlk.zero i with table := [], ceOvf := 0 }
         else vget s.fab.gln.blks GlnBlk.zero i) ∧
       g.repairs = s.fab.gln.repairs ∧ g.elog = s.fab.gln.elog ∧ g.fuses = s.fab.gln.fuses) ∧
  (∀ (s : State) (m : Nat), s.serves m 0x0604 → let b := s.stw.mb m
     let named := fun (t : Nat × BitVec 18) => (b.pay 0 1 = 0xFF ∨ t.1 = b.pay 0 1) ∧ (b.pay 4 4 = 0xFFFFFFFF ∨ t.2.toNat = b.pay 4 4)
     b.clean [(1, 3)] = true → (b.pay 0 1 ≤ 7 ∨ b.pay 0 1 = 0xFF) → (b.pay 4 4 < 2 ^ 18 ∨ b.pay 4 4 = 0xFFFFFFFF) →
     ((∃ x ∈ s.fab.gran.taint, named x) → ∃ (t : State) (g : Granary), exec (.taintClear m) s = .next t ∧
       ({ s with fab := { s.fab with gran := g } } : State).Committed t m 0 (leBytes (s.fab.gran.taint.length - g.taint.length) 4) ∧
       (∀ x, x ∈ g.taint ↔ x ∈ s.fab.gran.taint ∧ ¬ named x) ∧
       (∀ i, i < 8 → (∀ x ∈ g.taint, x.1 ≠ i) → (vget g.banks GrnBank.zero i).taintSet = false) ∧
       (∀ i, (∃ x ∈ g.taint, x.1 = i) → vget g.banks GrnBank.zero i = vget s.fab.gran.banks GrnBank.zero i)) ∧
     ((∀ x ∈ s.fab.gran.taint, ¬ named x) → ∃ t, exec (.taintClear m) s = .next t ∧ s.Committed t m 0x0201 []))

/-- ZMAP_WRITE, TAGLOST_CLEAR and REPAIR_NOMINATE act only where they are accepted. (R455, R456, R457). Which row an
on-die location names, and when the fuse entry is written, is log entry 79. -/
def Obligations.RewritingLostWordsAndNominatingRepairs : Prop :=
  (∀ (s : State) (m : Nat), s.serves m 0x0605 → let b := s.stw.mb m
     let w := b.pay 0 1 * 262144 + b.pay 4 4
     b.clean [(1, 3)] = true → b.pay 0 1 ≤ 11 → b.pay 4 4 < 262144 →
     (w ∈ s.fab.mem.lostWords → ∃ t, exec (.zmapWrite m) s = .next t ∧ (t.stw.mb m).st = .done ∧ w ∉ t.fab.mem.lostWords ∧
       (∀ x, x ≠ w → (x ∈ t.fab.mem.lostWords ↔ x ∈ s.fab.mem.lostWords)) ∧
       (∀ j, j < 512 → t.fab.mem.marked (pageOfLocal (w / 262144) (w % 262144 * 512 + j)) = (b.pay 8 64).testBit j) ∧
       t.fab.mem.hq = s.fab.mem.hq ++ [MemReq.tagWr (mapPrimary w), MemReq.tagWr (mapMirror w)] ∧
       t.fab.mem.hbm = s.fab.mem.hbm ∧ t.fab.mem.ddr = s.fab.mem.ddr ∧ t.cfg = s.cfg ∧ t.irq = s.irq) ∧
     (w ∉ s.fab.mem.lostWords → ∃ t, exec (.zmapWrite m) s = .next t ∧ s.Committed t m 0x0201 [])) ∧
  (∀ (s : State) (m : Nat), s.serves m 0x0606 → let b := s.stw.mb m
     let set := b.pay 4 4
     b.clean [(1, 3)] = true → b.pay 0 1 ≤ 7 → set < 2 ^ 21 → set / 2 ^ 18 = b.pay 0 1 →
     ((∃ w, (set, w) ∈ s.fab.cache.lostList) → ∃ t, exec (.taglostClear m) s = .next t ∧ (t.stw.mb m).st = .done ∧
       t.fab.cache = { s.fab.cache with lostList := s.fab.cache.lostList.filter (fun p => p.1 ≠ set) } ∧
       (∀ w, (set, w) ∈ s.fab.cache.lostList → MemReq.tagWr (tagWord set w) ∈ t.fab.mem.hq) ∧
       b.pay 0 1 ∉ t.fab.gln.storeUnusable ∧ t.fab.mem.hbm = s.fab.mem.hbm ∧ t.fab.mem.ddr = s.fab.mem.ddr ∧
       t.cfg = s.cfg ∧ t.irq = s.irq) ∧
     ((∀ w, (set, w) ∉ s.fab.cache.lostList) → ∃ t, exec (.taglostClear m) s = .next t ∧ s.Committed t m 0x0201 [])) ∧
  (∀ (s : State) (m : Nat), s.serves m 0x0608 → let b := s.stw.mb m
     let block := b.pay 0 1
     let loc := b.pay 2 6
     let g := s.fab.gln
     b.clean [(1, 1)] = true → s.locOk block loc = true →
     (g.pendingCount < 64 → (block = 10 → g.fuses.length < 512) →
       (∀ r ∈ g.repairs, r.block = block → r.row = s.rowOf block loc → 2 ≤ r.state) →
       ∃ t, exec (.repairNominate m) s = .next t ∧ (t.stw.mb m).st = .done ∧
         t.fab.gln.repairs = g.recorded ++ [{
           block := block
           row := s.rowOf block loc
           loc := loc
           state := 1
           epoch := 0
           dram := match (vget g.blks GlnBlk.zero block).table.find? (fun e => e.row = s.rowOf block loc) with
             | some e => if 4 ≤ block ∧ block < 10 then e.sym else 10
             | none => 10 }] ++
           g.repairs.filter (fun r => r.state = 0) ∧
         t.fab.gln.fuses = (if block = 10 then g.fuses ++ [fuseEntry loc] else g.fuses) ∧ t.cfg = s.cfg ∧ t.irq = s.irq) ∧
     (64 ≤ g.pendingCount → ∃ t, exec (.repairNominate m) s = .next t ∧ s.Committed t m 0x0301 []) ∧
     (g.pendingCount < 64 → block = 10 → 512 ≤ g.fuses.length → ∃ t, exec (.repairNominate m) s = .next t ∧ s.Committed t m 0x0302 []))

/-- IRQ_ROUTE, IRQ_COALESCE and IRQ_OASIS set what they name and refuse a bad target. (R463, R464, R495). -/
def Obligations.RoutingAndCoalescing : Prop :=
  ∀ (s : State) (m : Nat), let b := s.stw.mb m
    (∀ n tgt, s.serves m 0x0801 → b.clean [(2, 6)] = true → b.pay 0 2 = 1 → b.pay 8 1 = n → b.pay 9 1 = tgt → b.pay 10 2 = 0 →
      (tgt = 0xFF ∨ (targetNo tgt).isSome) → ∃ (t : State) (q : Irq), exec (.irqRoute m) s = .next t ∧
        ({ s with irq := q } : State).Committed t m 0 [0xFF, 0xFF, 0xFF, 0xFF] ∧ (q.source n).target.toNat = tgt ∧
        (q.source n).mask = (s.irq.source n).mask ∧ (q.source n).asserted = (s.irq.source n).asserted ∧
        (∀ k, k ≠ n → q.source k = s.irq.source k) ∧ q.coal = s.irq.coal ∧ q.claims = s.irq.claims) ∧
    (∀ n tgt, s.serves m 0x0801 → b.clean [(2, 6)] = true → b.pay 0 2 = 1 → b.pay 8 1 = n → b.pay 9 1 = tgt → b.pay 10 2 = 0 →
      tgt ≠ 0xFF → targetNo tgt = none → ∃ t, exec (.irqRoute m) s = .next t ∧ s.Committed t m 0x0101 [0, 0, 0, 0]) ∧
    (∀ k, s.serves m 0x0802 → b.clean [(1, 1)] = true → targetNo (b.pay 0 1) = some k → 1 ≤ b.pay 2 2 → b.pay 2 2 ≤ 4095 →
      1 ≤ b.pay 4 4 → b.pay 4 4 ≤ 65000 → ∃ (t : State) (q : Irq), exec (.irqCoalesce m) s = .next t ∧
        ({ s with irq := q } : State).Committed t m 0 [] ∧ (q.coalOf k).ct = b.pay 2 2 ∧ (q.coalOf k).tt = b.pay 4 4 ∧
        (q.coalOf k).due = ((s.irq.coalOf k).due || (decide (0 < s.irq.acc k) && decide (b.pay 2 2 ≤ s.irq.acc k))) ∧
        (∀ j, j ≠ k → q.coalOf j = s.irq.coalOf j) ∧ q.src = s.irq.src) ∧
    (s.serves m 0x0803 → b.clean [(1, 7)] = true → b.pay 0 1 ≤ 32 →
      (∀ i, b.pay 0 1 ≤ i → i < 32 → b.byte (16 + i) = 0) → ∃ t, exec (.irqOasis m) s = .next t ∧
        ({ s with irq := { s.irq with list := (List.range (b.pay 0 1)).map (fun i => b.byte (16 + i)) } } : State).Committed t m 0 [])

/-- TWIN_WITNESS, TWIN_TAKEOVER and TWIN_REJOIN act only in the states that accept them. (R460, R461, R462). The start
of the record streams is log entry 53. -/
def Obligations.TwinCommandsActOnThePair : Prop :=
  ∀ (s : State) (m : Nat), let b := s.stw.mb m
    (∀ up down, s.serves m 0x0703 → (∀ l ∈ s.stw.longs, l.1 ≠ m) →
      ∃ t, exec (.twinWitness m up down) s = .next t ∧
        (s.after (s.fab.witnessTest s.cfg up down)).Answered t m 0 [(witnessOf up down).toNat, 0, 0, 0]) ∧
    (s.serves m 0x0704 → s.fab.twin.pair = .waiting → b.pay 0 8 = (match s.fab.twin.partner with | some h => h.uid.toNat | none => 0) →
      exec (.twinTakeover m) s = .next ((s.runs m .takeover).after (s.fab.takeOver s.cfg))) ∧
    (s.serves m 0x0704 → s.fab.twin.pair ≠ .waiting → ∃ t, exec (.twinTakeover m) s = .next t ∧ s.Committed t m 0x0201 []) ∧
    (∀ h, s.serves m 0x0705 → (s.fab.twin.pair = .single ∧ s.cfg.twinEn = true ∨ s.fab.twin.pair = .survivor) →
      s.fab.twin.heard = true → s.fab.twin.partner = some h → (∀ l ∈ s.stw.longs, l.1 ≠ m) →
      (helloDis s.ownHello h = 0 → ∃ t, exec (.twinRejoin m) s = .next t ∧ (s.after (s.fab.rejoin s.ownHello)).Committed t m 0 [0, 0, 0, 0]) ∧
      (helloDis s.ownHello h ≠ 0 → ∃ t, exec (.twinRejoin m) s = .next t ∧ s.Committed t m 0x0203 [helloDis s.ownHello h, 0, 0, 0])) ∧
    (s.serves m 0x0705 → (s.fab.twin.pair = .single ∧ s.cfg.twinEn = true ∨ s.fab.twin.pair = .survivor) → s.fab.twin.heard = false →
      ∃ t, exec (.twinRejoin m) s = .next t ∧ s.Committed t m 0x0202 []) ∧
    (s.serves m 0x0705 → s.fab.twin.pair ≠ .single → s.fab.twin.pair ≠ .survivor →
      ∃ t, exec (.twinRejoin m) s = .next t ∧ s.Committed t m 0x0201 [])

/-- Metering commands return what the Weighbridge answers and do what it permits. (R381, R387, R400, R465, R466). NEXT
past the last block is log entry 25; the retry status is log entry 26. -/
def Obligations.MeteringCommandsReachTheWeighbridge : Prop :=
  (∀ (s : State) (m fails : Nat), let b := s.stw.mb m
     let w := s.wgb
     let st := if fails = 1 then 0x06F0 else 0
     let answered := fun (c : Instr) (g : Wgb → Wgb) (next : Nat) => ∃ t l, exec c s = .next t ∧ (s.onWgb g).wgb.answer = some (0, l) ∧
       (s.onWgb g).Answered t m st (leBytes l.length 4 ++ leBytes next 4 ++ List.replicate 8 0 ++ recBytes l) ∧
       t.cfg = s.cfg ∧ t.pcr = s.pcr ∧ t.wgb = (s.onWgb g).wgb
     (∀ l ∈ s.stw.longs, l.1 ≠ m) → w.powered = true → fails ≤ 1 →
     (s.serves m 0x0901 → answered (.meterId m fails) (fun w => w.readId (BitVec.ofNat 128 (b.pay 0 16))) 0) ∧
     (s.serves m 0x0902 → b.clean [(1, 3), (12, 4)] = true → b.pay 0 1 ≤ 15 → b.pay 4 4 ≤ b.pay 8 4 →
       ((w.range (b.pay 0 1) (b.pay 4 4) (b.pay 8 4)).flatMap w.blockRecs).length ≤ bodyLimit m →
       answered (.meterIntervals m fails) (fun w => w.readout 0 ((w.range (b.pay 0 1) (b.pay 4 4) (b.pay 8 4)).flatMap w.blockRecs)
         (BitVec.ofNat 128 (b.pay 16 16))) ((b.pay 8 4 + 1) % 2 ^ 32)) ∧
     (s.serves m 0x0903 → b.clean [(1, 1), (4, 4)] = true → 1 ≤ b.pay 2 2 → b.pay 0 1 + b.pay 2 2 ≤ 256 →
       answered (.meterCumulative m fails) (fun w => w.readCumulative 1 (b.pay 0 1) (b.pay 2 2) (BitVec.ofNat 128 (b.pay 8 16))) 0) ∧
     (s.serves m 0x0904 → b.clean [(6, 2)] = true → 1 ≤ b.pay 4 2 → b.pay 4 2 ≤ 508 →
       answered (.meterAudit m fails) (fun w => w.readAudit (b.pay 0 4) (b.pay 4 2) (BitVec.ofNat 128 (b.pay 8 16)))
         (b.pay 0 4 + ((w.audit.drop (b.pay 0 4)).take (b.pay 4 2)).length))) ∧
  (∀ (s : State) (m : Nat), let b := s.stw.mb m
     let w := s.wgb
     (∀ l ∈ s.stw.longs, l.1 ≠ m) → w.powered = true →
     (s.serves m 0x0905 → ∃ t, exec (.meterStatus m 0) s = .next t ∧ (s.onWgb Wgb.status).Answered t m 0 (leBytes w.stat.toNat 4 ++ leBytes w.cur.ino 4 ++
       leBytes w.auditCnt 4 ++ leBytes w.t 8 ++ leBytes w.serial.toNat 8 ++ [0, 0, 0, 0])) ∧
     (s.serves m 0x0906 → b.clean [(12, 4)] = true → w.tcxoOk = true → ∃ t, exec (.meterTimeNote m 0) s = .next t ∧
       (s.onWgb (fun w => w.timeNote (BitVec.ofNat 96 (b.pay 0 12)))).Committed t m 0 (leBytes w.t 8)) ∧
     (s.serves m 0x0907 → w.tcxoOk = true → w.short = none → ∃ t, exec (.meterCloseShort m 0) s = .next t ∧
       t.wgb.short = some (w.t + 20) ∧ (t.stw.mb m).st = .busy ∧ (t.stw.mb m).phase = .running ∧ t.cfg = s.cfg) ∧
     (s.serves m 0x0908 → (s.fab.twin.pair = .failover ∨ s.fab.twin.pair = .survivor) → ∃ t, exec (.meterMarkFailover m 0) s = .next t ∧
       (s.onWgb Wgb.markFailover).Committed t m 0 []) ∧
     (s.serves m 0x0908 → s.fab.twin.pair ≠ .failover → s.fab.twin.pair ≠ .survivor → ∃ t, exec (.meterMarkFailover m 0) s = .next t ∧
       s.Committed t m 0x0201 []) ∧
     (s.serves m 0x0901 → ∃ t, exec (.meterId m 2) s = .next t ∧ s.OnlyAnswered t m 0x0401 []))

/-- Firmware commands write, verify, activate and roll forward images as Table 16.15 allows. (R408, R411, R412, R413,
R414, R467, R468, R469). Verification itself is a free value (log entry 15); the wait of FW_ACTIVATE is log entry 67.
-/
def Obligations.FirmwareImages : Prop :=
  ∀ (s : State) (m : Nat), let b := s.stw.mb m
    let i := b.pay 0 1
    let n := b.pay 8 4
    let off := b.pay 4 4
    let shape := b.clean [(1, 3), (12, 4)] = true ∧ i ≤ 1 ∧ 4 ≤ n ∧ n ≤ 32744 ∧ n % 4 = 0
    let fits := off + n ≤ 0x800000 ∧ (off = 0 ∨ (s.slot i).written ≤ off)
    (∀ spi, s.serves m 0x0A01 → shape → (s.stw.safe = true ∨ s.stw.running ≠ i) → fits → spi ≤ 1 →
      ∃ t x, exec (.fwWrite m spi) s = .next t ∧
      (s.modSlot i (fun _ => x)).Committed t m (if spi = 1 then 0x06F0 else 0) [] ∧
      x = { s.slot i with bytes := x.bytes, written := off + n, verified := none } ∧
      (∀ k, Tab.get x.bytes 0xFF k = if off ≤ k ∧ k < off + n then b.byte (24 + (k - off)) % 256
        else if off = 0 then 0xFF else Tab.get (s.slot i).bytes 0xFF k)) ∧
    (∀ spi, s.serves m 0x0A01 → shape → (s.stw.safe = true ∨ s.stw.running ≠ i) → fits → 2 ≤ spi →
      ∃ t, exec (.fwWrite m spi) s = .next t ∧
        ((s.modSlot i (fun x => { x with verified := none })).raise 242).Committed t m 0x0402 []) ∧
    (∀ spi, s.serves m 0x0A01 → shape → (s.stw.safe = true ∨ s.stw.running ≠ i) → ¬ fits →
      ∃ t, exec (.fwWrite m spi) s = .next t ∧ s.Committed t m 0x0102 []) ∧
    (∀ spi, s.serves m 0x0A01 → shape → s.stw.safe = false → s.stw.running = i →
      ∃ t, exec (.fwWrite m spi) s = .next t ∧ s.Committed t m 0x0201 []) ∧
    (s.serves m 0x0A02 → b.clean [(1, 7)] = true → i ≤ 1 → ∃ t, exec (.fwVerify m) s = .next t ∧
      let r := s.stw.verify i
      ((s.modSlot i (fun x => { x with verified := some r, lastResult := r })).modStw (fun w => w.log 0x60 (4 + i) [i, r])).Committed t m 0
        ([r, 0, 0, 0] ++ leBytes (s.slot i).version 4 ++ [(s.slot i).imgRollback % 256] ++ List.replicate 7 0) ∧
      vget t.stw.slots FlashSlot.init i = { s.slot i with verified := some r, lastResult := r } ∧
      vget t.stw.slots FlashSlot.init (1 - i) = s.slot (1 - i) ∧ t.cfg = s.cfg ∧ t.irq = s.irq) ∧
    (s.serves m 0x0A03 → b.clean [(1, 7)] = true → i ≤ 1 → s.stw.busy = false → (s.slot i).verified = some 0 →
      let v := (s.slot i).version / 2 ^ 16
      let p := match s.fab.twin.partner with | some h => h.fwMajor * 256 + h.fwMinor | none => v
      let differs := (s.fab.twin.pair = .paired ∨ s.fab.twin.pair = .resync) ∧ p ≠ v
      (¬ differs → s.othersRun m = false → ∃ t, exec (.fwActivate m) s = .next t ∧
        (s.modStw (fun w => { (w.log 0x60 0 [i]).log 0x60 2 [i, 0] with
          trial := some (1 - i), activating := true, preferred := i })).Committed t m 0 [] ∧
        t.stw.preferred = i ∧ t.stw.trial = some (1 - i) ∧ t.stw.activating = true ∧ t.stw.running = s.stw.running ∧
        t.stw.slots = s.stw.slots ∧ t.cfg = s.cfg) ∧
      (¬ differs → s.othersRun m = true → exec (.fwActivate m) s = .next s) ∧
      (differs → ∃ t, exec (.fwActivate m) s = .next t ∧ s.Committed t m 0x0202 [])) ∧
    (s.serves m 0x0A03 → b.clean [(1, 7)] = true → i ≤ 1 → s.stw.busy = true → ∃ t, exec (.fwActivate m) s = .next t ∧
      s.Committed t m 0x02F1 []) ∧
    (s.serves m 0x0A03 → b.clean [(1, 7)] = true → i ≤ 1 → s.stw.busy = false → (s.slot i).verified ≠ some 0 →
      ∃ t, exec (.fwActivate m) s = .next t ∧ s.Committed t m 0x0201 []) ∧
    (s.serves m 0x0A04 → b.clean [(1, 7)] = true → i ≤ 1 →
      let other := 1 - s.stw.running
      let lower := s.stw.verify other = 0 ∧ (s.slot other).imgRollback < s.stw.imgRollback
      let count := min 64 (max s.stw.rollback s.stw.imgRollback)
      (s.stw.accepted = true → s.stw.running < 2 → ∃ t, exec (.fwRollbackCommit m) s = .next t ∧
        if i = 0 ∧ lower then s.Committed t m 0x0202 []
        else (s.modStw (fun w => { w with rollback := count })).Committed t m 0 (leBytes count 4) ∧ t.stw.rollback = count) ∧
      (s.stw.accepted = false ∨ 2 ≤ s.stw.running → ∃ t, exec (.fwRollbackCommit m) s = .next t ∧ s.Committed t m 0x0201 []))

/-- DEVICE_RESET, PORT_RESET and JOURNAL_COMPACT do what they name and refuse a wrong operand. (R61, R336, R435, R470,
R472, R473). -/
def Obligations.ResetsStopsAndCompaction : Prop :=
  (∀ (s : State) (m : Nat), s.serves m 0x0A06 → let b := s.stw.mb m
     (b.pay 0 8 = s.fab.uid.toNat → s.fab.twin.pair = .single → ∃ t, exec (.deviceReset m) s = .next t ∧
       (s.modStw (fun w => { w with resetDue := true })).Committed t m 0 [] ∧ t.stw.resetDue = true ∧ t.stw.up = s.stw.up) ∧
     (b.pay 0 8 = s.fab.uid.toNat → s.fab.twin.pair ≠ .single → (∀ l ∈ s.stw.longs, l.1 ≠ m) → ∃ t, exec (.deviceReset m) s = .next t ∧
       t.stw.resetDue = true ∧ (t.stw.mb m).st = .done ∧ t.fab.twin.sentCtl = s.fab.twin.sentCtl ++ [(4, 0)] ∧ t.cfg = s.cfg) ∧
     (b.pay 0 8 ≠ s.fab.uid.toNat → ∃ t, exec (.deviceReset m) s = .next t ∧ s.Committed t m 0x0103 [])) ∧
  (∀ (s : State) (m : Nat), s.serves m 0x0B01 → let b := s.stw.mb m
     let p := b.pay 0 1
     let h := b.pay 1 1
     let resets := fun (links : List Nat) => ∃ f : Fabric,
       exec (.portReset m) s = .next ((s.runs m (.port links)).after (f.flow s.cfg)) ∧ ∀ a ∈ links,
         (f.link a).stopSeq = true ∧ (f.link a).decl = none ∧ (f.link a).txq = [] ∧ (f.link a).rxq = [] ∧ a ∈ f.agentDrops ∧
         (f.link a).st = (if (s.fab.link a).st = .fenced then .fenced else .disabled)
     b.clean [(2, 6)] = true →
     (p ≤ 15 → s.cfg.split p = false → (h = 0 ∨ h = 0xFF) → resets [2 * p]) ∧
     (p ≤ 15 → s.cfg.split p = true → h ≤ 1 → resets [2 * p + h]) ∧
     (p ≤ 15 → s.cfg.split p = true → h = 0xFF → resets [2 * p, 2 * p + 1]) ∧
     (15 < p → ∃ t, exec (.portReset m) s = .next t ∧ s.Committed t m 0x0101 []) ∧
     (p ≤ 15 → h = 1 → s.cfg.split p = false → ∃ t, exec (.portReset m) s = .next t ∧ s.Committed t m 0x0101 []) ∧
     (p ≤ 15 → 2 ≤ h → h ≠ 0xFF → ∃ t, exec (.portReset m) s = .next t ∧ s.Committed t m 0x0101 [])) ∧
  (∀ (s : State) (m : Nat), let live := liveEntries (s.stw.liveCommits s.pcr.aon) s.stw.jrnl.entries
     let compacted := fun (j : Journal) => j.entries = live ∧ j.segSeq = s.stw.jrnl.segSeq + 1 ∧
       j.segment = (s.stw.jrnl.segment + 1) % 4 ∧ j.compacting = false ∧ j.nextSeq = s.stw.jrnl.nextSeq ∧ (j.full = true ↔ 8192 < recCount live)
     (s.stw.jrnl.compacting = true → ∃ t, exec .journalCompactionEnd s = .next t ∧ compacted t.stw.jrnl ∧ t.cfg = s.cfg ∧ t.irq = s.irq ∧
       t.stw.staged = s.stw.staged ∧ (∀ k, t.stw.mb k = s.stw.mb k) ∧
       t.fab = if (decide (8192 < recCount live)) = s.stw.jrnl.full then s.fab else s.fab.raise 240) ∧
     (s.stw.jrnl.compacting = false → exec .journalCompactionEnd s = .next s) ∧
     (s.serves m 0x0A09 → ¬ 8192 < recCount live → ∃ (t u : State), exec (.journalCompact m) s = .next t ∧ compacted u.stw.jrnl ∧
       u.Committed t m 0 (leBytes u.stw.jrnl.word 4) ∧ u.cfg = s.cfg ∧ u.stw.staged = s.stw.staged) ∧
     (s.serves m 0x0A09 → 8192 < recCount live → ∃ (t u : State), exec (.journalCompact m) s = .next t ∧ compacted u.stw.jrnl ∧
       u.Committed t m 0x03F0 []))

/-- A metering tick ends a segment, and an interval at its boundary; a short boundary closes early. (R379, R386, R387,
R389, R466). That METERING_TICK moves T to the next multiple of 10,000 is log entry 18. -/
def Obligations.MeteringTicksAndShortBoundaries : Prop :=
  (∀ s : State, let next := (s.wgb.t / 10000 + 1) * 10000
     let q4 := s.wgb.occSeg.foldl (fun acc p => Tab.put 0 acc p.1 (Tab.get acc 0 p.1 + p.2 * (next - s.wgb.segStart))) s.wgb.cur.q4
     (s.wgb.powered = true → s.wgb.tcxoOk = true → s.wgb.short = none → ∃ t, exec .meteringTick s = .next t ∧
       t.wgb.t = next ∧ t.wgb.segStart = next ∧ t.wgb.occSeg = s.wgb.occNow ∧ t.wgb.cum = s.wgb.cum ∧ t.wgb.sealed = s.wgb.sealed ∧
       t.fab.taps.frames = s.fab.taps.frames ++ ((List.range 18).filter s.tapOn).map (fun k => s.tapFrame k next) ∧
       t.cfg = s.cfg ∧ t.pcr = s.pcr ∧
       (if s.wgb.cur.stop = 0 ∨ next < s.wgb.cur.stop then
         t.wgb.closing = s.wgb.closing ∧ t.wgb.cur = { s.wgb.cur with q4 := q4 }
       else (∃ i, t.wgb.closing = s.wgb.closing ++ [i] ∧ i.ino = s.wgb.cur.ino ∧ i.start = s.wgb.cur.start ∧ i.stop = next ∧
           i.q = s.wgb.cur.q ∧ i.q4 = q4) ∧
         t.wgb.cur = Interval.new ((s.wgb.cur.ino + 1) % 2 ^ 32) next (s.wgb.nextBoundary next)) ∧
       (∃ c, t.wgb.checkpoint = some c ∧ c.t = next ∧ c.cum = s.wgb.cum)) ∧
     (s.wgb.powered = false ∨ s.wgb.tcxoOk = false → exec .meteringTick s = .next s)) ∧
  (∀ s : State, s.wgb.powered = true → s.wgb.tcxoOk = true →
     (∀ crc, s.wgb.short = none → ∃ t, exec (.closeShort 1 crc) s = .next t ∧ t.wgb = { s.wgb with short := some (s.wgb.t + 20), answer := some (0, []), raised := [] } ∧
       t.cfg = s.cfg ∧ t.pcr = s.pcr) ∧
     (∀ tc, s.wgb.short = some tc → s.wgb.t < tc → ¬ (s.wgb.len ≠ 0 ∧ tc % (s.wgb.len * 10 ^ 7) = 0) → s.wgb.audit.length < 4095 →
       ∃ t, exec .shortBoundary s = .next t ∧ t.wgb.t = tc ∧ t.wgb.short = none ∧
         (∃ i, t.wgb.closing = s.wgb.closing ++ [i] ∧ i.ino = s.wgb.cur.ino ∧ i.start = s.wgb.cur.start ∧ i.stop = tc ∧ i.flags.testBit 0 = true) ∧
         t.wgb.cur.ino = (s.wgb.cur.ino + 1) % 2 ^ 32 ∧ t.wgb.cur.start = tc ∧
         (∃ a, t.wgb.audit = s.wgb.audit ++ [a] ∧ a.kind = 7 ∧ a.t = tc)) ∧
     (∀ tc, s.wgb.short = some tc → s.wgb.t < tc → s.wgb.len ≠ 0 → tc % (s.wgb.len * 10 ^ 7) = 0 →
       ∃ t, exec .shortBoundary s = .next t ∧ t.wgb.t = tc ∧ t.wgb.short = none ∧ t.wgb.audit = s.wgb.audit ∧
         (∃ i, t.wgb.closing = s.wgb.closing ++ [i] ∧ i.ino = s.wgb.cur.ino ∧ i.stop = tc ∧
           i.flags.testBit 0 = s.wgb.cur.flags.testBit 0) ∧ t.wgb.cur.start = tc) ∧
     (s.wgb.short = none → exec .shortBoundary s = .next s))

/-- A tap frame adds to the open interval once; a closing interval commits its counts when all taps have reported.
(R383, R386, R388, R391). Tap frames follow log entry 22. -/
def Obligations.TapFramesAndClosedIntervals : Prop :=
  (∀ (s : State) (fr : Frame) (rest : List Frame), s.wgb.powered = true → s.fab.taps.frames = fr :: rest →
     let occ := fr.occ.foldl (fun acc p => Tab.put 0 acc (fr.tap * 256 + p.1) p.2) s.wgb.occ
     let took := fun (t : State) => t.fab.taps.frames = rest ∧ vget t.wgb.tapSeq 0 fr.tap = (fr.seq + 1) % 2 ^ 32 ∧
       t.wgb.cum = s.wgb.cum ∧ t.wgb.t = s.wgb.t ∧ t.cfg = s.cfg
     (s.wgb.tcxoOk = true → fr.tap < 8 → ∀ i done, s.wgb.closing = i :: done → fr.endT ≤ i.stop → fr.reset = false → fr.full = false →
       vget s.wgb.tapSeq 0 fr.tap = fr.seq → ∃ t, exec (.tapFrameReceive fr.tap false false) s = .next t ∧ took t ∧
         t.wgb.closing = (if i.stop = fr.endT then { i.add fr with seen := addOnce fr.tap i.seen } else i.add fr) :: done ∧
         t.wgb.cur = s.wgb.cur ∧ t.wgb.occ = occ) ∧
     (s.wgb.tcxoOk = true → 8 ≤ fr.tap → fr.tap < 18 → s.wgb.closing = [] → fr.reset = false → vget s.wgb.tapSeq 0 fr.tap = fr.seq →
       ∃ t, exec (.tapFrameReceive fr.tap false false) s = .next t ∧ took t ∧ t.wgb.cur = s.wgb.cur ∧
         vget t.wgb.ctl (0, 0) (fr.tap - 8) = ((vget s.wgb.ctl (0, 0) (fr.tap - 8)).1 + (fr.counts.headD (0, 0, 0, 0)).2.1,
           (vget s.wgb.ctl (0, 0) (fr.tap - 8)).2 + (fr.counts.headD (0, 0, 0, 0)).2.2.1)) ∧
     (s.wgb.tcxoOk = false → fr.tap < 18 → ∀ b1 b2, ∃ t, exec (.tapFrameReceive fr.tap b1 b2) s = .next t ∧ took t ∧
         t.wgb = { s.wgb with tapSeq := t.wgb.tapSeq, raised := [] }) ∧
     (∀ bad, s.wgb.tcxoOk = true → fr.tap < 8 → s.wgb.closing = [] → fr.reset = false → fr.full = false → vget s.wgb.tapSeq 0 fr.tap = fr.seq →
       ∃ t, exec (.tapFrameReceive fr.tap bad false) s = .next t ∧ took t ∧
         t.wgb.cur = s.wgb.cur.add fr ∧ t.wgb.occ = occ ∧ t.wgb.occSeg = t.wgb.occNow ∧
         t.wgb.tapTransient = (if bad then BitVec.ofNat 8 (min 255 (s.wgb.tapTransient.toNat + 1)) else s.wgb.tapTransient) ∧
         t.wgb.closing = []) ∧
     (s.wgb.tcxoOk = true → fr.tap < 18 → s.wgb.audit.length < 4095 → ∃ t, exec (.tapFrameReceive fr.tap true true) s = .next t ∧ took t ∧
         t.wgb.cur = { s.wgb.cur with flags := putBit s.wgb.cur.flags 3 true } ∧
         (∃ a, t.wgb.audit = s.wgb.audit ++ [a] ∧ a.kind = 4) ∧ t.wgb.closing = s.wgb.closing ∧ (196, 0) ∈ t.fab.raised)) ∧
  (∀ (s : State) (i : Interval) (rest : List Interval), s.wgb.powered = true → s.wgb.closing = i :: rest →
     ((∀ k, k < 18 → k ∈ i.seen) → ∀ late, ∃ t, exec (.intervalClose late) s = .next t ∧ t.wgb.closing = rest ∧
       t.wgb.cum = addCounts s.wgb.cum i.counts ∧ (192, 0) ∈ t.fab.raised ∧ (i.flags.testBit 0 = true → (193, 0) ∈ t.fab.raised) ∧
       t.wgb.cur = s.wgb.cur ∧ t.wgb.t = s.wgb.t ∧ t.cfg = s.cfg) ∧
     ((∃ k, k < 18 ∧ k ∉ i.seen) → ∃ t, exec (.intervalClose true) s = .next t ∧ t.wgb.closing = rest ∧
       t.wgb.cum = addCounts s.wgb.cum i.counts ∧ (196, 0) ∈ t.fab.raised ∧ (192, 0) ∈ t.fab.raised) ∧
     ((∃ k, k < 18 ∧ k ∉ i.seen) → ∃ t, exec (.intervalClose false) s = .next t ∧ t.wgb = { s.wgb with raised := [] }))

/-- The Weighbridge keeps its journal through a supply loss and marks the interval of a fault. (R380, R390, R517). The
interval being closed at a supply loss is lost (log entry 21). -/
def Obligations.WeighbridgeSupplyAndClock : Prop :=
  ∀ s : State, let w := s.wgb
    (w.powered = true → ∃ t, exec .wgbPfail s = .next t ∧ t.wgb.pfail = true ∧ t.wgb.ring.getLast? = some w.snapshot ∧ t.wgb.t = w.t ∧
      t.wgb.cur = w.cur ∧ t.cfg = s.cfg) ∧
    (∃ t, exec .weighbridgePowerLoss s = .next t ∧ t.wgb.powered = false ∧ t.wgb.sealed = w.sealed ∧ t.wgb.blocks = w.blocks ∧
      t.wgb.ring = w.ring ∧ t.wgb.audit = w.audit ∧ t.wgb.auditCnt = w.auditCnt ∧ t.wgb.serial = w.serial ∧ t.wgb.patch = w.patch ∧ t.cfg = s.cfg) ∧
    (∀ c, w.powered = false → w.ring.getLast? = some c → w.sealed = true → ∃ t, exec .weighbridgePowerRestore s = .next t ∧
      t.wgb.powered = true ∧ t.wgb.t = c.t ∧ t.wgb.cur.ino = (c.cur.ino + 1) % 2 ^ 32 ∧ t.wgb.cur.start = c.t ∧
      t.wgb.cum = addCounts c.cum c.cur.counts ∧ t.wgb.closing = [] ∧
      (194, 0) ∈ t.fab.raised ∧ t.wgb.sealed = true) ∧
    (w.powered = true → w.tcxoOk = true → w.audit.length < 4095 → ∃ t, exec .timeFault s = .next t ∧ t.wgb.tcxoOk = false ∧ t.wgb.t = w.t ∧
      t.wgb.cur = { w.cur with flags := putBit w.cur.flags 5 true } ∧ (197, 0) ∈ t.fab.raised ∧
      (∃ a, t.wgb.audit = w.audit ++ [a] ∧ a.kind = 3 ∧ a.t = w.t)) ∧
    (w.powered = true → w.tcxoOk = false → ∃ t, exec .timeFaultEnd s = .next t ∧ t.wgb.tcxoOk = true ∧ t.wgb.t = w.t ∧
      (197, 0) ∈ t.fab.raised ∧ t.cfg = s.cfg)

/-- Every readout is its body, a trailer with the nonce and two signature records. (R394, R395, R396). The body of
READ_ID is log entry 20; the signature is a free value (log entry 14). -/
def Obligations.ReadoutsCarryBodyTrailerAndSignature : Prop :=
  ∀ (s : State) (port : Nat) (nonce : BitVec 128), port < 2 → s.wgb.powered = true →
    let w := s.wgb
    let answers := fun (c : Instr) (kind : Nat) (body : List Rec64) => ∃ t, exec c s = .next t ∧
      (∃ tr sig, t.wgb.answer = some (0, body ++ [tr] ++ sig) ∧ sig.length = 2 ∧ (w.sealed = false → sig = [0, 0]) ∧
        bitsOf tr.toNat 0 8 = 0x30 ∧ bitsOf tr.toNat 8 8 = kind % 256 ∧ bitsOf tr.toNat 16 16 = body.length % 65536 ∧
        bitsOf tr.toNat 192 128 = nonce.toNat) ∧
      t.wgb.t = w.t ∧ t.wgb.cum = w.cum ∧ t.wgb.blocks = w.blocks ∧ t.wgb.audit = w.audit ∧ t.cfg = s.cfg
    answers (.readId port nonce true) 3 (w.keyRecs ++ w.ctl.toList.map (fun p => (pack 512 [(0, 64, p.1), (64, 64, p.2)] : Rec64))) ∧
    (port = 0 → answers (.readParams port nonce true) 4 [w.params]) ∧
    (port = 1 → w.audit.length < 4095 → ∃ t, exec (.readParams port nonce true) s = .next t ∧ t.wgb.answer = some (2, []) ∧
      (∃ a, t.wgb.audit = w.audit ++ [a] ∧ a.kind = 1 ∧ a.source = 1) ∧ t.wgb.len = w.len) ∧
    (∀ g lo hi, g ≤ 15 → lo ≤ hi → ((w.range g lo hi).flatMap w.blockRecs).length ≤ 65535 →
      answers (.readIntervals port g lo hi nonce true) 0 ((w.range g lo hi).flatMap w.blockRecs)) ∧
    (∀ first n, 1 ≤ n → first + n ≤ 256 →
      answers (.readCumulative port first n nonce true) 1 ((List.range n).map (fun i => w.cumRec (first + i)))) ∧
    (∀ first n, n ≤ 65535 → answers (.readAudit port first n nonce true) 2 (((w.audit.drop first).take n).map Audit.rec64))

/-- Set-up and sealing on the verification port; a sealed Weighbridge refuses and records. (R378, R381, R396, R397,
R398, R400). Where the CRC is checked is log entry 23. -/
def Obligations.SettingUpSealingAndStewardCommands : Prop :=
  (∀ s : State, s.wgb.powered = true → let w := s.wgb
     (∀ j k, ∃ t, exec (.selfTest 0 j k true) s = .next t ∧ t.wgb.tested = (w.tested || (w.tcxoOk && j && k)) ∧
       t.wgb.answer = some (if w.tcxoOk ∧ j ∧ k then 0 else 4, []) ∧ t.wgb.len = w.len ∧ t.wgb.sealed = w.sealed) ∧
     (∀ l, w.sealed = false → 1 ≤ l → l ≤ 3600 → ∃ t, exec (.setParams 0 l true) s = .next t ∧ t.wgb.len = l ∧ t.wgb.tested = false ∧
       t.wgb.answer = some (0, []) ∧ t.wgb.patch = w.patch) ∧
     (∀ bytes, w.sealed = false → ∃ t, exec (.loadPatch 0 true bytes true) s = .next t ∧ t.wgb.patch = bytes ∧ t.wgb.answer = some (0, []) ∧
       t.wgb.len = w.len) ∧
     (∀ officer date, w.sealed = false → w.len ≠ 0 → w.tested = true → ∃ t,
       exec (.seal 0 true (w.serial.extractLsb' 0 32) officer date true) s = .next t ∧ t.wgb.sealed = true ∧ t.wgb.t = 0 ∧
       t.wgb.cur = Interval.new 0 0 (w.len * 10 ^ 7) ∧ t.wgb.cum = [] ∧ t.wgb.blocks = [] ∧ t.wgb.audit = [] ∧ t.wgb.auditCnt = 0 ∧
       t.wgb.officer = officer ∧ t.wgb.sealDate = date ∧ t.wgb.len = w.len ∧ t.wgb.patch = w.patch) ∧
     (w.sealed = true → w.audit.length < 4095 → ∀ pin l bytes confirm officer date,
       ∀ c ∈ [(Instr.setParams 0 l true, 0x10), (.loadPatch 0 pin bytes true, 0x11), (.seal 0 pin confirm officer date true, 0x12)],
         ∃ t, exec c.1 s = .next t ∧ t.wgb.answer = some (2, []) ∧ t.wgb.auditCnt = min (2 ^ 32 - 1) (w.auditCnt + 1) ∧
           (∃ a, t.wgb.audit = w.audit ++ [a] ∧ a.kind = 1 ∧ a.source = 0 ∧ bitsOf a.detail.toNat 0 8 = c.2) ∧ t.wgb.len = w.len ∧ t.wgb.patch = w.patch ∧ t.wgb.sealDate = w.sealDate)) ∧
  (∀ s : State, s.wgb.powered = true → let w := s.wgb
     (∀ crc, ∃ t, exec (.markFailover 1 crc) s = .next t ∧ t.wgb.cur = { w.cur with flags := putBit w.cur.flags 2 true } ∧
       t.wgb.answer = some (0, []) ∧ t.wgb.t = w.t ∧ t.wgb.cum = w.cum ∧ t.cfg = s.cfg) ∧
     (∀ civil crc, w.tcxoOk = true → w.audit.length < 4095 → ∃ t, exec (.timeNote 1 civil crc) s = .next t ∧
       (∃ a, t.wgb.audit = w.audit ++ [a] ∧ a.kind = 8 ∧ a.t = w.t ∧ a.detail.toNat = civil.toNat) ∧
       t.wgb.auditCnt = w.auditCnt ∧ t.wgb.answer = some (0, []) ∧ t.cfg = s.cfg) ∧
     (∀ crc, ∃ (t : State) (r : Rec64), exec (.status 1 crc) s = .next t ∧ t.wgb = { w with answer := some (0, [r]), raised := [] } ∧
       bitsOf r.toNat 0 32 = w.stat.toNat ∧ bitsOf r.toNat 32 32 = w.cur.ino % 2 ^ 32 ∧ bitsOf r.toNat 64 32 = w.auditCnt % 2 ^ 32 ∧ t.cfg = s.cfg) ∧
     (∀ nonce, ∃ t, exec (.readId 0 nonce false) s = .next t ∧ t.wgb = { w with answer := some (3, []), raised := [] }))

/-- Power-on and device reset restore every register and keep the Weighbridge, journals and fuses. (R336, R470, R529,
R552). Where start-up resumes after a device reset is log entry 70. -/
def Obligations.ResetsStartTheDeviceAnew : Prop :=
  ∀ s : State,
    let kept := fun (t : State) => t.cfg = Cfg.reset ∧ t.irq = Irq.init ∧ t.fab.txns = [] ∧ t.fab.mem.hbm = [] ∧ t.fab.accepting = false ∧
      (∀ m, m < 17 → t.stw.mb m = Mbox.init) ∧ t.stw.up = false ∧ t.wgb = s.wgb ∧ t.stw.jrnl.entries = s.stw.jrnl.entries ∧
      t.stw.jrnl.nextSeq = s.stw.jrnl.nextSeq ∧ t.stw.slots = s.stw.slots ∧ t.stw.rollback = s.stw.rollback ∧
      t.fab.gln.fuses = s.fab.gln.fuses ∧ t.fab.uid = s.fab.uid ∧ t.pending = s.pending
    let device := fun (t : State) => kept t ∧ t.pcr.startup = 2 ∧ t.pcr.deviceRst = true ∧ t.pcr.powerOn = false ∧ t.pcr.aon = s.pcr.aon ∧
      t.pcr.pairRole = s.pcr.pairRole ∧ t.pcr.smbAddr = s.pcr.smbAddr ∧ t.pcr.railFar = s.pcr.railFar ∧ t.pcr.sysClk = s.pcr.sysClk
    (∃ t, exec .powerOnReset s = .next t ∧ kept t ∧ t.pcr.porst = true ∧ t.pcr.powerOn = true ∧ t.pcr.startup = 0 ∧ t.pcr.pd = 0x40000000) ∧
    (∀ role smb, s.pcr.porst = true → ∃ t, exec (.porstRelease role smb false) s = .next t ∧ t.pcr.porst = false ∧
      t.pcr.pairRole = role ∧ t.pcr.smbAddr = smb ∧ t.fab.twin.strap = role ∧ t.pcr.startup = (if s.pcr.railFar = [] then 1 else 0) ∧
      t.cfg = s.cfg ∧ t.stw = s.stw ∧ t.irq = s.irq ∧ t.wgb = s.wgb) ∧
    (∀ role smb, s.pcr.porst = true → exec (.porstRelease role smb true) s = .fault .manufacturingTest) ∧
    (s.pcr.porst = false → s.pcr.supplyHold = false → ∃ t, exec .jtagDeviceReset s = .next t ∧ device t) ∧
    (s.pcr.porst = false → s.pcr.supplyHold = false → s.stw.resetDue = true → ∃ t, exec .deviceResetStart s = .next t ∧ device t) ∧
    (s.stw.resetDue = false → exec .deviceResetStart s = .next s)

/-- Start-up and memory bring-up run their steps, each when its condition holds. (R286, R287, R288, R290, R338, R409,
R531, R532). The steps at which configuration words are applied are log entries 78 and 81. -/
def Obligations.StartAndBringUpRunTheirSteps : Prop :=
  (∀ s : State, s.pcr.porst = false → s.pcr.supplyHold = false → s.pcr.pf = 0 → s.pcr.quiescent = false →
     let gives := fun (p : State → Prop) => ∃ u : State, exec .startupStepEnd s = .next (s.followed u) ∧ p u ∧
       (s.followed u).cfg = u.cfg ∧ (s.followed u).pcr = u.pcr
     (s.pcr.startup = 1 → gives (fun u => u = { s with pcr := { s.pcr with startup := 2 } })) ∧
     (s.pcr.startup = 2 → gives (fun u => u.pcr = { s.pcr with startup := 3, pd := s.pcr.pd ||| 0x10000200 } ∧
       u.stw.loading = some (s.stw.jrnl.preferred, false) ∧ u.stw.up = false ∧ u.cfg = s.cfg ∧ u.fab = s.fab)) ∧
     (s.pcr.startup = 3 → gives (fun u => u = if s.stw.up = true ∧ s.stw.safe = false then { s with pcr := { s.pcr with startup := 4 } } else s)) ∧
     (s.pcr.startup = 4 → gives (fun u => u.cfg = { Cfg.reset with wlp := s.stw.jrnl.appliedCfg.wlp, twn := s.stw.jrnl.appliedCfg.twn } ∧
       u.pcr.startup = 5 ∧ u.pcr.unclean = s.stw.jrnl.uncleanStart.1 ∧ u.pcr.noWarning = s.stw.jrnl.uncleanStart.2 ∧
       u.pcr.bring.hbmStep = 1 ∧ u.pcr.bring.ddrStep = 4 ∧ (s.stw.jrnl.uncleanStart.1 = true → (228, 0) ∈ u.fab.raised) ∧
       (∀ i, i < 32 → u.fab.links.toList[i]? = some (Link.init (if s.stw.jrnl.appliedCfg.halfUsed i then .detect else .disabled))))) ∧
     (s.pcr.startup = 5 → gives (fun u => u = if s.pcr.bring.hbmStep = 4 ∧ s.pcr.bring.ddrStep = 8
       then { s with pcr := { s.pcr with startup := 7 } } else s)) ∧
     (s.pcr.startup = 7 → gives (fun u => u.pcr = { s.pcr with startup := 8 } ∧ u.fab.epoch = min 0xFFFFFFFF (s.stw.jrnl.committed + 1) ∧
       u.cfg = (if s.pcr.bring.stackFailed = true ∨ s.pcr.bring.cap = 0 then s.stw.jrnl.appliedCfg.disabled else s.stw.jrnl.appliedCfg) ∧
       u.stw.staged = u.cfg ∧ (∃ es, u.stw.jrnl.entries = s.stw.jrnl.entries ++ es ∧ (∃ e ∈ es, e.rtype = 0x10 ∧ e.key = 1)) ∧ u.irq = s.irq)) ∧
     (s.pcr.startup = 8 → s.fab.portHeld = [] → gives (fun u => u.pcr = { s.pcr with startup := 9, byDevice := false } ∧ u.cfg = s.cfg ∧
       u.stw = s.stw ∧ u.fab = (let f : Fabric := ((({ s.fab with draining := false, accepting := true } : Fabric).answerHeld s.cfg).flow s.cfg)
                                if s.pcr.byDevice then f.raise 229 else f)))) ∧
  (∀ (s : State) (r : BringIn), s.pcr.startup = 5 →
     let b := s.pcr.bring
     let h := fun (x : Bring) k => vget x.hbc ⟨0, 0, 0, 0, false⟩ k
     let d := fun (x : Bring) c => vget x.ddc DdcStat.zero c
     let common := commonGeo (b.ddc.toList.map (·.geo))
     let rows := (List.range s.fab.gln.repairs.length).filter (fun i =>
       match s.fab.gln.repairs[i]? with | some x => 4 ≤ x.block && x.block < 10 && x.state = 2 | none => false)
     (1 ≤ b.hbmStep → b.hbmStep < 4 → ∃ t, exec (.memoryBringupStepEnd false r.fails r.lanes r.geo r.toDimmIn) s = .next t ∧
       t.pcr.bring.hbmStep = b.hbmStep + 1 ∧ t.pcr.bring.ddrStep = b.ddrStep ∧ t.pcr.bring.ddc = b.ddc ∧ t.cfg = s.cfg ∧ t.stw = s.stw ∧
       (∀ k, k < 4 → (b.hbmStep = 1 → (h t.pcr.bring k).laneRep = r.lanes.getD k 0) ∧
         (b.hbmStep < 3 → (h b k).train ≠ 3 → (h t.pcr.bring k).train =
           if r.fails.toNat.testBit k then 3 else if b.hbmStep = 2 then 2 else (h b k).train) ∧
         ((h b k).train = 3 → (h t.pcr.bring k).train = 3) ∧
         (b.hbmStep < 3 → (h b k).train = 1 → r.fails.toNat.testBit k = true → (96 + k, 0) ∈ t.fab.raised))) ∧
     (b.ddrStep = 4 → ∃ t, exec (.memoryBringupStepEnd true r.fails r.lanes r.geo r.toDimmIn) s = .next t ∧ t.cfg = s.cfg ∧ t.stw = s.stw ∧ t.fab = s.fab ∧
       t.pcr.bring.ddrStep = 5 ∧ (∀ i, i < 24 → vget t.pcr.bring.spd none i = r.spd.getD i none ∧
         vget t.pcr.bring.dimms none i = r.dimms.getD i none)) ∧
     (b.ddrStep = 5 → ∃ t, exec (.memoryBringupStepEnd true r.fails r.lanes r.geo r.toDimmIn) s = .next t ∧ t.cfg = s.cfg ∧ t.pcr.bring.ddrStep = 6 ∧
       t.pcr.bring.hbc = b.hbc ∧ (∀ c, c < 12 → (112 + c, 0) ∈ t.fab.raised ∧
         (∀ g, r.outcomes.getD c false = true → s.savedGeo c = some g → (d t.pcr.bring c).train = 2 ∧ (d t.pcr.bring c).geo = g) ∧
         (r.outcomes.getD c false = false ∨ s.savedGeo c = none →
           (r.fails.toNat.testBit c = true → (d t.pcr.bring c).train = 3 ∧ (d t.pcr.bring c).geo = ⟨0, 0, 0, 0, 0⟩) ∧
           (r.fails.toNat.testBit c = false → (d t.pcr.bring c).train = 2 ∧
             let g := b.usable c (r.geo.getD c ⟨0, 0, 0, 0, 0⟩)
             (d t.pcr.bring c).geo = g ∧
             t.stw.jrnl.last 0x40 c = some ([g.dimms, g.ranks, g.logic, g.speed, g.dens] ++ b.trainKey c))))) ∧
     (b.ddrStep = 6 → ∃ t, exec (.memoryBringupStepEnd true r.fails r.lanes r.geo r.toDimmIn) s = .next t ∧ t.cfg = s.cfg ∧ t.pcr.bring.ddrStep = 7 ∧
       t.fab.gln.repairs.length = s.fab.gln.repairs.length ∧
       (∀ i, i ∉ rows → t.fab.gln.repairs[i]? = s.fab.gln.repairs[i]?) ∧
       (∀ (p : Nat × Nat) (x : Repair), p ∈ rows.zipIdx → s.fab.gln.repairs[p.1]? = some x →
         let ok := r.outcomes.getD p.2 true
         t.fab.gln.repairs[p.1]? = some { (x : Repair) with state := if ok then 4 else 3 } ∧ (112 + x.channel, 0) ∈ t.fab.raised ∧
         (ok = false → x.channel < 12 → (d t.pcr.bring x.channel).out = true))) ∧
     (b.ddrStep = 7 → ∃ t, exec (.memoryBringupStepEnd true r.fails r.lanes r.geo r.toDimmIn) s = .next t ∧ t.cfg = s.cfg ∧ t.stw = s.stw ∧ t.pcr.bring.ddrStep = 8 ∧
       t.pcr.bring.cap = min 6144 common.capacity ∧
       (∀ c, c < 12 → (d t.pcr.bring c).idle = min 15 (b.installed c - common.rankCount) ∧ (d t.pcr.bring c).dpc2 = decide (common.dimms = 2) ∧
         (d t.pcr.bring c).speed = BitVec.ofNat 2 common.speed) ∧
       ((∃ c, c < 12 ∧ (b.installed c ≠ common.rankCount ∨ ∃ x ∈ b.chanDimms c, x.dens ≠ common.dens)) → (125, 0) ∈ t.fab.raised) ∧
       ((∀ c, c < 12 → b.installed c = common.rankCount ∧ ∀ x ∈ b.chanDimms c, x.dens = common.dens) → t.fab.raised = s.fab.raised)))

/-- Watchdog expiry, image checks and activation restart the Steward as the rules give. (R337, R409, R410, R413,
R468). The second and third expiry follow log entry 65; verification is a free value (log entry 15). -/
def Obligations.TheStewardRestarts : Prop :=
  ∀ s : State,
    (s.stw.up = true → s.stw.safe = false → (∀ e, s.stw.lastExpiry = some e → e + 1000000 ≤ s.pcr.aon) → ∃ t, exec .watchdogExpiry s = .next t ∧
      t.stw.up = false ∧ t.stw.loading = some (s.stw.running, false) ∧ t.stw.lastExpiry = some s.pcr.aon ∧ t.stw.otherTried = false ∧ (227, 0) ∈ t.fab.raised ∧
      t.pcr.restarts = satAdd 8 s.pcr.restarts 1 ∧ t.cfg = s.cfg ∧ t.stw.jrnl = s.stw.jrnl ∧ t.stw.step = s.stw.step ∧ t.fab.txns = s.fab.txns ∧
      (∀ m, m < 17 → t.stw.mb m = if (s.stw.mb m).unfinished then { s.stw.mb m with rerun := true } else s.stw.mb m)) ∧
    (∀ e, s.stw.up = true → s.stw.safe = false → s.stw.lastExpiry = some e → s.pcr.aon < e + 1000000 → s.stw.otherTried = false →
      ∃ t, exec .watchdogExpiry s = .next t ∧ t.stw.up = false ∧ t.stw.loading = some (1 - s.stw.running, true) ∧ t.stw.otherTried = true ∧
      t.stw.lastExpiry = some s.pcr.aon ∧ (227, 0) ∈ t.fab.raised ∧ t.cfg = s.cfg ∧ t.fab.txns = s.fab.txns ∧
      (s.stw.trial = none → t.stw.jrnl = s.stw.jrnl) ∧
      (∀ old, s.stw.trial = some old → (241, 0) ∈ t.fab.raised ∧ t.stw.trial = none ∧ t.stw.jrnl.preferred = old % 2)) ∧
    (∀ e, s.stw.up = true → s.stw.safe = false → s.stw.lastExpiry = some e → s.pcr.aon < e + 1000000 → s.stw.otherTried = true →
      ∃ t, exec .watchdogExpiry s = .next t ∧ t.stw.safe = true ∧ t.stw.running = 2 ∧ t.stw.loading = none ∧ t.cfg = s.cfg ∧
      (227, 0) ∈ t.fab.raised ∧ t.stw.jrnl = s.stw.jrnl ∧
      (s.fab.twin.pair ≠ .single → t.fab.twin.sentCtl = s.fab.twin.sentCtl ++ [(4, 0)])) ∧
    (s.stw.up = false → exec .watchdogExpiry s = .next s) ∧
    (∀ slot last spi, s.stw.loading = some (slot, last) → s.on 28 = true → ∃ u : State, exec (.bootImageCheck spi) s = .next (s.followed u) ∧
      u.cfg = s.cfg ∧ u.stw.jrnl = s.stw.jrnl ∧ u.stw.slots = s.stw.slots ∧ (spi = true → (242, 0) ∈ u.fab.raised) ∧
      (if spi = false ∧ s.stw.verify slot = 0 then
        u.stw.running = slot ∧ u.stw.version = (vget s.stw.slots FlashSlot.init slot).version ∧ u.stw.loading = none ∧ u.stw.safe = s.stw.safe ∧
          u.stw.up = decide (s.pcr.startup = 3)
      else if last = false then u.stw.loading = some (1 - slot, true) ∧ u.stw.up = s.stw.up
      else u.stw.safe = true ∧ u.stw.running = 2 ∧ u.stw.loading = none ∧ (227, 0) ∈ u.fab.raised)) ∧
    (s.stw.up = false → s.stw.loading = none → s.on 28 = true → 4 ≤ s.pcr.startup → s.stw.step = 0 →
      ∃ u : State, exec .stewardRestartEnd s = .next (s.followed u) ∧ u = s.modStw (fun w => { w with up := true })) ∧
    (s.stw.activating = true → ∃ t, exec .activationRestart s = .next t ∧ t.stw.activating = false ∧ t.stw.up = false ∧
      t.stw.loading = some (s.stw.jrnl.preferred, false) ∧ (227, 0) ∈ t.fab.raised ∧ t.cfg = s.cfg ∧ t.stw.slots = s.stw.slots) ∧
    (s.stw.up = true → s.stw.trial.isSome = true → s.stw.running = s.stw.jrnl.preferred → ∃ t, exec .activationAccepted s = .next t ∧
      t.stw.accepted = true ∧ t.stw.trial = none ∧ t.stw.jrnl.accepted s.stw.running = true ∧ (241, 0) ∈ t.fab.raised ∧
      t.stw.running = s.stw.running ∧ t.cfg = s.cfg)

/-- PERST_N resets the endpoint alone; the PCIe and Steward domains go off and on as the rules give. (R336, R429,
R491, R522, R523, R524, R525, R526). Mailboxes over a PCIe power-off follow log entry 72. -/
def Obligations.PciExpressResetAndDomains : Prop :=
  ∀ s : State,
    (∃ t, exec .perstAssert s = .next t ∧ t.irq = s.irq.discardClaims ∧ t.pcr = { s.pcr with perst := true, perstSeen := true } ∧
      t.cfg = s.cfg ∧ t.stw.jrnl = s.stw.jrnl ∧ t.stw.mb 16 = s.stw.mb 16 ∧ t.wgb = s.wgb ∧ t.fab.txns = s.fab.txns ∧
      t.pci = { Pci.init with out := s.pci.out, shadow := s.pci.shadow, timeHi := s.pci.timeHi } ∧
      (∀ m, m < 16 → t.stw.mb m = (s.stw.mb m).perst ∧ ((s.stw.mb m).st = .done → (200 + m, 2) ∈ t.fab.raised))) ∧
    (s.on 9 = true → exec .perstDeassert s = .next { s with pcr := { s.pcr with perst := false } }) ∧
    (s.on 9 = false → s.on 28 = true → s.started = true → ∃ t, exec .perstDeassert s = .next t ∧ t.pcr.perst = false ∧ t.on 9 = true ∧
      t.irq = s.irq.handOver ∧ t.fab = s.fab ∧ t.stw = s.stw ∧ t.cfg = s.cfg) ∧
    (s.on 9 = false → s.on 28 = false → s.started = true → ∃ t, exec .perstDeassert s = .next t ∧ t.pcr.perst = false ∧ t.on 9 = true ∧
      t.on 28 = true ∧ t.irq = s.irq.handOver ∧ t.fab = s.fab ∧ t.stw.loading = some (s.stw.jrnl.preferred, false) ∧ t.cfg = s.cfg) ∧
    (s.pcieMayStop = true → s.pcr.stopped = false → ∃ t, exec .pcieDomainOff s = .next t ∧ t.on 9 = false ∧ (∀ d, d < 32 → d ≠ 9 → t.on d = s.on d) ∧
      t.irq = s.irq.powerOff ∧ t.cfg = s.cfg ∧ t.fab = s.fab ∧ (∀ m, m < 16 → t.stw.mb m = if (s.stw.mb m).st = .busy then s.stw.mb m else Mbox.init)) ∧
    (s.pcieMayStop = false → exec .pcieDomainOff s = .next s) ∧
    (s.started = true → s.on 28 = false → ∃ t, exec .smbusAddressMatch s = .next t ∧ t.on 28 = true ∧
      t.stw.loading = some (s.stw.jrnl.preferred, false) ∧ t.fab = s.fab ∧ t.cfg = s.cfg ∧ t.irq = s.irq) ∧
    (s.on 28 = true → exec .smbusAddressMatch s = .next s)

/-- Power failure drains DDR5 writes and stops; supply, heat and clock conditions follow their causes. (R339, R341,
R518, R521, R525, R527, R528, R542). Readings under power-on reset are ignored (log entry 77); the places in the
record are log entry 63. -/
def Obligations.PowerFailureAndConditions : Prop :=
  (∀ s : State, s.pcr.porst = false → s.pcr.supplyHold = false →
     (s.pcr.pf = 0 → s.pcr.quiescent = false → exec .pwrFailAssert s =
       .next { s with pcr := { s.pcr with pf := 1, pfCause := putBit s.pcr.pfCause 0 true } }) ∧
     (s.pcr.pf = 1 → exec .powerFailStepEnd s = .next { s with pcr := { s.pcr with pf := 2 } }) ∧
     (s.pcr.pf = 2 → ∃ t, exec .powerFailStepEnd s = .next t ∧ t.pcr = { s.pcr with pf := 3 } ∧ t.fab.txns = [] ∧ t.fab.hrw.descs = [] ∧
       t.fab.mem.hq = [] ∧ t.fab.mem.dq = s.fab.mem.dq.filter (fun r => r.write && r.acc) ∧ t.fab.mem.ddr = s.fab.mem.ddr ∧ t.fab.accepting = false ∧
       t.cfg = s.cfg ∧ t.stw = s.stw ∧ t.wgb = s.wgb) ∧
     (s.pcr.pf = 3 → ∃ t, exec .powerFailStepEnd s = .next t ∧ t.pcr = { s.pcr with pf := 4, pfWrites := s.fab.mem.dq.length } ∧
       t.fab.mem.ddr = s.fab.mem.dq.foldl putWord s.fab.mem.ddr ∧ t.fab.mem.dq = [] ∧ t.stw = s.stw ∧ t.cfg = s.cfg) ∧
     (s.pcr.pf = 4 → ∃ t, exec .powerFailStepEnd s = .next t ∧ t.pcr.pf = 5 ∧ t.pcr.stopped = true ∧ t.pcr.selfRef = true ∧
       t.fab.mem.ddr = s.fab.mem.ddr ∧ t.fab.mem.hbm = [] ∧ t.stw = s.stw ∧ t.cfg = s.cfg ∧ t.irq = s.irq ∧ t.wgb = s.wgb) ∧
     (s.pcr.pf = 5 → s.pcr.pfCause.testBit 1 = false → ∃ t, exec .powerFailStepEnd s = .next t ∧ t.pcr.pf = 0 ∧ t.pcr.quiescent = true ∧
       (∃ e, t.stw.jrnl.entries = s.stw.jrnl.entries ++ [e] ∧ e.rtype = 0x12 ∧
         e.body = [1] ++ leBytes s.fab.epoch 4 ++ leBytes s.fab.time.toNat 8 ++ [5] ++ leBytes s.pcr.pfWrites 4 ++ [s.pcr.pfCause % 8]) ∧
       t.fab = s.fab ∧ t.cfg = s.cfg)) ∧
  (∀ s : State,
     (∀ rail, rail < 8 → ∃ t, exec (.railMonitor rail false) s = .next t ∧ t.pcr.railNear = addOnce rail s.pcr.railNear ∧
       t.pcr.cond.toNat.testBit 4 = true ∧ (s.pcr.cond.toNat.testBit 4 = false → (220, 1) ∈ t.fab.raised) ∧
       t.cfg = s.cfg ∧ t.stw = s.stw ∧ t.pcr.pf = s.pcr.pf) ∧
     (∀ rail, rail < 8 → s.pcr.porst = false → s.pcr.supplyHold = false → s.pcr.pf = 0 → s.pcr.quiescent = false →
       ∃ t, exec (.railMonitor rail true) s = .next t ∧ t.pcr.pf = 2 ∧ t.pcr.pfCause = putBit s.pcr.pfCause 1 true ∧
         t.pcr.railFar = addOnce rail s.pcr.railFar ∧ t.cfg = s.cfg ∧ t.stw = s.stw) ∧
     (∀ rail, s.pcr.supplyHold = true → s.pcr.porst = false → (∀ r ∈ s.pcr.railFar, r = rail) → ∃ t, exec (.railBackInRange rail) s = .next t ∧
       t.pcr.supplyHold = false ∧ t.pcr.startup = 1 ∧ t.pcr.railFar = [] ∧ rail ∉ t.pcr.railNear ∧ t.cfg = s.cfg) ∧
     (∀ sensor idx value cl, s.pcr.porst = false → s.pcr.supplyHold = false → ∃ t, exec (.thermalReading sensor idx value cl) s = .next t ∧
       t.cfg = s.cfg ∧ t.stw = s.stw ∧ t.irq = s.irq ∧ (sensor = 0 → idx < 4 → (vget t.pcr.bring.hbc ⟨0, 0, 0, 0, false⟩ idx).temp = min 255 value) ∧
       (sensor = 1 → idx < 24 → vget t.pcr.bring.dimm 0xFF idx = min 255 value) ∧ (sensor = 2 → idx < 8 → vget t.pcr.bring.die 0 idx = min 255 value) ∧
       (sensor = 3 → t.pcr.bring.current = min 65535 value) ∧
       (t.pcr.cond.toNat.testBit 0 = true ↔ ∃ k, k < 8 ∧ 100 < vget t.pcr.bring.die 0 k) ∧
       (t.pcr.cond.toNat.testBit 1 = true ↔ ∃ k, k < 4 ∧ 95 < (vget t.pcr.bring.hbc ⟨0, 0, 0, 0, false⟩ k).temp) ∧
       (t.pcr.cond.toNat.testBit 2 = true ↔ ∃ k, k < 24 ∧ vget t.pcr.bring.dimm 0xFF k ≠ 0xFF ∧ 85 < vget t.pcr.bring.dimm 0xFF k) ∧
       (t.pcr.cond.toNat.testBit 3 = true ↔ 2100 < t.pcr.bring.current) ∧
       (t.pcr.cond.toNat.testBit 7 = true ↔ t.pcr.thrHbm ≠ 0 ∨ t.pcr.thrDie = true ∨ t.pcr.thrCur = true) ∧
       (∀ i, i < 8 → t.pcr.cond.toNat.testBit i ≠ s.pcr.cond.toNat.testBit i →
         (216 + i, if t.pcr.cond.toNat.testBit i then 1 else 2) ∈ t.fab.raised) ∧
       (t.pcr.bring.trips = true → t.pcr.thermtrip = true ∧ (s.pcr.thermtrip = false → s.pcr.pf = 0 → s.pcr.quiescent = false → t.pcr.pf = 2))) ∧
     (∃ t, exec .sysClkMissing s = .next t ∧ t.pcr.sysClk = false ∧ t.pcr.cond.toNat.testBit 5 = true ∧ t.pcr.trimmed = s.pcr.trimmed ∧ t.cfg = s.cfg ∧ t.stw = s.stw) ∧
     (∃ t, exec .sysClkReturn s = .next t ∧ t.pcr.sysClk = true ∧ t.pcr.cond.toNat.testBit 5 = false ∧ t.cfg = s.cfg ∧ t.stw = s.stw) ∧
     (∃ u : State, exec .refclkMissing s = .next (s.followed u) ∧ u.pcr.refClk = false ∧ u.pcr.cond.toNat.testBit 6 = true ∧ u.cfg = s.cfg ∧
       (∀ a, a < 33 → (u.fab.link a).st = if (s.fab.link a).st = .active then .recovery else (s.fab.link a).st)) ∧
     (∃ t, exec .refclkReturn s = .next t ∧ t.pcr.refClk = true ∧ t.pcr.cond.toNat.testBit 6 = false ∧ t.fab.links = s.fab.links ∧ t.cfg = s.cfg) ∧
     (s.pcr.sysClk = true → exec .oscillatorTrim s = .next { s with pcr := { s.pcr with trimmed := true } }) ∧
     (s.pcr.sysClk = false → exec .oscillatorTrim s = .next s))

/-- A link moves through its states as Table 2.8 gives, keeping replay through Recovery. (R56, R57, R59, R60, R61).
The link layer follows the choices of log entries 34 and 91. -/
def Obligations.LinksTrainAndRecover : Prop :=
  ∀ (s : State) (a : Nat), s.linkOn a = true → let l := s.fab.link a
    let fresh := fun (x : Link) => { x with pairBad := 0, pairGood := 0 }
    let gives := fun (c : Instr) (x : Link) => exec c s = .next (s.after (s.fab.setLink a x))
    let event := fun (c : Instr) (x : Link) => exec c s = .next (s.after ((s.fab.setLink a x).raise (2 * (a / 2))))
    let gone := if a ≠ 32 ∧ s.fab.admitted a = true then s.fab.depart s.cfg a else s.fab
    let m := gone.link a
    let down := fun (x : Link) => { x with resume := none, decl := none, held := none, rate := 0, st := .detect }
    let off := { m with fails := 0, decl := none, held := none, resume := none, st := .disabled }
    let half := s.cfg.isHalf a
    let phys := fun (faults : BitVec 8) => if half = true ∧ a % 2 = 1 then (faults &&& 0x0F) <<< 4 else if half = true then faults &&& 0x0F else faults
    let marked := fun (faults : BitVec 8) => ({ s.fab with laneFault := vmod s.fab.laneFault (a / 2) (fun x => x ||| phys faults) } : Fabric)
    let low := fun (faults : BitVec 8) => faults.extractLsb' 0 4
    let high := fun (faults : BitVec 8) => faults.extractLsb' 4 4
    (∀ offer, l.st = .detect → gives (.laneDetect a offer) (fresh { l with
      st := .polling, width := if a ≠ 32 ∧ s.cfg.isHalf a = true then 1 else 0,
      rate := BitVec.ofNat 2 (min 2 (max (if a = 32 then 0 else (s.cfg.maxRate (a / 2)).toNat) offer)) })) ∧
    (l.st = .polling → gives (.pollingComplete a) (fresh { l with st := .configure })) ∧
    (l.st = .polling → l.rate.toNat < 2 → gives (.pollingTimeout a) { l with rate := l.rate + 1 }) ∧
    (l.st = .polling → 2 ≤ l.rate.toNat → l.resume = none → gives (.pollingTimeout a) (fresh (down l))) ∧
    (l.st = .configure → m.fails < 2 → exec (.configureTimeout a) s = .next (s.after (gone.setLink a (fresh { down m with fails := m.fails + 1 })))) ∧
    (a < 32 → l.st = .configure → 2 ≤ m.fails →
      exec (.configureTimeout a) s = .next (s.after ((gone.setLink a (fresh off)).raise (2 * (a / 2))))) ∧
    (l.st = .declare → l.held = none → m.fails < 2 → exec (.declareTimeout a) s = .next (s.after (gone.setLink a (fresh { down m with fails := m.fails + 1 })))) ∧
    (a < 32 → l.st = .declare → l.held = none → 2 ≤ m.fails →
      exec (.declareTimeout a) s = .next (s.after ((gone.setLink a (fresh off)).raise (2 * (a / 2))))) ∧
    (a < 32 → l.st = .recovery → (l.resume = none ∨ l.resume = some .active) → event (.recoveryComplete a) (Link.pump portKind
      (fresh { l with resume := none, st := .active, wire := l.wire ++ l.replay.map (fun p => refreshFlit p.2 (l.rxNext - 1) l.nak) }))) ∧
    (a < 32 → l.st = .recovery → l.resume = some .declare → gives (.recoveryComplete a) (fresh { l with resume := none, st := .declare })) ∧
    (∀ faults, a < 32 → l.st = .recovery → s.cfg.allowDegrade (a / 2) = true → l.rate.toNat < 2 →
      (if half = true then faults = 0#8 else l.width = 0 → (low faults = 0#4 ↔ high faults = 0#4)) →
      exec (.recoveryTimeout a faults) s = .next (s.after (((marked faults).setLink a (fresh { l with rate := l.rate + 1, st := .polling })).flow s.cfg))) ∧
    (∀ faults, a < 32 → l.st = .recovery → s.cfg.allowDegrade (a / 2) = true → half = false → l.width = 0 →
      ¬ (low faults = 0#4 ↔ high faults = 0#4) →
      exec (.recoveryTimeout a faults) s = .next (s.after (((marked faults).setLink a (fresh { l with
        rxCap := devGrant true, width := if low faults = 0#4 then 2 else 3, st := .polling })).flow s.cfg))) ∧
    (∀ faults, a < 32 → l.st = .recovery →
      (s.cfg.allowDegrade (a / 2) = false ∨ (half = true ∧ faults ≠ 0#8) ∨
        (2 ≤ l.rate.toNat ∧ (half = true ∨ l.width ≠ 0 ∨ (low faults = 0#4 ↔ high faults = 0#4)))) →
      let g := ((marked faults).setLink a (fresh
        { l with replay := [], replayOf := none, txq := [], part := none, resume := none, st := .fenced })).raise (2 * (a / 2))
      exec (.recoveryTimeout a faults) s = .next (s.after ((if l.decl.isSome = true then g.depart s.cfg a else g).flow s.cfg))) ∧
    (a < 32 → l.stopSeq = true → (l.st = .fenced ∨ l.st = .disabled) → (s.fab.ordOf a).items = [] → (s.fab.ordOf a).short = [] →
      (s.cfg.halfUsed a = true → gives (.linkBuffersEmpty a) (Link.init .detect)) ∧
      (s.cfg.halfUsed a = false → l.st = .disabled → gives (.linkBuffersEmpty a) (Link.init .disabled)) ∧
      (s.cfg.halfUsed a = false → l.st = .fenced → event (.linkBuffersEmpty a) (Link.init .disabled))) ∧
    ((l.stopSeq = false ∨ (l.st ≠ .fenced ∧ l.st ≠ .disabled)) → exec (.linkBuffersEmpty a) s = .next (s.after s.fab))

/-- Flits are taken in sequence, lost ones asked for again, and declarations checked or held. (R34, R35, R36, R51,
R52, R53, R54, R63, R64, R65, R66, R67). The link layer follows the choices of log entries 34 and 91. -/
def Obligations.LinksCarryPairsAndDeclarations : Prop :=
  (∀ (s : State) (a : Nat), a < 32 → s.linkOn a = true → let l := s.fab.link a
     let gives := fun (c : Instr) (x : Link) => exec c s = .next (s.after (s.fab.setLink a x))
     let header := fun (hdr : BitVec 40) => hdr.extractLsb' 0 16 = 0x5AC3#16 ∧ hdr.extractLsb' 16 8 = l.pairExp
     let idle := fun (n : Flit) => flitGood n = true ∧ flType n = 0 ∧ nullClean n = true ∧ flAck n = l.ackIn ∧ flNak n = false
     (∀ errA errB hdr flits, l.st = .active → l.stopSeq = false → (15 < errA ∨ 15 < errB) → flits.length = 5 →
       (∀ f ∈ flits, flType f ≠ 1 ∨ flSeq f ≠ l.rxNext) →
       gives (.codewordPairReceived a errA errB hdr flits) (Link.sendNull (Link.pump portKind
         { l with pairExp := l.pairExp + 1, nak := true, resets := 0, err := { l.err with fecUncorr := bvSat l.err.fecUncorr 1 } }))) ∧
     (∀ errA errB hdr f ns, l.st = .active → l.stopSeq = false → errA ≤ 15 → errB ≤ 15 → header hdr → ns.length = 4 → (∀ n ∈ ns, idle n) →
       flitGood f = true → flType f = 1 → flSeq f = l.rxNext → flAck f = l.ackIn → flNak f = false →
       (∀ c ∈ flCredits f, c.1 = 0 ∨ c.1 = 7) → (∀ i, i < 15 → flStart f i = false) → l.part = none →
       (l.nak = true → l.rxJudged = false → (bvSat l.err.transient 1).toNat % 1024 ≠ 0) →
       gives (.codewordPairReceived a errA errB hdr (f :: ns)) (Link.sendNull (Link.pump portKind
         { l with pairExp := l.pairExp + 1, pairBad := 0, resets := 0, rxNext := l.rxNext + 1, nak := false, rxJudged := false,
                  afterRec := false, crOver := false,
                  err := if l.nak = true ∧ l.rxJudged = false then { l.err with transient := bvSat l.err.transient 1 } else l.err }))) ∧
     (∀ errA errB hdr f ns, l.st = .active → l.stopSeq = false → errA ≤ 15 → errB ≤ 15 → header hdr → ns.length = 4 → (∀ n ∈ ns, idle n) →
       flitGood f = true → flType f = 1 → 0 < (flSeq f - l.rxNext).toNat → (flSeq f - l.rxNext).toNat < 2048 →
       gives (.codewordPairReceived a errA errB hdr (f :: ns)) (Link.sendNull (Link.pump portKind
         { l with pairExp := l.pairExp + 1, pairBad := 0, resets := 0, nak := true }))) ∧
     (l.st = .active → l.replay ≠ [] → l.replayOf ≠ some (l.ackIn + 1) → gives (.replayTimeout a)
       { l with wire := l.wire ++ l.replay.map (fun p => refreshFlit p.2 (l.rxNext - 1) l.nak), replayOf := some (l.ackIn + 1) }) ∧
     (l.st = .active → l.replay ≠ [] → l.replayOf = some (l.ackIn + 1) → exec (.replayTimeout a) s = .next (s.after
       (((s.fab.setLink a
         { l with txJudged := some (l.ackIn + 1), err := { l.err with lasting := bvSat l.err.lasting 1 },
                  resume := some (l.resume.getD .active), afterRec := l.crOver, st := .recovery, pairBad := 0, pairGood := 0 }).raise
         (2 * (a / 2) + 1)).raise (2 * (a / 2))))) ∧
     ((l.st ≠ .active ∨ l.replay = []) → exec (.replayTimeout a) s = .next (s.after s.fab)) ∧
     (∀ d, l.st = .declare → l.decl = none → s.fab.draining = true →
       exec (.agentDeclaration a d none) s = .next (s.after (s.fab.setLink a { l with held := some d }))) ∧
     (∀ d, l.st = .declare → l.decl = none → s.fab.draining = false → s.fab.declCheck s.cfg a d ≠ 0 → l.refusals < 2 → ∃ r,
       exec (.agentDeclaration a d none) s = .next (s.after (s.fab.setLink a
         { l.sendReply r with held := none, refusals := l.refusals + 1 })) ∧ dclField r 1 1 = s.fab.declCheck s.cfg a d) ∧
     (∀ d, l.st = .declare → l.decl = none → s.fab.draining = false → s.fab.declCheck s.cfg a d ≠ 0 → 2 ≤ l.refusals → ∃ r,
       exec (.agentDeclaration a d none) s = .next (s.after ((s.fab.setLink a
         { l.sendReply r with held := none, refusals := l.refusals + 1, decl := none, st := .disabled, pairBad := 0, pairGood := 0 }).raise (2 * (a / 2)))) ∧ dclField r 1 1 = s.fab.declCheck s.cfg a d) ∧
     (∀ d, l.st = .declare → l.decl = none → s.fab.draining = false → s.fab.declCheck s.cfg a d = 0 → s.fab.twin.pair = .single →
       (dclCaching d = true → ∃ k, s.fab.gran.freeSlot = some k) →
       ∃ (r : Line) (f : Fabric), exec (.agentDeclaration a d none) s = .next (s.after f) ∧
         dclField r 0 1 = 1 ∧ dclField r 1 1 = 0 ∧ dclField r 2 1 = a ∧ dclField r 16 4 = s.fab.epoch % 2 ^ 32 ∧
         (∃ slot, f.link a = { l.sendReply r with decl := some d, slot := slot, held := none, withhold := false } ∧
           (dclCaching d = false → slot = none ∧ f.gran = s.fab.gran) ∧
           (dclCaching d = true → slot = s.fab.gran.freeSlot ∧ f.gran.slotOf a ≠ none)) ∧
         (∀ b, b ≠ a → f.link b = s.fab.link b) ∧ f.txns = s.fab.txns ∧ f.mem = s.fab.mem) ∧
     (∀ d, (l.st ≠ .declare ∨ l.decl.isSome = true) → exec (.agentDeclaration a d none) s = .next (s.after s.fab))) ∧
  (∀ l : Link,
     (∀ p ∈ l.txPairs, p.flits.length = 5 ∧ p.hdr.extractLsb' 0 16 = 0x5AC3#16 ∧ p.hdr.extractLsb' 24 16 = 0#16) ∧
     (∀ k p, l.txPairs[k]? = some p → p.hdr.extractLsb' 16 8 = BitVec.ofNat 8 k) ∧
     (l.txPairs.flatMap (fun p => p.flits)).take l.wire.length = l.wire ∧
     (∀ p : TxPair, p.symbols.length = 1088 ∧
       ∀ i, i < 544 → p.symbols[2 * i]? = (p.codeword 0)[i]? ∧ p.symbols[2 * i + 1]? = (p.codeword 1)[i]?))

/-- A good line request or eviction of a caching agent joins the arbiter of its slice. (R79, R85, R101, R111, R213).
-/
def Obligations.CachingRequestsReachTheirSlice : Prop :=
  ∀ (s : State) (a : Nat) (hdr : Slot) (data : Line) (be : BitVec 64) (more : Bool) (d : Line) (o : Op) (c : Instr),
    requestOf o a hdr data be 0 more = some c → o.isLine = true → hOp hdr = o.code → s.linkUp a = true → s.newTxid a hdr = true →
    s.first a o ⟨hdr, reqPay o data be 0⟩ = true → s.portClear = true → s.fab.alone = true → (s.fab.draining = false ∨ o.cls = clsEVC) → (s.fab.link a).decl = some d → dclCaching d = true →
    (if o.cachingOnly then lnCset hdr < 2 ^ dclSets d ∧ lnCway hdr < dclWays d else lnCset hdr = 0 ∧ lnCway hdr = 0) →
    (o.cls = clsREQ → ∃ r, s.cfg.regionOf (lnLaddr hdr) = some r ∧ if o.cachingOnly then r.typ.cacheable = true else r.typ ≠ .dev) →
    (∀ r, s.cfg.regionOf (lnLaddr hdr) = some r → lnTenant hdr = r.tenant) →
    ∃ x : Arr, x.who = .agent a none ∧ x.op = .req o ∧ x.hdr = hdr ∧ x.la = lnLaddr hdr ∧ x.txids = [hTxid hdr] ∧ x.cyc = 0 ∧
      x.cls = (if o.cls = clsEVC then 0 else 1) ∧ x.port = a / 2 ∧ x.half = a % 2 ∧ x.pois = lnPoison hdr ∧
      x.data = (if o.slots = 1 then 0 else data) ∧ x.be = (if o = .wrPartial then be else allEn) ∧
      let g : Fabric := { s.fab.begun a o hdr with arr := s.fab.arr ++ [x] }
      exec c s = .next (s.after (if more then g else g.flow s.cfg))

/-- A good uncached request enters its ordering unit, which releases it at once when idle. (R79, R83, R85, R86, R213,
R215, R217, R219, R220, R223, R227, R234). The unit follows the choices of log entry 43; acceptance those of log entry
33. -/
def Obligations.OtherRequestsUseTheOrderingUnit : Prop :=
  (∀ (s : State) (a : Nat) (hdr : Slot) (data : Line) (be : BitVec 64) (opnd : Slot) (more : Bool) (d : Line) (o : Op) (c : Instr),
     requestOf o a hdr data be opnd more = some c → hOp hdr = o.code → s.linkUp a = true → s.newTxid a hdr = true →
     s.first a o ⟨hdr, reqPay o data be opnd⟩ = true → s.portClear = true → s.fab.alone = true →
     s.fab.draining = false → (s.fab.link a).decl = some d →
     (if dclCaching d then o.isLine = false ∧ o ≠ .ldResv ∧ o ≠ .stCond else o.cachingOnly = false) →
     (if o.isLine then lnCset hdr = 0 ∧ lnCway hdr = 0 else uncachedFieldsOk o hdr = true) →
     (o.addressed = true → ∃ r, s.cfg.regionOf (reqLaddr o hdr) = some r ∧ (o = .rdUncached ∨ o = .wrUncached ∨ r.typ ≠ .dev) ∧
       (o.carries = true → reqTenant o hdr = r.tenant)) →
     ∃ y : OItem, y.op = o ∧ y.hdr = hdr ∧ y.la = reqLaddr o hdr ∧ y.txids = [hTxid hdr] ∧ y.pois = reqPoison o hdr ∧ y.released = false ∧
       y.tenant = reqTenant o hdr ∧ (o.carries = true → o.slots ≠ 2 → y.data = data) ∧ (o = .stCond ∨ o = .atomic → y.opnd = opnd) ∧
       (o = .svcReq → y.data = data) ∧
       y.be = (if o = .wrPartial then be else if o.isLine then allEn
         else if o.addressed then spanEn ((unAddr hdr).toNat % 64) (unLen hdr) else 0) ∧
       y.kind = (match o with
         | .rdOnce => .read
         | .rdUncached => if (s.cfg.regionOf (reqLaddr o hdr)).map (·.typ) = some .dev then .entry else .read
         | .ldResv => .ldresv
         | .cBar => .cbar
         | .resvClear => .resvClear
         | _ => .entry) ∧
       let g : Fabric := ((s.fab.begun a o hdr).ordTake s.cfg a y).ordRun s.cfg a
       exec c s = .next (s.after (if more then g else g.flow s.cfg))) ∧
  (∀ (f : Fabric) (cfg : Cfg) (a : Nat) (y : OItem), a < 32 → (f.ordOf a).items = [] → (f.ordOf a).short = [] → y.released = false →
     let z := { y with id := (f.ordOf a).nextId, inBuf := true }
     let t := (f.ordTake cfg a y).ordRun cfg a
     (y.kind = .entry → y.op ≠ .svcReq → t.arr = f.arr ++ [z.arr a] ∧ (t.ordOf a).items = [{ z with released := true }] ∧
       (t.ordOf a).lastSlice = some (sliceOf y.la) ∧ (t.ordOf a).nextId = (f.ordOf a).nextId + 1 ∧ t.txns = f.txns ∧ t.mem = f.mem ∧
       t.links = f.links ∧ t.resv = f.resv) ∧
     (y.kind = .read → y.be ≠ 0 → t.arr = f.arr ++ [z.arr a] ∧ (t.ordOf a).items = [] ∧ t.txns = f.txns ∧ t.mem = f.mem ∧
       t.links = f.links ∧ t.resv = f.resv) ∧
     (y.kind = .ldresv → (t.ordOf a).items = [] ∧ (t.ordOf a).resvAt = some y.la ∧ t.resv = f.resv ∧
       (∀ l, (f.ordOf a).resvAt = some l → sliceOf l ≠ sliceOf y.la → t.arr = f.arr ++ [clearArr a l [], z.arr a]) ∧
       ((∀ l, (f.ordOf a).resvAt = some l → sliceOf l = sliceOf y.la) → t.arr = f.arr ++ [z.arr a]) ∧
       t.txns = f.txns ∧ t.mem = f.mem ∧ t.links = f.links) ∧
     (y.kind = .cbar → t.arr = f.arr ∧ (t.ordOf a).items = [] ∧ t.links = (f.bareComp a (y.txids.headD 0) .ok 0).links ∧ t.resv = f.resv ∧
       t.txns = f.txns ∧ t.mem = f.mem) ∧
     (y.kind = .resvClear → (t.ordOf a).items = [] ∧ (t.ordOf a).resvAt = none ∧ t.resv = f.resv ∧
       (∀ l, (f.ordOf a).resvAt = some l → t.arr = f.arr ++ [clearArr a l y.txids] ∧ t.links = f.links) ∧
       ((f.ordOf a).resvAt = none → t.arr = f.arr ∧ t.links = (f.bareComp a (y.txids.headD 0) .ok 0).links) ∧
       t.txns = f.txns ∧ t.mem = f.mem))

/-- A bad request is answered PROTO or ADDRESS at the port, retried at the partner, held in a drain, or fences the
link. (R26, R29, R74, R102, R104, R214, R215, R328). The order of the Retry and the other checks is log entry 50. -/
def Obligations.RefusedRequestsAreAnsweredAtThePort : Prop :=
  ∀ (s : State) (a : Nat) (hdr : Slot) (data : Line) (be : BitVec 64) (opnd : Slot) (more : Bool) (d : Line) (o : Op) (c : Instr),
    requestOf o a hdr data be opnd more = some c → hOp hdr = o.code → s.linkUp a = true → (s.fab.link a).decl = some d →
    let ends := fun (g : Fabric) => exec c s = .next (s.after (if more then g else g.flow s.cfg))
    let b := s.fab.begun a o hdr
    let l := s.fab.link a
    (l.rxq.any (fun x => x.hdr = hdr) = false → l.isLive (hTxid hdr) = true → exec c s = .next (s.after (s.fab.fenceLink s.cfg a o.code 3))) ∧
    (s.newTxid a hdr = true → s.portClear = true → l.ofClass o.cls = [] → o.cls = clsREQ → l.full = true →
      exec c s = .next (s.after (if more ∨ s.fab.draining = true then s.fab else s.fab.flow s.cfg))) ∧
    (s.newTxid a hdr = true → s.first a o ⟨hdr, reqPay o data be opnd⟩ = true → s.fab.draining = true → o.cls = clsREQ →
      exec c s = .next (s.after { b with portHeld := s.fab.portHeld ++ [(a, ⟨hdr, reqPay o data be opnd⟩)] })) ∧
    (s.newTxid a hdr = true → s.first a o ⟨hdr, reqPay o data be opnd⟩ = true → s.portClear = true → (s.fab.draining = false ∨ o.cls = clsEVC) →
      (s.fab.alone = true → dclCaching d = false → o.cachingOnly = true → ends ((b.protoErr a o.code 8).bareComp a (hTxid hdr) .proto 0)) ∧
      (s.fab.alone = true → dclCaching d = true → (o = .ldResv ∨ o = .stCond) → uncachedFieldsOk o hdr = true →
        ends ((b.protoErr a o.code 4).bareComp a (hTxid hdr) .proto 0)) ∧
      (s.fab.alone = true → o.isLine = false → uncachedFieldsOk o hdr = false →
        ends ((b.protoErr a o.code 4).bareComp a (hTxid hdr) .proto 0)) ∧
      (s.fab.alone = true → o = .rdUncached ∨ o = .wrUncached → uncachedFieldsOk o hdr = true → s.cfg.regionOf (reqLaddr o hdr) = none →
        ends (b.bareComp a (hTxid hdr) .address 0)) ∧
      (∀ reason, (if s.fab.twin.pair = .paired then reason = 1 else (s.fab.twin.pair = .failover ∨ s.fab.twin.pair = .waiting) ∧ reason = 2) →
        o.addressed = true → s.fab.activeHome (reqLaddr o hdr) = false → ∃ g : Fabric, ends g ∧
        g.twin = { s.fab.twin with misdirected := s.fab.twin.misdirected + 1 } ∧
        g.links = ((b.send a (mkRetry (hTxid hdr) reason 0 (reqRseq o hdr))).endLive a (hTxid hdr)).links ∧ g.arr = s.fab.arr ∧ g.txns = s.fab.txns ∧
        g.mem = s.fab.mem ∧ g.gran = s.fab.gran))

/-- CompAck, snoop responses and forwarded data reach the tracker they name and change the Granary as Table 4.5 gives.
(R89, R91, R97, R104, R109, R113, R119, R128, R144). -/
def Obligations.ResponsesMeetTheirTracker : Prop :=
  (∀ (s : State) (a : Nat) (hdr : Slot), s.linkUp a = true →
     let b := s.fab.taken a hdr
     let may := fun (o : Op) (p : List Slot) => s.first a o ⟨hdr, p⟩ = true
     let named := fun (t : Txn) => s.fab.txns.find? (fun t => t.htag = hHtag hdr) = some t
     (∀ t, hOp hdr = Op.compAck.code → may .compAck [] → s.fab.txns.find? (fun t => t.htag = hHtag hdr && t.agent = some a && t.ackDue && ¬ t.ackIn) = some t →
       exec (.compack a hdr) s = .next (s.after (Fabric.goesOn s.cfg (Fabric.settle s.cfg
         (let f := (b.endLive a (hTxid hdr)).put { t with ackIn := true }
          if t.grant = .e ∨ t.grant = .m then f.startHold s.cfg t.slice t.la a else f))))) ∧
     (hOp hdr = Op.compAck.code → may .compAck [] → (∀ t ∈ s.fab.txns, ¬ (t.htag = hHtag hdr ∧ t.agent = some a ∧ t.ackDue = true ∧ t.ackIn = false)) →
       exec (.compack a hdr) s = .next (s.after (Fabric.goesOn s.cfg (b.protoErr a Op.compAck.code 5)))) ∧
     (∀ o c t sn, responseOf o a hdr = some c → hOp hdr = o.code → may o [] → named t → t.snoops.find? (fun x => x.agent = a && ¬ x.done) = some sn →
       sn.resp = none → s.fab.heldWb a t.la = none →
       (rsLocmis hdr = false → keptOk sn.op o (rsKept hdr) = true → exec c s = .next (s.after (Fabric.goesOn s.cfg (Fabric.tryAnswer s.cfg
         (b.put (t.modSnoop a (fun x => { x with resp := some (o, rsKept hdr, false) }))) t.slice t.idx a)))) ∧
       (∀ k, rsLocmis hdr = true → keptOk sn.op o (rsKept hdr) = true → s.fab.twin.pair ≠ .survivor → t.op ≠ .reconcile →
         s.fab.gran.slotOf a = some k → exec c s = .next (s.after (Fabric.goesOn s.cfg (Fabric.tryAnswer s.cfg
           ((b.mismatch (locNum k sn.cset sn.cway) 0).put (t.modSnoop a (fun x => { x with resp := some (.rspI, 0, true) }))) t.slice t.idx a)))) ∧
       (keptOk sn.op o (rsKept hdr) = false → exec c s = .next (s.after (Fabric.goesOn s.cfg (b.protoErr a o.code 6))))) ∧
     (∀ o c, responseOf o a hdr = some c → hOp hdr = o.code → may o [] → (∀ t ∈ s.fab.txns, t.htag ≠ hHtag hdr) →
       exec c s = .next (s.after (Fabric.goesOn s.cfg (b.protoErr a o.code 5)))) ∧
     (∀ data t sn, hOp hdr = Op.dataFwd.code → may .dataFwd (dataSlots data (dtCrit hdr)) → s.fab.alone = true → dtAgent hdr = 32 → s.cfg.regionOf (dtLaddr hdr) = none → named t →
       t.snoops.find? (fun x => x.agent = a && ¬ x.done && (x.op = .snpShared || x.op = .snpOwn)) = some sn → sn.dataIn = none →
       exec (.datafwd a hdr data) s = .next (s.after (Fabric.goesOn s.cfg (Fabric.tryAnswer s.cfg
         (b.put (t.modSnoop a (fun x => { x with dataIn := some (data, dtPoison hdr) }))) t.slice t.idx a)))) ∧
     (∀ data, hOp hdr = Op.dataFwd.code → may .dataFwd (dataSlots data (dtCrit hdr)) → s.fab.alone = true → dtAgent hdr < 32 →
       (∀ r, s.cfg.regionOf (dtLaddr hdr) = some r → dtTenant hdr = r.tenant) →
       exec (.datafwd a hdr data) s = .next (s.after (Fabric.goesOn s.cfg
         (b.send (dtAgent hdr) { hdr := dtSetAgent hdr a, pay := dataSlots data (dtCrit hdr) })))) ∧
     (∀ data, hOp hdr = Op.dataFwd.code → may .dataFwd (dataSlots data (dtCrit hdr)) → 32 < dtAgent hdr → s.cfg.regionOf (dtLaddr hdr) = none →
       exec (.datafwd a hdr data) s = .next (s.after (Fabric.goesOn s.cfg (b.protoErr a Op.dataFwd.code 7))))) ∧
  (∀ (f : Fabric) (cfg : Cfg) (t : Txn) (sn : Snoop) (st : LSt) (loc kept : Nat), f.mirrors = false →
     f.txnAt t.slice t.idx = some t → t.snoops.find? (fun x => x.agent = sn.agent && ¬ x.done) = some sn → sn.att = false → sn.dataIn = none →
     f.gran.recordOf sn.agent t.la = some (st, loc) →
     let after := fun (g : Granary) (u : Txn) => ((({ f with gran := g } : Fabric).put u).releaseHeld sn.agent t.la).settle cfg
     let done := t.modSnoop sn.agent (fun x => { x with done := true })
     (sn.resp = some (.rspI, kept, false) → (sn.op = .snpInv ∨ (st = .s ∨ st = .e) ∧ sn.isFwd = false) →
       f.tryAnswer cfg t.slice t.idx sn.agent = after (f.gran.remove loc) done) ∧
     (sn.resp = some (.rspS, kept, false) → f.tryAnswer cfg t.slice t.idx sn.agent = after (f.gran.write loc t.la .s) done) ∧
     (sn.resp = some (.rspFwd, 1, false) → sn.op = .snpFwdShared → f.tryAnswer cfg t.slice t.idx sn.agent = after (f.gran.write loc t.la .s) done) ∧
     (sn.resp = some (.rspFwd, 0, false) → sn.op = .snpFwdOwn → f.tryAnswer cfg t.slice t.idx sn.agent = after (f.gran.remove loc) done) ∧
     (sn.resp = some (.rspFwd, kept, false) → sn.isFwd = false → f.tryAnswer cfg t.slice t.idx sn.agent = f))

/-- The arbiter, holds, snoop time-outs, departure walks, displacement and Granary re-reads act as their rules give.
(R111, R113, R126, R127, R142, R146, R149, R150, R151, R163, R169). The pointer is kept as log entry 45 says; a walk
skips to the next recorded row (log entry 36). -/
def Obligations.HomeSlicesAndTheGranaryWork : Prop :=
  (∀ (s : State) (i : Nat), i < 8 → s.on (10 + i) = true →
     let f := s.fab
     let goes := fun (c : Instr) (g : Fabric) => exec c s = .next (s.after g)
     let turn := fun (idle : Nat) => vset f.prio i (((vget f.prio 0 i + idle) % 16 + 1) % 16)
     let still := f.pfu.queue = [] ∧ f.placers i = [] ∧ f.settle s.cfg = f
     (∀ idle, still → (∀ x ∈ f.arr, sliceOf x.la ≠ i) →
       goes (.sliceArbitration i idle []) (Fabric.goesOn s.cfg (Fabric.settle s.cfg (Fabric.settle s.cfg { f with prio := turn idle })))) ∧
     (∀ idle x n, still → f.pfu.record = [] → f.slow = false → f.twin.pair = .single → f.arr = [x] → sliceOf x.la = i →
       f.freeTracker i = some n → x.op = .req .rdShared → (∃ a, x.who = .agent a none ∧ f.caching a = true) →
       goes (.sliceArbitration i idle []) (Fabric.goesOn s.cfg (Fabric.settle s.cfg (Fabric.settle s.cfg { f with
         arr := [], prio := turn idle, nextSeq := f.nextSeq + 1, txns := f.txns ++ [x.toTxn s.cfg i n f.nextSeq] })))) ∧
     (∀ la a, s.on 10 = true → goes (.holdExpiry la a) (Fabric.settle s.cfg
       { f with holds := f.holds.filter (fun h => ¬ (h.la = la && h.agent = a)) })) ∧
     (∀ n a t sn, f.txnAt i n = some t → t.snoops.find? (fun x => x.agent = a && ¬ x.done) = some sn → sn.att = false →
       ∃ (m : Msg), hOp m.hdr = sn.op.code ∧ hHtag m.hdr = t.htag % 2 ^ 15 ∧ m.hdr.toNat.testBit 38 = true ∧
         goes (.snoopTimeout i n a) (Fabric.twinProgress s.cfg (Fabric.flow s.cfg
           ((f.put (t.modSnoop a (fun x => { x with att := true }))).send a m)))) ∧
     (∀ n a t sn, f.txnAt i n = some t → t.snoops.find? (fun x => x.agent = a && ¬ x.done) = some sn → sn.att = true →
       goes (.snoopTimeout i n a) (Fabric.twinProgress s.cfg (Fabric.flow s.cfg (f.declareDead s.cfg i a)))) ∧
     (∀ k row, s.on 10 = true → k < 16 → (vget f.gran.slots ⟨none, none⟩ k).walk = some row → row < 2 ^ 14 → ∃ nextRow, row < nextRow ∧
       goes (.departureWalkRow k) { f with
         gran := { f.gran with slots := vset f.gran.slots k ⟨f.gran.agentOf k, some nextRow⟩ }
         arr := f.arr ++ (f.gran.entries.filter (fun p => locSlot p.1 = k && locSet p.1 = row)).map
           (fun p => lineArr 2 (.walk k p.1) .walk p.2.la) }) ∧
     (∀ k row, s.on 10 = true → k < 16 → (vget f.gran.slots ⟨none, none⟩ k).walk = some row → 2 ^ 14 ≤ row → f.gran.count k = 0 → f.arr = [] →
       f.txns = [] → goes (.departureWalkRow k) { f with gran := { f.gran with slots := vset f.gran.slots k ⟨none, none⟩ } }) ∧
     (∀ n t loc e, f.txnAt i n = some t → f.displacing t = some (loc, e) → ∃ g : Fabric, goes (.displacementTimeout i n) g ∧
       g.arr = f.arr ++ [lineArr 2 (.reclaim (t.agent.getD 0) loc) .reclaim e.la] ∧ g.raised = f.raised ++ [(64 + locBank loc, 0)] ∧
       (vget g.gran.banks GrnBank.zero (locBank loc)).displaceTo = bvSat (vget f.gran.banks GrnBank.zero (locBank loc)).displaceTo 1 ∧
       g.gran.entries = f.gran.entries ∧ g.txns = f.txns) ∧
     (∀ n t, f.txnAt i n = some t → t.allocating = true → goes (.allocWaitExpiry i n)
       (Fabric.settle s.cfg ((f.countNoalloc i).put { t with allocating := false, noalloc := true }))) ∧
     (∀ n t w, f.txnAt i n = some t → t.tagStage = 1 → goes (.tagStoreReadReturn i n w ErrPat.none)
       (Fabric.settle s.cfg ((f.takeReads (.tags i n)).put { t with tagStage := 2 }))) ∧
     (∀ n, (f.takeReads (.tags i n)).mem.hq = f.mem.hq.filter (fun r => ¬ (r.who = .tags i n ∧ r.again = false)) ∧
       (f.takeReads (.tags i n)).mem.hbm = f.mem.hbm ∧ (f.takeReads (.tags i n)).mem.dq = f.mem.dq)) ∧
  (∀ (s : State) (b : Nat), b < 8 → s.on (10 + b) = true → s.on 10 = true →
     let f := s.fab
     let bank := fun (g : Fabric) => vget g.gran.banks GrnBank.zero b
     (∀ arr loc row out, out ≠ .bad → ∃ g : Fabric, exec (.granaryReread b arr loc row out) s = .next (s.after (g.flow s.cfg)) ∧
       bank g = { bank f with
         transient := bvSat (bank f).transient 1
         corr := if out = .corrected ∧ arr = .entry then bvSat (bank f).corr 1 else (bank f).corr } ∧ g.gran.entries = f.gran.entries ∧
       g.txns = f.txns ∧ (((bank f).transient.toNat + 1) % 256 = 0 → (bank f).transient.toNat < 0xFFFF → (72 + b, 0) ∈ g.raised)) ∧
     (∀ arr loc row, arr ≠ .entry → ∃ g : Fabric, exec (.granaryReread b arr loc row .bad) s = .next (s.after (g.flow s.cfg)) ∧
       (bank g).rebuild = true ∧ (bank g).lasting = bvSat (bank f).lasting 1 ∧ (72 + b, 0) ∈ g.raised ∧ (173, 0) ∈ g.raised ∧
       g.gran.entries = f.gran.entries ∧ g.txns = f.txns) ∧
     (∀ loc row, f.mirrors = false → ∃ g : Fabric, exec (.granaryReread b .entry loc row .bad) s =
         .next (s.after ((g.entryLost s.cfg b loc).flow s.cfg)) ∧
       (bank g).lasting = bvSat (bank f).lasting 1 ∧ (72 + b, 0) ∈ g.raised ∧ (173, 0) ∈ g.raised ∧
       g.gran.entries = f.gran.entries ∧ g.txns = f.txns) ∧
     (∀ (g : Fabric) (c loc : Nat) (e : GEntry), Tab.find g.gran.entries loc = some e → g.gran.agentOf (locSlot loc) = none →
       let h := g.entryLost s.cfg c loc
       h.gran.taint = addOnce (g.gran.bucket e.la) g.gran.taint ∧ (vget h.gran.banks GrnBank.zero (bucketBank e.la)).taintSet = true ∧
         h.raised = g.raised ++ [(72 + bucketBank e.la, 0)] ∧ h.gran.entries = g.gran.entries ∧ h.txns = g.txns) ∧
     (∀ loc row, f.mirrors = true → ∃ g : Fabric, exec (.granaryReread b .entry loc row .bad) s = .next (s.after (g.flow s.cfg)) ∧
       loc ∈ g.gran.queries ∧ g.twin.sentCtl = f.twin.sentCtl ++ [(7, loc)] ∧ (bank g).lasting = bvSat (bank f).lasting 1 ∧
       g.gran.entries = f.gran.entries) ∧
     ((bank f).rebuild = true → ∃ g : Fabric, exec (.indexRebuildEnd b) s = .next (s.after (g.settle s.cfg)) ∧
       bank g = { bank f with rebuild := false } ∧ g.raised = f.raised ++ [(72 + b, 0)] ∧ g.gran.entries = f.gran.entries ∧ g.txns = f.txns) ∧
     (∀ loc x, loc ∈ f.gran.queries → ∃ g : Fabric, exec (.qryAnswer loc true (some x)) s = .next (s.after (g.flow s.cfg)) ∧
       g = { f.ctlTaken 8 with gran := ({ f.gran with queries := f.gran.queries.filter (fun y => y ≠ loc) } : Granary).place loc x.la x.st }) ∧
     (∀ loc, loc ∈ f.gran.queries → ∃ g : Fabric, exec (.qryAnswer loc true none) s = .next (s.after (g.flow s.cfg)) ∧
       g = { f.ctlTaken 8 with gran := ({ f.gran with queries := f.gran.queries.filter (fun y => y ≠ loc) } : Granary).remove loc }) ∧
     (∀ loc e, loc ∈ f.gran.queries → ∃ g : Fabric, exec (.qryAnswer loc false e) s =
         .next (s.after ((g.entryLost s.cfg (locBank loc) loc).flow s.cfg)) ∧
       g = { f.ctlTaken 8 with gran := { f.gran with queries := f.gran.queries.filter (fun y => y ≠ loc) } }) ∧
     (∀ loc, s.on 8 = true → ∃ w, exec (.qryRequest loc) s = .next (s.after ((f.ctlTaken 7).sendCtl 8 w)) ∧ w % 2 ^ 22 = loc % 2 ^ 22 ∧
       (f.slotHere (locSlot loc) = none → w = loc % 2 ^ 22) ∧
       (∀ k, f.slotHere (locSlot loc) = some k → let here := Tab.find f.gran.entries (locNum k (locSet loc) (locWay loc))
         (here = none → w = loc % 2 ^ 22) ∧
         (∀ e, here = some e → w.testBit 22 = true ∧ bitsOf w 23 46 = e.la.toNat ∧ bitsOf w 69 3 = e.st.code))))

/-- Memory reads return the word as the earlier writes of the queue leave it; writes are accepted and merged. (R192,
R194, R203, R215, R275, R280, R282, R298, R301, R302). What memory reads as before anything is written is log entry 7.
-/
def Obligations.MemoriesReadAndAcceptWrites : Prop :=
  ∀ (s : State) (i n : Nat) (t : Txn), i < 8 → s.on 10 = true → s.on (10 + i) = true → s.fab.txnAt i n = some t → t.patrol = false →
    let f := s.fab
    let goes := fun (c : Instr) (g : Fabric) => exec c s = .next (s.after g)
    (∀ r rest, f.mem.hq = r :: rest → r.write = false → r.again = false → r.who = .txn i n → ∃ m : Mem,
      goes (.hbmReadReturn r.word ErrPat.none) (Fabric.settle s.cfg
        (({ f with mem := m } : Fabric).give { t with retried := t.retried } (getWord f.mem.hbm r.word).data ((getWord f.mem.hbm r.word).pm || r.pois) false)) ∧
      m.hq = rest ∧ m.hbm = f.mem.hbm ∧ m.ddr = f.mem.ddr ∧ m.dq = f.mem.dq ∧ m.unmarked = f.mem.unmarked) ∧
    (∀ r rest, f.mem.dq = r :: rest → r.write = false → r.again = false → r.who = .txn i n → ∃ m : Mem,
      goes (.ddr5ReadReturn r.word ErrPat.none) (Fabric.settle s.cfg
        (({ f with mem := m } : Fabric).give { t with retried := t.retried } (getWord f.mem.ddr r.word).data ((getWord f.mem.ddr r.word).pm || r.pois) true)) ∧
      m.dq = rest ∧ m.hbm = f.mem.hbm ∧ m.ddr = f.mem.ddr ∧ m.hq = f.mem.hq ∧ m.unmarked = f.mem.unmarked) ∧
    (∀ r rest err, f.mem.hq = r :: rest → r.write = false → r.again = false → r.who = .txn i n →
      (decodeWord false (getWord f.mem.hbm r.word).data (getWord f.mem.hbm r.word).pm err).usable = false → ∃ m : Mem,
      goes (.hbmReadReturn r.word err) { f with mem := m } ∧ m.hq = { r with again := true } :: rest ∧ m.hbm = f.mem.hbm ∧ m.dq = f.mem.dq) ∧
    (∀ r rest, f.mem.hq = r :: rest → r.write = false → r.again = true → r.who = .txn i n →
      (getWord f.mem.hbm r.word).pm = false → r.pois = false → ∃ g : Fabric, goes (.rereadReturn (.hbm r.word ErrPat.none)) (Fabric.settle s.cfg
        (g.give { t with retried := true } (getWord f.mem.hbm r.word).data false false)) ∧ g.mem.hq = rest ∧
      (vget g.gln.blks GlnBlk.zero (blockOf false r.word)).transient =
        bvSat (vget f.gln.blks GlnBlk.zero (blockOf false r.word)).transient 1) ∧
    (∀ r rest, f.mem.hq = r :: rest → r.write = true → r.acc = false → r.who = .txn i n → ∃ m : Mem,
      goes (.hbmWriteAccept r.word) (Fabric.settle s.cfg (({ f with mem := m } : Fabric).put { t with wend := true })) ∧
      m.hq = { r with acc := true } :: rest ∧ m.hbm = f.mem.hbm ∧ m.ddr = f.mem.ddr ∧ m.dq = f.mem.dq) ∧
    (∀ r rest e1 e2, f.mem.dq = r :: rest → r.write = true → r.acc = false → r.be = allEn → r.who = .txn i n → ∃ m : Mem,
      goes (.ddr5WriteAccept r.word e1 e2) (Fabric.settle s.cfg (({ f with mem := m } : Fabric).put { t with wend := true })) ∧
      m.dq = { r with acc := true } :: rest ∧ m.hbm = f.mem.hbm ∧ m.ddr = f.mem.ddr ∧ m.hq = f.mem.hq) ∧
    (∀ r rest, f.mem.dq = r :: rest → r.write = true → r.acc = false → r.be ≠ allEn → r.be ≠ 0 → (getWord f.mem.ddr r.word).pm = false →
      r.who = .txn i n → ∃ m : Mem,
      goes (.ddr5WriteAccept r.word ErrPat.none ErrPat.none) (Fabric.settle s.cfg (({ f with mem := m } : Fabric).put { t with wend := true })) ∧
      m.dq = { r with acc := true, be := allEn, data := mergeLine (getWord f.mem.ddr r.word).data r.data r.be } :: rest ∧ m.ddr = f.mem.ddr) ∧
    (n < 4096 → t.mapAsked = true → let w := mapWord (backPage t.back)
      ∃ m : Mem, goes (.zeroMapWordReturn i n ErrPat.none) (Fabric.settle s.cfg { f with mem := m }) ∧
      m.mapCached t.slice w = true ∧ m.hbm = f.mem.hbm ∧ m.ddr = f.mem.ddr ∧ m.unmarked = f.mem.unmarked ∧
      m.hq = f.mem.hq.filter (fun r => ¬ (r.who = .map i n ∧ r.again = false)) ++
        (if ∃ p ∈ f.mem.mapBad, p.1 = w then [MemReq.tagWr (mapPrimary w), MemReq.tagWr (mapMirror w)] else [])) ∧
    (∀ through rest, t.todo = .fillWait through :: rest → f.mirrors = false → f.twin.tracking = false → ∃ g : Fabric,
      goes (.pageFillQueued i n) (Fabric.settle s.cfg (g.put { t with todo := rest, wend := t.wend || through })) ∧
      g.mem.marked (backPage t.back) = false ∧ g.mem.dq.length = f.mem.dq.length + 64 ∧
      (∀ q ∈ g.mem.dq.drop f.mem.dq.length, q.write = true ∧ q.be = allEn ∧ backPage q.word = backPage t.back ∧
        q.data = if q.word = t.back then mergeLine 0 t.wd t.wbe else 0) ∧
      (vget g.sstat SliceStat.zero i).pageFills = bvSat (vget f.sstat SliceStat.zero i).pageFills 1 ∧ g.mem.hbm = f.mem.hbm ∧ g.mem.ddr = f.mem.ddr)

/-- Refresh is postponed while its bank has work and done otherwise; entries age, rows close, writes drain. (R268,
R272, R276, R277). Which work keeps a bank busy is log entry 39. -/
def Obligations.ChannelsRefreshAgeCloseAndDrain : Prop :=
  ∀ s : State, s.on 10 = true → let f := s.fab
    let memory := fun (c : Instr) (p : Mem → Prop) => ∃ m : Mem, exec c s = .next (s.after { f with mem := m }) ∧ p m
    (∀ bank limit, (∃ r ∈ f.mem.hq, hbmBank r.word = bank) → Tab.get f.mem.refresh 0 bank < limit →
      memory (.hbmRefresh bank limit) (fun m => m = { f.mem with refresh := Tab.set f.mem.refresh bank (Tab.get f.mem.refresh 0 bank + 1) })) ∧
    (∀ bank limit, (∀ r ∈ f.mem.hq, hbmBank r.word ≠ bank) →
      memory (.hbmRefresh bank limit) (fun m => m = { f.mem with
        refresh := Tab.erase f.mem.refresh bank, hbmRows := f.mem.hbmRows.filter (fun k => k % 2 ^ 13 ≠ bank) })) ∧
    (∀ bank limit, (∃ r ∈ f.mem.hq, hbmBank r.word = bank) → limit ≤ Tab.get f.mem.refresh 0 bank →
      memory (.hbmRefresh bank limit) (fun m => m = { f.mem with hbmRows := f.mem.hbmRows.filter (fun k => k % 2 ^ 13 ≠ bank) })) ∧
    (∀ bank limit, (∃ r ∈ f.mem.dq, r.write = false ∧ refreshRank (ddrBank f.mem.rbits r.word) = refreshRank bank) →
      Tab.get f.mem.refresh 0 (2 ^ 20 + bank) < limit → memory (.ddr5Refresh bank limit) (fun m =>
        m = { f.mem with refresh := Tab.set f.mem.refresh (2 ^ 20 + bank) (Tab.get f.mem.refresh 0 (2 ^ 20 + bank) + 1) })) ∧
    (∀ bank limit, ((∀ r ∈ f.mem.dq, r.write = false → refreshRank (ddrBank f.mem.rbits r.word) ≠ refreshRank bank) ∨
        limit ≤ Tab.get f.mem.refresh 0 (2 ^ 20 + bank)) →
      memory (.ddr5Refresh bank limit) (fun m => (∀ k ∈ m.openRows, k ∈ f.mem.openRows) ∧
        m.refresh = (if ∀ r ∈ f.mem.dq, ddrChan r.word ≠ bank % 16 then Tab.erase f.mem.refresh (2 ^ 20 + bank) else f.mem.refresh) ∧
        m.dq = f.mem.dq ∧ m.ddr = f.mem.ddr ∧ m.hq = f.mem.hq ∧ m.hbm = f.mem.hbm)) ∧
    (∀ r rest, f.mem.hq = r :: rest → r.aged = false → memory (.queueEntryAging false r.word) (fun m =>
      m = { f.mem with hq := { r with aged := true, cls := 0 } :: rest })) ∧
    (∀ r rest, f.mem.dq = r :: rest → r.aged = false → memory (.queueEntryAging true r.word) (fun m =>
      m = { f.mem with dq := { r with aged := true, cls := 0 } :: rest })) ∧
    (∀ row, memory (.ddr5RowClose row) (fun m => m = { f.mem with openRows := f.mem.openRows.filter (fun k => k ≠ row) })) ∧
    (∀ ch r, f.mem.hq = [r] → r.chan false = ch → r.write = true → r.acc = true → memory (.writeDrain false ch) (fun m =>
      m = { f.mem with
        hq := []
        hbm := Tab.put CWord.zero f.mem.hbm r.word ⟨r.data, r.pois⟩
        hbmRows := f.mem.hbmRows.filter (fun x => x % 2 ^ 13 ≠ hbmRow r.word % 2 ^ 13) })) ∧
    (∀ ch r, f.mem.dq = [r] → r.chan true = ch → r.write = true → r.acc = true → memory (.writeDrain true ch) (fun m =>
      m.dq = [] ∧ m.ddr = Tab.put CWord.zero f.mem.ddr r.word ⟨r.data, r.pois⟩ ∧ ddrRow f.mem.rbits r.word ∈ m.openRows ∧ m.hq = f.mem.hq ∧
      m.hbm = f.mem.hbm ∧ m.unmarked = f.mem.unmarked)) ∧
    (∀ ch r, f.mem.hq = [r] → r.chan false = ch → r.write = false → r.cls ≤ 2 → exec (.writeDrain false ch) s = .next (s.after f))

/-- Ordered tokens and end-point notices release entries; prefetch targets become candidates or are dropped. (R200,
R203, R204, R205, R206, R207, R219, R226). Prefetch follows the choices of log entry 41, ordering units those of log
entry 43. -/
def Obligations.TokensNoticesAndPrefetches : Prop :=
  ∀ s : State, s.on 10 = true → let f := s.fab
    let goes := fun (c : Instr) (g : Fabric) => exec c s = .next (s.after g)
    (∀ a id rest x, a < 32 → s.linkOn a = true → (f.ordOf a).tokens = id :: rest → (f.ordOf a).items.find? (fun z => z.id = id) = some x →
      ∃ g : Fabric, goes (.orderedToken a) (Fabric.arbAll s.cfg ((((g.ordPromote s.cfg a).ordRun s.cfg a)).orphansDone a)) ∧
        g.ordOf a = { f.ordOf a with
          tokens := rest
          items := dropFirst (fun z => z.id = id) (f.ordOf a).items
          short := if x.endp = true ∨ x.op = .rdUncached then (f.ordOf a).short else (f.ordOf a).short ++ [id] } ∧
        g.arr = f.arr ∧ g.txns = f.txns ∧ g.links = f.links ∧ (∀ b, b ≠ a → g.ordOf b = f.ordOf b)) ∧
    (∀ a id rest, a < 32 → s.linkOn a = true → (f.ordOf a).notices = id :: rest →
      ∃ g : Fabric, goes (.endPointNotice a) (Fabric.arbAll s.cfg ((g.ordRun s.cfg a).orphansDone a)) ∧
        g.ordOf a = { f.ordOf a with
          notices := rest
          short := (f.ordOf a).short.filter (fun n => n ≠ id)
          items := modFirst (fun z => z.id = id) (fun z => { z with endp := true }) (f.ordOf a).items } ∧
        g.arr = f.arr ∧ g.txns = f.txns ∧ g.links = f.links ∧ (∀ b, b ≠ a → g.ordOf b = f.ordOf b)) ∧
    (∀ p rest, f.pfu.queue = p :: rest → p.issued = false → p.slice < 8 → ∃ g : Fabric, goes (.prefetchQueueTimeout p.la) g ∧
      g.pfu.queue = rest ∧ (vget g.sstat SliceStat.zero p.slice).dropped = bvSat (vget f.sstat SliceStat.zero p.slice).dropped 1 ∧
      g.mem = f.mem ∧ g.txns = f.txns ∧ g.cache = f.cache) ∧
    (∀ p r rest, f.pfu.queue = [p] → p.issued = true → p.cancelled = true → p.promoted = false → p.slice < 8 →
      f.mem.dq = r :: rest → r.write = false → r.again = false → r.who = .prefetch p.slice p.la → ∃ g : Fabric,
      goes (.prefetchDataReturn r.word ErrPat.none) (g.settle s.cfg) ∧ g.pfu.queue = [] ∧ g.mem.dq = rest ∧ g.mem.hq = f.mem.hq ∧
      ((∀ k, p.key ≠ some (true, k)) → g.cache = f.cache) ∧ g.txns = f.txns ∧
      (vget g.sstat SliceStat.zero p.slice).cancelled = bvSat (vget f.sstat SliceStat.zero p.slice).cancelled 1 ∧ g.pfu.record = f.pfu.record) ∧
    (∀ p r rest k, f.pfu.queue = [p] → f.pfu.record = [] → p.issued = true → p.cancelled = false → p.promoted = false → p.key = some (false, k) →
      f.cache.find s.cfg false p.la = .sector k → (f.cache.bits (.sector k) (subOf p.la)).1 = false → f.mem.mapLost (backPage r.word) = false →
      f.mem.dq = r :: rest → r.write = false → r.again = false → r.pois = false → (getWord f.mem.ddr r.word).pm = false →
      r.who = .prefetch p.slice p.la → ∃ g : Fabric, goes (.prefetchDataReturn r.word ErrPat.none) (g.settle s.cfg) ∧ g.pfu.queue = [] ∧
      g.mem.dq = rest ∧ g.cache = f.cache.setBitsOf (.sector k) (subOf p.la) true false false ∧ g.txns = f.txns ∧
      g.pfu.record = [{ slice := p.slice, la := p.la, agent := p.agent, shadow := false }] ∧ g.mem.hq = f.mem.hq ++
        [{ MemReq.wr (lineWord s.cfg (.sector k) (subOf p.la)) (getWord f.mem.ddr r.word).data allEn false .none with acc := true }]) ∧
    (∀ a used rest, f.pfu.reports = (a, used) :: rest → a < 32 → (vget f.pfu.counts (0, 0) a).1 < 255 → goes .prefetchResolutionReport
      { f with pfu := { f.pfu with
        reports := rest
        counts := vset f.pfu.counts a ((vget f.pfu.counts (0, 0) a).1 + 1, (vget f.pfu.counts (0, 0) a).2 + b2n used) } }) ∧
    (∀ a used rest, f.pfu.reports = (a, used) :: rest → a < 32 → (vget f.pfu.counts (0, 0) a).1 = 255 → f.pfu.mode.toNat.testBit a = false →
      (vget f.pfu.counts (0, 0) a).2 + b2n used < s.cfg.accLo → ∃ g : Fabric, goes .prefetchResolutionReport g ∧
      g.pfu.mode.toNat.testBit a = true ∧ vget g.pfu.counts (0, 0) a = (0, 0) ∧ g.pfu.reports = rest) ∧
    (∀ tr rest, f.pfu.training = tr :: rest → f.pfu.streams = [] → ∃ g : Fabric, goes .strideTrainingRecord g ∧ g.pfu.training = rest ∧
      (∃ x, g.pfu.streams = [x] ∧ x.agent = tr.agent ∧ x.last = (tr.la.toNat : Int) ∧ x.stride = 0 ∧ x.conf = 0) ∧ g.pfu.targets = f.pfu.targets ∧
      g.txns = f.txns ∧ g.mem = f.mem) ∧
    (∀ a la rest, f.pfu.targets = (a, la) :: rest → f.pfu.stopped = true →
      goes .strideTarget { f with pfu := { f.pfu with targets := rest } }) ∧
    (∀ a la rest, f.pfu.targets = (a, la) :: rest → f.pfu.stopped = false → f.alone = true → f.pfu.queue = [] →
      f.candidateDrop s.cfg (s.cfg.regionOf la) la = false → ∃ p : Pf, goes .strideTarget { f with pfu := { f.pfu with targets := rest, queue := [p] } } ∧
        p.la = la ∧ p.agent = a ∧ p.slice = sliceOf la ∧ p.issued = false)

/-- Descriptors start and issue within their limits and retire their answers; patrol reads the next place; candidates
are recorded. (R244, R247, R250, R314, R315, R319, R320). The Harrow follows log entry 42, patrol of map words log
entry 40, a dropped candidate log entry 79. -/
def Obligations.TheHarrowAndTheGleanerWork : Prop :=
  ∀ s : State, s.on 31 = true → let f := s.fab
    let goes := fun (c : Instr) (g : Fabric) => exec c s = .next (s.after g)
    (∀ d, f.hrw.descs = [d] → d.queue < 17 → d.mirror = false → d.running = false → d.recording = false → d.ending = false → d.stop = 0 → d.gate = none →
      f.hrw.ring.length < 256 → f.hrw.paused = false → 0 < s.cfg.activeMax → goes .descriptorStart (Fabric.tryEnd s.cfg
        { f with hrw := { f.hrw with descs := [{ d with running := true }], rr := d.queue } } d.ticket)) ∧
    (∀ d x, f.homeOfAll = true → d.marks = [] → d.rescan = false → f.desc d.ticket = some d → d.running = true → f.nextIssue s.cfg d = some x →
      f.hrw.inFlight (sliceOf (BitVec.ofNat 46 x.la)) < s.cfg.linesInflight → ∃ g : Fabric, goes (.harrowLineIssue d.ticket) g ∧
      g.desc d.ticket = some { x.next with nextK := d.nextK + 1, flight := x.next.flight ++ [(d.nextK, x.pass, x.la)] } ∧
      (∃ m, g.arr = f.arr ++ [m] ∧ m.cls = 2 ∧ m.who = .harrow d.ticket d.nextK ∧ m.op = .harrow x.act ∧ m.la = BitVec.ofNat 46 x.la ∧
        m.hdr = x.hdr ∧ m.data = x.data ∧ m.be = x.be ∧ m.pois = x.pois ∧ m.opnd = x.opnd) ∧ g.txns = f.txns ∧ g.mem = f.mem) ∧
    (∀ d x, f.homeOfAll = true → d.marks = [] → d.rescan = false → f.desc d.ticket = some d → d.running = true → f.nextIssue s.cfg d = some x →
      s.cfg.linesInflight ≤ f.hrw.inFlight (sliceOf (BitVec.ofNat 46 x.la)) → goes (.harrowLineIssue d.ticket) f) ∧
    (∀ d a pass la, f.hrw.answers = [a] → f.desc a.ticket = some d → d.flight = [(a.k, pass, la)] → pass ≠ 9 → (d.op = 1 ∨ d.op = 2 ∨ d.op = 3) →
      f.mirrors = false → ∃ g : Fabric, goes (.harrowLineAnswer a.ticket) ((g.tryEnd s.cfg a.ticket).cutRest s.cfg) ∧ g.hrw.answers = [] ∧ ∃ e, g.desc a.ticket = some e ∧
        e.flight = [] ∧ e.result = (if a.wrote then d.result + 1 else d.result) ∧ e.transient = d.transient + b2n a.transient ∧
        e.locked = (match a.locked with | some k => addOnce k d.locked | none => d.locked) ∧ e.poisoned = d.poisoned) ∧
    (∀ d a la, f.hrw.answers = [a] → f.desc a.ticket = some d → d.flight = [(a.k, 9, la)] → ∃ e : Desc,
      goes (.harrowLineAnswer a.ticket) (Fabric.cutRest s.cfg (Fabric.retire s.cfg
        (let g : Fabric := { f with hrw := { f.hrw with answers := [] } }
         if dscIrq d.raw then g.raise 145 else g) e)) ∧ e = { d with flight := [] }) ∧
    (∀ u line, s.cfg.patrolEn = true → f.gln.stopped = false → f.nextDdr s.cfg u (vget f.gln.ddrPos 0 u) = some line → ∃ g : Fabric,
      goes (.patrolReadIssue true u) g ∧ g.mem.dq = f.mem.dq ++ [MemReq.read line 3 .patrol] ∧ g.gln.ddrPos = vset f.gln.ddrPos u (line + 1) ∧
      g.mem.hq = f.mem.hq ∧ g.txns = f.txns) ∧
    (∀ u word, s.cfg.patrolEn = true → f.gln.stopped = false →
      f.patrolWord s.cfg u (f.nextPlace s.cfg u 1290 (vget f.gln.hbmPos 0 u)) = some word → ∃ g : Fabric,
      goes (.patrolReadIssue false u) g ∧ g.mem.hq = f.mem.hq ++ [MemReq.read word 3 .patrol] ∧ g.mem.dq = f.mem.dq ∧ g.txns = f.txns) ∧
    (∀ ddr u, (s.cfg.patrolEn = false ∨ f.gln.stopped = true) → goes (.patrolReadIssue ddr u) f) ∧
    (∀ r rest, f.mem.dq = r :: rest → r.write = false → r.again = false → r.who = .patrol → ∃ m : Mem,
      goes (.patrolReadResult true r.word ErrPat.none) { f with mem := m } ∧ m.dq = rest ∧ m.ddr = f.mem.ddr ∧ m.hbm = f.mem.hbm ∧ m.hq = f.mem.hq) ∧
    (∀ r rest, f.mem.hq = r :: rest → r.write = false → r.again = false → r.who = .patrol →
      (∀ w mirror, mapAt r.word = some (w, mirror) → (w, ! mirror) ∉ f.mem.mapBad) → ∃ m : Mem,
      goes (.patrolReadResult false r.word ErrPat.none) { f with mem := m } ∧ m.hq = rest ∧ m.ddr = f.mem.ddr ∧ m.hbm = f.mem.hbm ∧ m.dq = f.mem.dq) ∧
    (∀ r rest, s.stw.up = true → f.gln.repairs.filter (fun r => r.state = 0) = r :: rest → f.gln.pendingCount < 64 → r.block < 10 →
      ∃ t, exec .repairCandidateRecord s = .next t ∧ t.fab.gln.repairs = f.gln.recorded ++ [{ r with state := 1 }] ++ rest ∧
        t.fab.gln.fuses = f.gln.fuses ∧ (∃ e, t.stw.jrnl.entries = s.stw.jrnl.entries ++ [e] ∧ e.rtype = 0x30) ∧ t.cfg = s.cfg ∧ t.irq = s.irq) ∧
    (∀ r rest, s.stw.up = true → f.gln.repairs.filter (fun r => r.state = 0) = r :: rest → 64 ≤ f.gln.pendingCount →
      ∃ t, exec .repairCandidateRecord s = .next t ∧
      t.fab.gln.repairs = f.gln.recorded ++ rest ∧ (174, 0) ∈ t.fab.raised ∧ t.fab.mem = f.mem ∧ t.cfg = s.cfg)

/-- Hello, heartbeat, time, agent map and copy end act on the pair as their rules give. (R348, R353, R354, R357, R372,
R374). Roles of a survivor are log entry 54, tenths log entry 57, slewing log entry 58, copy items log entry 52. -/
def Obligations.TheTwinGreetsAndKeepsTime : Prop :=
  ∀ s : State, s.on 8 = true →
    let f := s.fab
    let goes := fun (c : Instr) (g : Fabric) => exec c s = .next (s.after g)
    let tells := fun (c : Instr) (k p : Nat) => goes c { f with
      twin := { f.twin with sentCtl := f.twin.sentCtl ++ [(k, p)] }
      tlink := f.tlink.send twinKind (ctlMsg k p) }
    let agree := fun (h : Hello) => s.ownHello.digest = h.digest ∧ s.ownHello.fwMajor = h.fwMajor ∧ s.ownHello.fwMinor = h.fwMinor ∧
      s.ownHello.capGib = h.capGib ∧ s.ownHello.epoch = h.epoch ∧ s.ownHello.time = h.time ∧ s.ownHello.survived = h.survived
    (∀ h primary, s.cfg.twinEn = true → f.tlink.st = .active → f.twin.pair ≠ .paired → f.twin.pair ≠ .isolated → agree h →
      helloRole s.ownHello h = some primary → ∃ g, goes (.twinHello h) g ∧
        g.twin = { f.twin with
          partner := some h
          heard := true
          pair := if f.twin.pair = .single then .hello else f.twin.pair
          role := if f.twin.role = 3 then 3 else if primary then 1 else 2
          wantDrain := true } ∧
        g.links = f.links ∧ g.tlink = (f.ctlTaken 3).tlink ∧ g.txns = f.txns ∧ g.time = f.time) ∧
    (∀ h primary, s.cfg.twinEn = true → f.tlink.st = .declare → f.twin.pair ≠ .isolated → agree h →
      helloRole s.ownHello h = some primary → ∃ g, goes (.twinHello h) g ∧ g.tlink.st = .active ∧
        g.twin.sentCtl.take (f.twin.sentCtl.length + 1) = f.twin.sentCtl ++ [(3, 0)] ∧ g.twin.partner = some h ∧ g.twin.heard = true ∧
        g.twin.pair = (if f.twin.pair = .single then .hello else f.twin.pair) ∧
        g.twin.role = (if f.twin.role = 3 then 3 else if primary then 1 else 2) ∧ g.twin.wantDrain = true ∧
        g.links = f.links ∧ g.txns = f.txns ∧ g.time = f.time) ∧
    (∀ h, s.cfg.twinEn = true → f.tlink.st = .active → f.twin.pair = .paired →
      goes (.twinHello h) { f.ctlTaken 3 with twin := { f.twin with partner := some h, heard := true } }) ∧
    (∀ h, s.cfg.twinEn = true → f.tlink.st = .active → f.twin.pair ≠ .paired → s.ownHello.digest ≠ h.digest → ∃ g, goes (.twinHello h) g ∧
        g.twin = { f.twin with
          partner := some h
          heard := true
          pair := if f.twin.pair = .hello then .single else f.twin.pair
          disagree := true
          disCode := 1 } ∧ (34, 0) ∈ g.raised ∧ g.links = f.links ∧ g.tlink = (f.ctlTaken 3).tlink ∧ g.txns = f.txns) ∧
    (∀ h, (s.cfg.twinEn = false ∨ (f.tlink.st ≠ .declare ∧ f.tlink.st ≠ .active)) → goes (.twinHello h) (f.ctlTaken 3)) ∧
    (s.cfg.twinEn = true → f.tlink.st = .active → tells .twinHeartbeat 2 0) ∧
    ((s.cfg.twinEn = false ∨ f.tlink.st ≠ .active) → goes .twinHeartbeat f) ∧
    ((f.twin.role = 1 ∨ f.twin.role = 3) → f.tlink.st = .active → tells .timeSyncSend 5 f.time.toNat) ∧
    (((f.twin.role ≠ 1 ∧ f.twin.role ≠ 3) ∨ f.tlink.st ≠ .active) → goes .timeSyncSend f) ∧
    (∀ (t : Word64) rt, f.twin.role = 2 → (t.toNat + rt / 2 ≤ f.time.toNat + 1 ∧ f.time.toNat ≤ t.toNat + rt / 2 + 1) →
      goes (.timeSyncReceive t rt) (f.ctlTaken 5)) ∧
    (∀ (t : Word64) rt, f.twin.role = 2 → (f.time.toNat + 1 < t.toNat + rt / 2 ∨ t.toNat + rt / 2 + 1 < f.time.toNat) →
      goes (.timeSyncReceive t rt) { f.ctlTaken 5 with
        time := BitVec.ofNat 64 (t.toNat + rt / 2)
        twin := { f.twin with timeStep := true }
        raised := f.raised ++ [(35, 0)]
        jreq := f.jreq ++ [(0x13, (BitVec.ofNat 64 (t.toNat + rt / 2)).toNat, f.time.toNat)] }) ∧
    (∀ (t : Word64) rt, f.twin.role ≠ 2 → goes (.timeSyncReceive t rt) (f.ctlTaken 5)) ∧
    (∀ k, (f.ctlTaken k).twin = f.twin ∧ (f.ctlTaken k).links = f.links ∧ (f.ctlTaken k).txns = f.txns ∧
      ((∀ m ∈ f.tlink.rxq, ¬ (13 ≤ bitsOf m.hdr.toNat 0 4 ∧ bitsOf m.hdr.toNat 4 4 = k)) → f.ctlTaken k = f)) ∧
    (∀ uid a slot sets ways, goes (.agentMapUpdate uid a slot sets ways false)
      { f.ctlTaken 6 with twin := { f.twin with agentMap := f.twin.agentMap.filter (fun m => m.1 ≠ uid) } }) ∧
    (∀ uid a slot sets ways, f.draining = true → goes (.agentMapUpdate uid a slot sets ways true)
      { f.ctlTaken 6 with twin := { f.twin with agentMap := f.twin.agentMap.filter (fun m => m.1 ≠ uid) ++ [(uid, a, slot, sets, ways)] } }) ∧
    (∀ uid a slot sets ways, f.draining = false → ∃ g, goes (.agentMapUpdate uid a slot sets ways true) g ∧
      g.twin = { f.twin with agentMap := f.twin.agentMap.filter (fun m => m.1 ≠ uid) ++ [(uid, a, slot, sets, ways)] } ∧
      (∀ b d, b < 32 → (f.link b).decl = some d → dclUid d = uid.toNat →
        g.link b = Link.pump portKind { f.link b with withhold := false }) ∧
      (∀ b, b < 32 → (∀ d, (f.link b).decl = some d → dclUid d ≠ uid.toNat) → g.link b = f.link b) ∧
      g.txns = f.txns ∧ g.mem = f.mem ∧ g.gran = f.gran) ∧
    (f.twin.pair ≠ .resync → goes .resyncCopyEnd f) ∧
    (f.twin.pair = .resync → ∃ g n, goes .resyncCopyEnd g ∧ g.raised = f.raised ++ List.replicate n (39, 0) ∧
      (f.twin.percent = 0 → n = 10) ∧
      g.twin.percent = 100 ∧ g.twin.wantDrain = true ∧
      g.twin.sentCopy = f.twin.sentCopy ++ (if f.twin.rejoiner = true then [] else f.copyItems) ∧
      g.twin.outstanding.length + g.twin.late.length = f.twin.outstanding.length + f.twin.late.length +
        (if f.twin.rejoiner = true then 0 else f.copyItems.length) ∧ g.links = f.links ∧ g.txns = f.txns ∧ g.mem = f.mem)

/-- The loss of the partner is decided by WITNESS and PAIR_ROLE, and the survivor takes over. (R350, R363, R364, R365,
R367). -/
def Obligations.LosingThePartnerIsDecided : Prop :=
  (∀ s : State, s.on 8 = true → s.cfg.twinEn = true →
     let f := s.fab
     let w := f.twin
     let goes := fun (c : Instr) (g : Fabric) => exec c s = .next (s.after g)
     let failsOver := fun (c : Instr) (t : Twin) => ∃ g : Fabric, goes c (Fabric.gatesOpen s.cfg (Fabric.settle s.cfg g)) ∧
       g.twin = { t with
         pair := .failover
         step := 4
         outstanding := []
         late := []
         tracking := true
         resyncMap := []
         epochAtFail := f.epoch } ∧
       (∀ i, vget g.resv none i = none) ∧ g.tlink.txq = [] ∧ (36, 0) ∈ g.raised ∧ g.txns = f.txns ∧ g.gran = f.gran ∧ g.mem = f.mem ∧ g.arr = f.arr
     let quiet := ∀ a, a < 32 → (f.link a).st ≠ .active ∧ (f.link a).st ≠ .recovery
     let lost := { w with heard := false }
     (∀ p ∈ [(Instr.twinGoodbye, f.ctlTaken 4), (.hbTimeout, f)],
       let c := p.1
       let twin := fun (t : Twin) (e : List (Nat × Nat)) => goes c { p.2 with
         twin := t
         raised := f.raised ++ e }
       (w.pair = .hello → twin { lost with pair := .single } [(32, 0)]) ∧
       (w.pair = .paired → w.step = 0 → w.witness = 1 → twin { lost with step := 2 } []) ∧
       (w.pair = .paired → w.step = 0 → w.witness ≠ 1 → w.witness ≠ 2 → w.strap = false → twin { lost with
         step := 0
         pair := .waiting } [(32, 0), (38, 0)]) ∧
       (w.pair = .paired → w.step = 0 → (w.witness = 2 ∨ (w.witness ≠ 1 ∧ w.strap = true)) → failsOver c lost) ∧
       (w.pair = .paired → w.step ≠ 0 → twin lost []) ∧
       (w.pair = .resync → w.rejoiner = false → twin { lost with pair := if w.survived = true then .survivor else .single } [(32, 0)]) ∧
       (w.pair = .resync → w.rejoiner = true → goes c (Fabric.isolate s.cfg { p.2 with twin := lost })) ∧
       (w.pair = .resync → w.rejoiner = true → quiet → twin { lost with pair := .isolated } [(32, 0), (38, 0)]) ∧
       (w.pair ≠ .hello → w.pair ≠ .paired → w.pair ≠ .resync → twin lost [])) ∧
     (∀ up down, let v : BitVec 2 := if up = down then (if up = true then 2 else 1) else 0
       ((v = 2 ∧ (w.step = 2 ∨ w.pair = .waiting)) → failsOver (.witnessTest up down) { w with witness := v }) ∧
       (¬ (v = 2 ∧ (w.step = 2 ∨ w.pair = .waiting)) → goes (.witnessTest up down) { f with twin := { w with witness := v } })) ∧
     (w.step ≠ 2 → goes .witnessWaitExpiry f) ∧
     (w.step = 2 → goes .witnessWaitExpiry (Fabric.isolate s.cfg { f with twin := { w with step := 0 } })) ∧
     (w.step = 2 → quiet → w.pair ≠ .isolated → goes .witnessWaitExpiry { f with
       twin := { w with
         step := 0
         pair := .isolated }
       raised := f.raised ++ [(32, 0), (38, 0)] })) ∧
  (∀ s : State, s.on 8 = true → s.cfg.twinEn = true →
     let f := s.fab
     let w := f.twin
     let goes := fun (c : Instr) (g : Fabric) => exec c s = .next (s.after g)
     (w.step ≠ 4 → goes .failoverReplayEnd f) ∧
     (w.step = 4 → w.backlog = [] → goes .failoverReplayEnd { f with twin := { w with step := 5 } }) ∧
     (∀ r, w.step = 4 → w.backlog = [r] → goes .failoverReplayEnd
       (let g := Fabric.settle s.cfg (Fabric.applyRec s.cfg { f with twin := { w with backlog := [] } } r)
        { g with twin := { g.twin with step := 5 } })) ∧
     (w.step ≠ 5 → goes .reconcileWaitExpiry f) ∧
     (w.step = 5 → w.opens = [] → f.txns = [] → (∀ a, a < 32 → f.notTwin a = false) → ∃ g : Fabric,
       goes .reconcileWaitExpiry (Fabric.settle s.cfg g) ∧
       g.twin = { w with
         opens := []
         pair := .survivor
         step := 7
         role := 3
         failovers := bvSat w.failovers 1
         survived := true
         resendOpen := true
         stbyWalk := true } ∧
       (37, 0) ∈ g.raised ∧ g.txns = [] ∧ g.gran = f.gran ∧ g.mem = f.mem ∧ (∃ h, g.holds = f.holds ++ h ∧
         ∀ x ∈ h, x.slice = sliceOf x.la ∧ 0 < s.cfg.holdTime x.slice ∧ parityH x.la ≠ decide (w.role = 2)) ∧ g.hrw.descs = f.hrw.descs.map Desc.resume) ∧
     (w.resendOpen = false → goes .resendWindowExpiry f) ∧
     (w.resendOpen = true → (∀ t ∈ f.txns, t.op ≠ .reconcile) → goes .resendWindowExpiry (Fabric.settle s.cfg { f with twin := { w with
       resendOpen := false
       step := if w.stbyWalk = true then 7 else 0 } })) ∧
     (∀ t, w.resendOpen = true → f.txns = [t] → t.op = .reconcile → t.value = 0 → goes .resendWindowExpiry (Fabric.settle s.cfg { f with
       txns := [{ t with ackIn := true }]
       twin := { w with
         resendOpen := false
         step := if w.stbyWalk = true then 7 else 0 } })) ∧
     (∀ t sn k m, w.resendOpen = true → f.txns = [t] → t.op = .reconcile → t.value = 1 → t.snoops = [sn] → sn.op = .snpOwn →
       sn.resp = some (.rspI, k, m) → t.todo = [.ack] → goes .resendWindowExpiry (Fabric.settle s.cfg { f with
       txns := [{ t with
         ackIn := true
         todo := poisonP }]
       twin := { w with
         resendOpen := false
         step := if w.stbyWalk = true then 7 else 0 } })) ∧
     (w.stbyWalk = false → goes .stbyWalkEnd f) ∧
     (w.stbyWalk = true → ∃ c : Cache, goes .stbyWalkEnd { f with
         cache := c
         twin := { w with
           stbyWalk := false
           step := if w.resendOpen = true then 7 else 0 } } ∧
       c.sectors = f.cache.sectors.map (fun p => (p.1, { p.2 with stby := false })) ∧ c.cober = f.cache.cober ∧ c.tc = f.cache.tc))

/-- A record in its place is kept and acknowledged, applied once, and released by the partner's acknowledgement. (R24,
R28, R285, R357, R358, R359, R360, R361). The shape of records is log entry 52. -/
def Obligations.LogRecordsAreTakenAndApplied : Prop :=
  ∀ s : State, s.on 8 = true →
    let f := s.fab
    let w := f.twin
    let goes := fun (c : Instr) (g : Fabric) => exec c s = .next (s.after g)
    (∀ r, f.tlink.st = .active → vget w.expect 0 r.src = r.lseq → let q := f.fromTwin r.header
      goes (.logRecordReceive r) { q with
        twin := { w with
          backlog := w.backlog ++ [r]
          expect := vset w.expect r.src ((r.lseq + 1) % 2 ^ 24)
          sentCtl := w.sentCtl ++ [(1, r.src + 16 * r.lseq)] }
        tlink := q.tlink.send twinKind (ctlMsg 1 (r.src + 16 * r.lseq)) }) ∧
    (∀ r, f.tlink.st = .active → vget w.expect 0 r.src ≠ r.lseq → ∃ g, goes (.logRecordReceive r) g ∧
      g.tlink.st = .recovery ∧ g.twin = w ∧ g.links = f.links ∧ (33, 0) ∈ g.raised ∧ g.txns = f.txns) ∧
    (∀ r, f.tlink.st ≠ .active → goes (.logRecordReceive r) (f.fromTwin r.header)) ∧
    (∀ src, (∀ r ∈ w.backlog, r.src ≠ src) → goes (.logRecordApply src) f) ∧
    (∀ r rest, w.backlog = r :: rest →
      let g : Fabric := { f with twin := { w with backlog := rest } }
      (∀ rg, r.rtype = 8 → r.gch = none → r.txn = none → s.cfg.regionOf r.la = some rg → let page := backPage (rg.backLine r.la)
        ∃ h : Fabric, goes (.logRecordApply r.src) (Fabric.settle s.cfg h) ∧ h.mem.marked page = decide (r.rseq ≠ 1) ∧
          h.mem.dq = f.mem.dq ++ (if r.rseq = 1 ∧ f.mem.marked page = true then
            (List.range 64).map (fun k => { MemReq.wr (page * 64 + k) 0 allEn false .none with acc := true }) else []) ∧
          h.mem.ddr = f.mem.ddr ∧ h.mem.hbm = f.mem.hbm ∧ h.txns = f.txns ∧ h.gran = f.gran ∧ h.twin = { w with backlog := rest } ∧
          h.hrw.descs = (if r.rseq = 1 then f.hrw.descs
            else f.hrw.descs.map (fun d => { d with marks := d.marks ++ [pageMark (r.la.toNat / 64)] }))) ∧
      (∀ gc k st set way k', r.rtype = 3 → r.txn = none → r.data = none → r.gch = some gc → gc.remove = 0 → gc.toS = 0 →
        gc.write = some (k, st, set, way) → f.slotHere k = some k' → goes (.logRecordApply r.src) (Fabric.settle s.cfg
          { g with gran := f.gran.place (locNum k' set way) r.la st })) ∧
      (∀ rg d p key, r.rtype = 6 → r.gch = none → r.txn = none → r.data = some (d, p) → s.cfg.regionOf r.la = some rg → rg.line = false →
        rg.typ.cacheable = true → s.cfg.cacheEn (sliceOf r.la) = true → f.cache.findSector (setOf r.la) (tagOf r.la) = some key →
        ∃ c : Cache, (let q : MemReq := { MemReq.wr (subWord (key / 10) (key % 10) (subOf r.la)) d allEn p .none with acc := true }
          let m : Mem := { f.mem with hq := f.mem.hq ++ [q] }
          goes (.logRecordApply r.src) (Fabric.settle s.cfg { g with
            cache := c
            mem := m })) ∧
          (∀ x, f.cache.sector key = some x → ∃ y, c.sector key = some y ∧ y.stby = true ∧
            y.tag = x.tag ∧ y.valid.getLsbD (subOf r.la) = true ∧ y.dirty.getLsbD (subOf r.la) = true ∧ y.poison.getLsbD (subOf r.la) = p)) ∧
      (∀ x, r.rtype = 4 → r.gch = none → r.txn = some x → r.data = none → ∃ t : Twin, goes (.logRecordApply r.src) (Fabric.settle s.cfg
          { f with twin := t }) ∧ t.backlog = rest ∧ Tab.find t.dups x.htag = none ∧
          (∀ o ∈ t.opens, o ∈ w.opens ∧ ∀ y, o.txn = some y → y.htag ≠ x.htag) ∧
          (∀ k e, (k, e) ∈ t.dedup → e.htag = x.htag → e.live = false → e.opn = false))) ∧
    (∀ src lseq, f.unacked (src, lseq) = false → goes (.twinAckReceive src lseq) ((f.ctlTaken 1).flow s.cfg)) ∧
    (∀ src lseq, f.unacked (src, lseq) = true →
      let t : Twin := { w with outstanding := w.outstanding.filter (fun r => ¬ (r.src = src ∧ (lseq + 2 ^ 24 - r.lseq) % 2 ^ 24 < 2 ^ 23)) }
      let g : Fabric := { f.ctlTaken 1 with twin := t }
      goes (.twinAckReceive src lseq) (Fabric.flow s.cfg (Fabric.svcRun s.cfg (Fabric.gatesOpen s.cfg (Fabric.settle s.cfg
        (lateGo w.late.length g))))) ∧ (w.late = [] → lateGo w.late.length g = g))

/-- Each drain step ends only when its condition holds and begins the next. (R182, R208, R325, R326, R327). A step
whose condition does not hold stays (log entry 3); that it moves only while the Steward is up is log entry 84; which
records gate the steps is log entry 105. -/
def Obligations.DrainStepsEndInOrder : Prop :=
  (∀ s : State, s.stw.up = true →
     let goes := fun (c : Instr) (u : State) => exec c s = .next (s.followed u)
     let ends := fun (c : Instr) (t : State) =>
       ((s.fab.mirrors = false ∨ s.stw.stopping = true) → goes c t) ∧
       (s.fab.mirrors = true → s.stw.stopping = false →
         (s.stw.stepGate = none → s.fab.logFull = true → goes c s) ∧
         (s.stw.stepGate = none → s.fab.logFull = false → let r := s.fab.logRec (stewRec (t.stw.step + 16 * t.stw.sub) 1)
           goes c { s with fab := r.1, stw := { s.stw with stepGate := some r.2 } }) ∧
         (∀ k, s.stw.stepGate = some k → s.fab.unacked k = true → goes c s) ∧
         (∀ k, s.stw.stepGate = some k → s.fab.unacked k = false → goes c { t with stw := { t.stw with stepGate := none } }))
     let cut := (s.fab.harrowCut s.cfg).flow s.cfg
     (s.stw.preclean = true → s.fab.queue1Empty = true → goes .precleanEnd s.step1) ∧
     ((s.stw.preclean = false ∨ s.fab.queue1Empty = false) → goes .precleanEnd s) ∧
     (s.stw.step = 1 → ends .drainStepEnd { s with
       fab := cut
       stw := { s.stw with step := 2 } }) ∧
     (s.stw.step = 2 → cut.drained = true → ends .drainStepEnd { s with
       fab := { cut with resv := Vector.replicate 256 none }
       stw := { s.stw with step := 3 } }) ∧
     (s.stw.step = 2 → cut.drained = false → goes .drainStepEnd { s with fab := cut }) ∧
     (s.stw.step = 3 → s.fab.buffersClear = true → ends .drainStepEnd { s with stw := { s.stw with step := 4 } }) ∧
     (s.stw.step = 3 → s.fab.buffersClear = false → goes .drainStepEnd s) ∧
     (s.stw.step = 4 → let u := { s with
         wgb := s.wgb.closeShort
         stw := { s.stw with step := 5 } }
       ((s.fab.mirrors = false ∨ (s.fab.twin.outstanding = [] ∧ s.fab.twin.late = [] ∧ s.stw.stopping = true)) → goes .drainStepEnd u) ∧
       (s.fab.mirrors = true → s.fab.twin.outstanding = [] → s.fab.twin.late = [] → s.stw.stopping = false →
         (s.stw.stepGate = none → let r := s.fab.logRec (stewRec 5 1)
           goes .drainStepEnd { s with fab := r.1, stw := { s.stw with stepGate := some r.2 } }) ∧
         (∀ k, s.stw.stepGate = some k → goes .drainStepEnd { u with stw := { u.stw with stepGate := none } }))) ∧
     (s.stw.step = 4 → ¬ (s.fab.twin.outstanding = [] ∧ s.fab.twin.late = []) → s.fab.mirrors = true → goes .drainStepEnd s) ∧
     (s.stw.step = 5 → s.wgb.powered = true → s.wgb.tcxoOk = true → s.wgb.short.isSome = true → goes .drainStepEnd s) ∧
     (s.stw.step = 5 → (s.wgb.powered = false ∨ s.wgb.tcxoOk = false ∨ s.wgb.short = none) → ∃ u, ends .drainStepEnd u ∧
       u.stw = { s.stw with step := 6 } ∧ u.irq = s.irq.quieten ∧ u.wgb = s.wgb ∧ u.cfg = s.cfg ∧
       u.fab = { s.fab with pfu := u.fab.pfu } ∧ u.fab.pfu.streams = [] ∧ u.fab.pfu.record = [] ∧ u.fab.pfu.mode = 0) ∧
     (s.stw.step = 6 → (∀ m, s.stw.by_ ≠ .stop m) → ends .drainStepEnd { s with
       stw := { s.stw with
         step := 7
         sub := 1
         jrnl := s.stw.jrnl.append 0x10 0
           (leBytes (s.stw.jrnl.committed + 1) 4 ++ leBytes s.stw.staged.digest.toNat 48 ++ [s.stw.opts % 256]) } }) ∧
     (∀ m, s.stw.step = 6 → s.stw.by_ = .stop m → goes .drainStepEnd { s with
       stw := { s.stw with
         step := 7
         sub := 1 } }) ∧
     ((s.stw.step = 0 ∨ s.stw.step = 7) → goes .drainStepEnd s) ∧
     (s.stw.step = 8 → s.stw.waiting = [] → goes .drainStepEnd { s with
       stw := { s.stw with
         step := 0
         sub := 0 } })) ∧
  (∀ s : State,
     (s.stw.up = false → ∀ c ∈ [Instr.precleanEnd, .drainStepEnd, .tenantRewriteEnd], exec c s = .next s) ∧
     (s.stw.up = true → s.stw.rewrite = false → exec .tenantRewriteEnd s = .next (s.followed s)) ∧
     (s.stw.up = true → s.stw.rewrite = true → ∃ u, exec .tenantRewriteEnd s = .next (s.followed u) ∧
       u.stw = { s.stw with rewrite := false } ∧ (88, 0) ∈ u.fab.raised ∧ u.cfg = s.cfg ∧ u.fab.mem = s.fab.mem ∧
       (∀ key x, s.fab.cache.sector key = some x → ∃ y, u.fab.cache.sector key = some y ∧
         y = { x with tenant := y.tenant } ∧
         (∀ p ∈ s.stw.before.retenanted s.cfg, p.1.base ≤ s.fab.cache.keyPage key → s.fab.cache.keyPage key ≤ p.1.limit →
           (∃ r, s.cfg.regionOfPage (s.fab.cache.keyPage key) = some r ∧ r.tenant = p.2) → y.tenant = BitVec.ofNat 8 p.2) ∧
         ((∀ p ∈ s.stw.before.retenanted s.cfg, ¬ (p.1.base ≤ s.fab.cache.keyPage key ∧ s.fab.cache.keyPage key ≤ p.1.limit)) → y = x))))

/-- The sub-steps 7a to 7g flush, repair, apply, check the pair and commit the epoch. (R182, R290, R324, R331, R335,
R471). Repairs without an outcome count as applied (log entry 79); the stopped state is log entry 82; which records
gate the sub-steps is log entry 105. -/
def Obligations.DrainSubstepsApplyTheConfiguration : Prop :=
  ∀ (s : State) (dis : Nat) (oks : List Bool) (partner : Bool), s.stw.up = true → s.stw.step = 7 →
    let w := s.stw
    let goes := fun (u : State) => exec (.drainSubstepEnd dis oks partner) s = .next (s.followed u)
    let ends := fun (t : State) =>
      ((s.fab.mirrors = false ∨ w.stopping = true) → goes t) ∧
      (s.fab.mirrors = true → w.stopping = false →
        (w.stepGate = none → s.fab.logFull = true → goes s) ∧
        (w.stepGate = none → s.fab.logFull = false → let r := s.fab.logRec (stewRec (t.stw.step + 16 * t.stw.sub) 1)
          goes { s with fab := r.1, stw := { w with stepGate := some r.2 } }) ∧
        (∀ k, w.stepGate = some k → s.fab.unacked k = true → goes s) ∧
        (∀ k, w.stepGate = some k → s.fab.unacked k = false → goes { t with stw := { t.stw with stepGate := none } }))
    let flushed := (w.before.changed w.staged).filter (fun r => r.rtype.cacheable)
    let on7b := w.sub = 1 ∧ (∀ m, w.by_ ≠ .stop m) ∧ w.opts.testBit 2 = false
    let disabling := ∃ i, i < 8 ∧ w.before.cacheEn i = true ∧ w.staged.cacheEn i = false
    let sameCober := w.staged.coberGib = w.before.coberGib ∧ w.staged.coberWays = w.before.coberWays
    (on7b → flushed = [] → sameCober → w.opts.testBit 1 = false → ¬ disabling →
      ends { s with stw := { w with sub := 2 } }) ∧
    (on7b → flushed = [] → sameCober → (w.opts.testBit 1 = true ∨ disabling) →
      ends { s with
        fab := (s.fab.enqueue 50 cleanAll none).1
        stw := { w with sub := 2 } }) ∧
    (∀ r : RgnWords, on7b → flushed = [r] → r.base ≤ r.limit → r.limit < r.base + 2 ^ 27 → sameCober →
      w.opts.testBit 1 = false → ¬ disabling → ends { s with
        fab := (s.fab.enqueue 50 (mkDesc 3 0 (r.base * 4096) ((r.limit + 1 - r.base) * 4096) false) none).1
        stw := { w with sub := 2 } }) ∧
    (on7b → flushed = [] → ¬ sameCober → w.opts.testBit 1 = false → ¬ disabling → ∃ u, ends u ∧
      u.fab.cache.cober = [] ∧ u.fab.cache.sectors = s.fab.cache.sectors ∧ u.stw = { w with sub := 2 } ∧ u.cfg = s.cfg) ∧
    (w.sub = 2 → s.fab.queue1Empty = false → goes s) ∧
    (w.sub = 2 → (∀ m, w.by_ ≠ .stop m) → s.fab.queue1Empty = true → (¬ disabling ∨ s.dirtySum = 0) → ends { s with
      fab := if w.before.changed w.staged = [] then s.fab else s.fab.raise 88
      stw := { w with sub := 3 } }) ∧
    (w.sub = 2 → (∀ m, w.by_ ≠ .stop m) → disabling → s.dirtySum ≠ 0 → goes s) ∧
    (∀ m, w.sub = 2 → w.by_ = .stop m → s.fab.queue1Empty = true → s.fab.mem.dq = [] → m < 17 → (w.mb m).discard = false →
      (w.mb m).rerun = false → (w.mb m).faults = 0 → w.waiting = [] → ∃ u, goes u ∧ u.stw.step = 0 ∧ u.stw.sub = 0 ∧ u.pcr.byStop = true ∧
        u.pcr.stopped = true ∧ (u.stw.mb m).st = .done ∧ (∀ k, k < 31 → u.pcr.pd.toNat.testBit k = true → s.pcr.pd.toNat.testBit k = true ∧ k ∈ [9, 22, 23, 24, 25, 26, 27, 28, 29, 30]) ∧
        u.fab.mem.ddr = s.fab.mem.ddr ∧ u.fab.cache.sectors = [] ∧ u.fab.gran.entries = [] ∧ u.cfg = s.cfg ∧ u.wgb = s.wgb) ∧
    (w.sub = 3 → (∀ r ∈ s.fab.gln.repairs, r.state ≠ 1) → ends { s with stw := { w with sub := 4 } }) ∧
    (∀ r : Repair, w.sub = 3 → s.fab.gln.repairs = [r] → r.state = 1 → ∃ u, ends u ∧ u.stw.sub = 4 ∧ u.stw.step = 7 ∧
      (let dead := 4 ≤ r.block ∧ r.block < 10 ∧ (r.block, s.fab.rankOf r.loc, r.dram) ∈ s.fab.gln.faulty
       let ok := if dead then false else oks.getD 0 true
       let r' : Repair := { r with
         state := if ok = true then 2 else 3
         epoch := w.jrnl.committed + 1 }
       u.fab.gln.repairs = [r'] ∧ ((if ok = true then 173 else 174), 0) ∈ u.fab.raised ∧
       (∃ e ∈ u.stw.jrnl.entries, e.rtype = 0x30 ∧ e.key = 0 ∧ e.body = r'.body) ∧ u.cfg = s.cfg ∧ u.wgb = s.wgb)) ∧
    (w.sub = 4 → ∃ u, ends u ∧ u.cfg = w.staged ∧ u.stw = { w with
        sub := 5
        rewrite := decide (w.before.retenanted w.staged ≠ []) } ∧ u.wgb = s.wgb ∧ u.irq = s.irq ∧
      ((∀ n, n < 16 → (s.cfg.portEn n = true → w.staged.portEn n = true) ∧ w.before.split n = w.staged.split n) →
        u.fab.mem = s.fab.mem ∧ u.fab.txns = s.fab.txns ∧ u.fab.gran = s.fab.gran)) ∧
    (w.sub = 5 → (w.rewrite = true ∨ s.fab.gran.slots.toList.any (fun c => c.walk.isSome) = true) → goes s) ∧
    (w.sub = 5 → w.rewrite = false → s.fab.gran.slots.toList.any (fun c => c.walk.isSome) = false → ends { s with stw := { w with sub := 6 } }) ∧
    (w.sub = 6 → (dis = 0 ∨ s.together = false) → ends { s with stw := { w with sub := 7 } }) ∧
    (w.sub = 6 → dis ≠ 0 → s.together = true → ∃ u, ends u ∧ u.cfg = w.before ∧ u.stw = { w with
        sub := 7
        disagree := dis } ∧
      ((∀ n, n < 16 → s.cfg.portEn n = true → w.before.portEn n = true) → (dis ≠ 2 ∨ s.fab.primary = true) →
        u.fab.twin.disagree = true ∧ u.fab.twin.disCode = BitVec.ofNat 4 dis ∧ (34, 0) ∈ u.fab.raised ∧ u.fab.mem = s.fab.mem)) ∧
    (w.sub = 7 → w.done7g = false → s.together = true → partner = false → ∃ u, goes u ∧
      u.fab = { s.fab with epoch := w.jrnl.committed + 1 } ∧ u.stw.done7g = true ∧ u.stw.step = 7 ∧ u.stw.sub = 7 ∧ u.cfg = s.cfg ∧
      (w.jrnl.committed + 1 < 2 ^ 32 → u.stw.jrnl.committed = w.jrnl.committed + 1)) ∧
    (w.sub = 7 → (s.together = false ∨ partner = true) →
      let resumed := fun (g : Fabric) => Fabric.flow s.cfg (Fabric.svcRun s.cfg
        (s.fab.portHeld.foldl (fun f p => f.deliverHeld s.cfg p) (g.answerHeld s.cfg)))
      ∃ u g, ends u ∧ g.epoch = (if w.done7g = true then s.fab.epoch else w.jrnl.committed + 1) ∧ g.draining = false ∧
        g.portHeld = [] ∧ g.gln.stopped = false ∧ g.hrw.paused = false ∧ g.hrw.cutting = false ∧ g.pfu.stopped = false ∧ (226, 0) ∈ g.raised ∧
        g.txns = s.fab.txns ∧ g.mem = s.fab.mem ∧ g.gran = s.fab.gran ∧
        u.stw.step = 8 ∧ u.stw.sub = 0 ∧ u.stw.staged = s.cfg ∧ u.cfg = s.cfg ∧ u.irq = s.irq.resume ∧ u.wgb = s.wgb ∧
        ((∀ m, w.by_ ≠ .apply m) → u.fab = resumed g) ∧
        (∀ m, w.by_ = .apply m → m < 16 → (w.mb m).opcode = 0x0201 → (w.mb m).discard = false → (w.mb m).rerun = false →
          (w.mb m).faults = 0 → u.fab = (resumed g).level (200 + m) true ∧ (u.stw.mb m).st = .done ∧ u.stw.lastMb = m ∧
          u.stw.lastTag = (w.mb m).cmdTag ∧ u.stw.lastStatus = (if w.disagree = 0 then 0 else 0x0203) ∧
          u.stw.lastEpoch = (resumed g).epoch))

/-- Every step keeps each interrupt count, latch and statistic within its field. (R477, R482, R485, R486, R488, R492).
-/
def Obligations.EveryStepKeepsInterruptCountsInTheirFields : Prop :=
  ∀ s t : State, s.irq.Bounded → step s = .next t → t.irq.Bounded

/-- Once sealed, the Weighbridge stays sealed with its parameters and identity, whatever command runs. (R336, R396,
R397). -/
def Obligations.EveryStepKeepsTheSeal : Prop :=
  ∀ s t : State, s.wgb.sealed = true → step s = .next t → s.wgb.SealKept t.wgb

/-- The applied configuration changes only at 7d or 7f of a drain, by a kept write, at start-up, or by a reset. (R331,
R332, R333, R336, R531). -/
def Obligations.TheConfigurationChangesOnlyInADrainOrAStart : Prop :=
  ∀ (s t : State) (c : Instr), exec c s = .next t → t.cfg = s.cfg ∨ s.configures c = true ∨
    (t.cfg = Cfg.reset ∧ t.irq = Irq.init ∧ t.wgb = s.wgb ∧ t.stw.step = 0)
end

