-- ==== Sys2Proof/Laws/Tables.lean ====
section
/-! SUPPORT. What the sparse tables, the vectors and the memory operations do, said once: a read after a write,
and the canonical form (keys strictly rising, no entry equal to what an unlisted key reads as). -/
namespace Sys2Proof.Machine

/-! ## Tables -/

@[simp] theorem Tab.find_nil {α : Type} (k : Nat) : Tab.find ([] : Tab α) k = none := rfl

/-- What a table lists under `j` after an entry is listed under `k`. -/
theorem Tab.find_set {α : Type} (k : Nat) (v : α) (j : Nat) :
    (t : Tab α) → Tab.find (Tab.set t k v) j = if k = j then some v else Tab.find t j
  | [] => rfl
  | (i, w) :: t => by
    have ih := Tab.find_set k v j t
    rw [Tab.set]
    by_cases below : k < i
    · rw [if_pos below, Tab.find]
    · by_cases here : k = i
      · subst here
        rw [if_neg below, if_pos rfl, Tab.find, Tab.find]
        by_cases hj : k = j <;> simp [hj]
      · rw [if_neg below, if_neg here, Tab.find, Tab.find, ih]
        by_cases hi : i = j
        · rw [if_pos hi, if_pos hi, if_neg (fun e => here (e.trans hi.symm))]
        · rw [if_neg hi, if_neg hi]

/-- What a table lists under `j` after key `k` is removed. -/
theorem Tab.find_erase {α : Type} (k j : Nat) :
    (t : Tab α) → Tab.find (Tab.erase t k) j = if k = j then none else Tab.find t j
  | [] => by simp [Tab.erase]
  | (i, w) :: t => by
    have ih := Tab.find_erase k j t
    have e : Tab.erase ((i, w) :: t) k = if i = k then Tab.erase t k else (i, w) :: Tab.erase t k := by
      by_cases hi : i = k <;> simp [Tab.erase, hi]
    rw [e]
    by_cases hi : i = k
    · rw [if_pos hi, ih, Tab.find, hi]
      by_cases hj : k = j <;> simp [hj]
    · rw [if_neg hi, Tab.find, ih, Tab.find]
      by_cases hj : i = j
      · rw [if_pos hj, if_pos hj, if_neg (fun e => hi (hj.trans e.symm))]
      · rw [if_neg hj, if_neg hj]

theorem Tab.find_set_same {α : Type} (t : Tab α) (k : Nat) (v : α) : Tab.find (Tab.set t k v) k = some v :=
  (Tab.find_set k v k t).trans (if_pos rfl)

theorem Tab.find_set_other {α : Type} (t : Tab α) (k j : Nat) (v : α) (h : j ≠ k) :
    Tab.find (Tab.set t k v) j = Tab.find t j := (Tab.find_set k v j t).trans (if_neg h.symm)

theorem Tab.find_erase_same {α : Type} (t : Tab α) (k : Nat) : Tab.find (Tab.erase t k) k = none :=
  (Tab.find_erase k k t).trans (if_pos rfl)

theorem Tab.find_erase_other {α : Type} (t : Tab α) (k j : Nat) (h : j ≠ k) :
    Tab.find (Tab.erase t k) j = Tab.find t j := (Tab.find_erase k j t).trans (if_neg h.symm)

/-- What a key reads as after a write of key `k`. -/
theorem Tab.get_put {α : Type} [DecidableEq α] (d : α) (t : Tab α) (k : Nat) (v : α) (j : Nat) :
    Tab.get (Tab.put d t k v) d j = if k = j then v else Tab.get t d j := by
  rw [Tab.get, Tab.put, apply_ite (fun l => Tab.find l j), Tab.find_erase, Tab.find_set]
  by_cases hj : k = j
  · by_cases hv : v = d <;> simp [hj, hv]
  · simp [hj, Tab.get]

/-- A read of the key that a write names gives the value written. -/
@[simp] theorem Tab.get_put_same {α : Type} [DecidableEq α] (d : α) (t : Tab α) (k : Nat) (v : α) :
    Tab.get (Tab.put d t k v) d k = v := (Tab.get_put d t k v k).trans (if_pos rfl)

/-- A write leaves every other key as it was. -/
theorem Tab.get_put_other {α : Type} [DecidableEq α] (d : α) (t : Tab α) (k j : Nat) (v : α) (h : j ≠ k) :
    Tab.get (Tab.put d t k v) d j = Tab.get t d j := (Tab.get_put d t k v j).trans (if_neg h.symm)

/-- A table whose keys rise strictly, as a relation between its entries. -/
theorem Tab.rising_iff {α : Type} : (t : Tab α) → (Tab.rising t = true ↔ (t.map Prod.fst).IsChain (· < ·))
  | [] => by simp [Tab.rising]
  | [_] => by simp [Tab.rising]
  | (i, v) :: (j, w) :: t => by
    have ih := Tab.rising_iff ((j, w) :: t)
    rw [Tab.rising, Bool.and_eq_true, ih]
    simp

/-- A table whose keys rise strictly. -/
theorem Tab.rising_pairwise {α : Type} (t : Tab α) : Tab.rising t = true ↔ t.Pairwise (fun p q => p.1 < q.1) := by
  rw [Tab.rising_iff, List.isChain_iff_pairwise, List.pairwise_map]

/-- An entry of a table after a write is the one written or was there before. -/
theorem Tab.mem_set {α : Type} (k : Nat) (v : α) (p : Nat × α) : (t : Tab α) → p ∈ Tab.set t k v → p = (k, v) ∨ p ∈ t
  | [], h => .inl (List.mem_singleton.mp h)
  | (j, w) :: t, h => by
    have ih := Tab.mem_set k v p t
    rw [Tab.set] at h
    by_cases below : k < j
    · rw [if_pos below] at h
      exact List.mem_cons.mp h
    · by_cases here : k = j
      · rw [if_neg below, if_pos here] at h
        exact (List.mem_cons.mp h).imp_right (List.mem_cons_of_mem _)
      · rw [if_neg below, if_neg here] at h
        rcases List.mem_cons.mp h with h | h
        · exact .inr (h ▸ List.mem_cons_self)
        · exact (ih h).imp_right (List.mem_cons_of_mem _)

/-- Listing an entry keeps the keys rising. -/
theorem Tab.pairwise_set {α : Type} (k : Nat) (v : α) :
    (t : Tab α) → t.Pairwise (fun p q => p.1 < q.1) → (Tab.set t k v).Pairwise (fun p q => p.1 < q.1)
  | [], _ => List.pairwise_singleton _ _
  | (j, w) :: t, h => by
    have ih := Tab.pairwise_set k v t
    obtain ⟨first, rest⟩ := List.pairwise_cons.mp h
    rw [Tab.set]
    by_cases below : k < j
    · rw [if_pos below]
      exact List.pairwise_cons.mpr ⟨fun q hq => (List.mem_cons.mp hq).elim (fun e => e ▸ below) (fun hq => below.trans (first q hq)), h⟩
    · by_cases here : k = j
      · subst here
        rw [if_neg below, if_pos rfl]
        exact List.pairwise_cons.mpr ⟨first, rest⟩
      · rw [if_neg below, if_neg here]
        refine List.pairwise_cons.mpr ⟨fun q hq => ?_, ih rest⟩
        exact (Tab.mem_set k v q t hq).elim (fun e => e ▸ Nat.lt_of_le_of_ne (Nat.not_lt.mp below) (Ne.symm here)) (first q)

/-- A write keeps the canonical form. -/
theorem Tab.wf_put {α : Type} [DecidableEq α] (d : α) (t : Tab α) (k : Nat) (v : α) (h : Tab.wf d t = true) :
    Tab.wf d (Tab.put d t k v) = true := by
  rw [Tab.wf, Bool.and_eq_true, Tab.rising_pairwise, List.all_eq_true] at h ⊢
  by_cases hv : v = d
  · rw [Tab.put, if_pos hv]
    exact ⟨h.1.filter _, fun p hp => h.2 p (List.mem_of_mem_filter hp)⟩
  · rw [Tab.put, if_neg hv]
    refine ⟨Tab.pairwise_set k v t h.1, fun p hp => ?_⟩
    exact (Tab.mem_set k v p t hp).elim (fun e => by simpa [e] using hv) (h.2 p)

/-! ## Vectors -/

@[simp] theorem vget_vset_same {α : Type} {n : Nat} (v : Vector α n) (d : α) (i : Nat) (x : α) (h : i < n) :
    vget (vset v i x) d i = x := by
  simp [vget, vset, h]

theorem vget_vset_other {α : Type} {n : Nat} (v : Vector α n) (d : α) (i j : Nat) (x : α) (h : j ≠ i) :
    vget (vset v i x) d j = vget v d j := by
  simp [vget, vset, Vector.getElem?_setIfInBounds_ne (Ne.symm h)]

@[simp] theorem vget_vmod_same {α : Type} {n : Nat} (v : Vector α n) (d : α) (i : Nat) (f : α → α) (h : i < n) :
    vget (vmod v i f) d i = f (vget v d i) := by
  simp [vget, vmod, h]

theorem vget_vmod_other {α : Type} {n : Nat} (v : Vector α n) (d : α) (i j : Nat) (f : α → α) (h : j ≠ i) :
    vget (vmod v i f) d j = vget v d j := by
  unfold vmod vget
  split
  · rfl
  · rw [Vector.getElem?_setIfInBounds_ne (Ne.symm h)]

/-! ## Memory operations (R192) -/

/-- Performing a write keeps the memory's canonical form. -/
theorem putWord_wf (t : Tab CWord) (r : MemReq) (h : Tab.wf CWord.zero t = true) :
    Tab.wf CWord.zero (putWord t r) = true := Tab.wf_put _ _ _ _ h

/-- A word read after it was written whole is what was written. -/
@[simp] theorem getWord_putWord_same (t : Tab CWord) (r : MemReq) : getWord (putWord t r) r.word = ⟨r.data, r.pois⟩ :=
  Tab.get_put_same _ _ _ _

/-- Every other word stays. -/
theorem getWord_putWord_other (t : Tab CWord) (r : MemReq) (w : Nat) (h : w ≠ r.word) :
    getWord (putWord t r) w = getWord t w := Tab.get_put_other _ _ _ _ _ h

/-- Taking a read out of a queue keeps the memory's canonical form. -/
theorem takeRead_wf (word : Nat) (again : Bool) (q : List MemReq) (t : Tab CWord) (x : MemReq × Tab CWord × List MemReq)
    (h : Tab.wf CWord.zero t = true) (hx : takeRead word again q t = some x) : Tab.wf CWord.zero x.2.1 = true := by
  induction q generalizing t x with
  | nil => simp [takeRead] at hx
  | cons r rs ih =>
    simp only [takeRead] at hx
    split at hx
    · obtain ⟨y, hy, rfl⟩ := Option.map_eq_some_iff.mp hx
      exact ih t y h hy
    · split at hx
      · split at hx
        · exact ih _ x (putWord_wf t r h) hx
        · simp at hx
      · split at hx
        · simp only [Option.some.injEq] at hx
          subst hx
          exact h
        · simp at hx

/-- Taking a write keeps the memory's canonical form. -/
theorem takeWrite_wf (word : Nat) (q : List MemReq) (t : Tab CWord) (x : MemReq × Tab CWord)
    (h : Tab.wf CWord.zero t = true) (hx : takeWrite word q t = some x) : Tab.wf CWord.zero x.2 = true := by
  induction q generalizing t with
  | nil => simp [takeWrite] at hx
  | cons r rs ih =>
    simp only [takeWrite] at hx
    split at hx
    · exact ih t h hx
    · split at hx
      · split at hx
        · exact ih _ (putWord_wf t r h) hx
        · simp only [Option.some.injEq] at hx
          subst hx
          exact h
      · exact ih t h hx

/-- The memory that no command has written is in canonical form. -/
theorem Memory.wf_init : Memory.wf Mem.init = true := rfl

/-- A write performed in the HBM, or in the DDR5, keeps the canonical form of both. -/
theorem Memory.wf_putWord (m : Mem) (r : MemReq) (h : Memory.wf m = true) :
    Memory.wf { m with hbm := putWord m.hbm r } = true ∧ Memory.wf { m with ddr := putWord m.ddr r } = true := by
  simp only [Memory.wf, Bool.and_eq_true] at h ⊢
  exact ⟨⟨putWord_wf _ _ h.1, h.2⟩, h.1, putWord_wf _ _ h.2⟩

/-- The rows that stay open are no part of the memory's contents. -/
theorem Mem.touchRow_wf (ddr : Bool) (m : Mem) (word : Nat) : Memory.wf (m.touchRow ddr word) = Memory.wf m := by
  unfold Mem.touchRow
  cases ddr <;> rfl

/-- Issuing a write keeps the memory's canonical form (R192). -/
theorem Mem.issueWrite_wf (ddr : Bool) (m : Mem) (r : MemReq) (h : Memory.wf m = true) : Memory.wf (m.issueWrite ddr r) = true := by
  unfold Mem.issueWrite
  rw [Mem.touchRow_wf]
  cases ddr
  · exact (Memory.wf_putWord m r h).1
  · exact (Memory.wf_putWord m r h).2

/-- Issuing the writes of a channel keeps the memory's canonical form (R277). -/
theorem Mem.issueWrites_wf (ddr : Bool) (ch : Nat) : ∀ (n : Nat) (m : Mem), Memory.wf m = true →
    Memory.wf (Mem.issueWrites ddr ch n m) = true
  | 0, _, h => h
  | n + 1, m, h => by
    rw [Mem.issueWrites]
    cases m.nextWrite ddr ch (if ddr then m.dq else m.hq) [] with
    | none => exact h
    | some r => exact Mem.issueWrites_wf ddr ch n _ (Mem.issueWrite_wf ddr m r h)

/-- The writes that a power failure performs from the DDR5 queues keep the canonical form. -/
theorem Memory.wf_foldl_putWord (q : List MemReq) (t : Tab CWord) (h : Tab.wf CWord.zero t = true) :
    Tab.wf CWord.zero (q.foldl putWord t) = true := by
  induction q generalizing t with
  | nil => exact h
  | cons r q ih => exact ih _ (putWord_wf t r h)

end Sys2Proof.Machine
end

