-- ==== Sys2Proof/Laws/State.lean ====
section
/-! SUPPORT. One lemma for each field of the state and each update of it, so that no later proof unfolds a record
update. -/
namespace Sys2Proof.Machine

/-! ### A change of the Steward. -/

/-- A change of the Steward. -/
@[simp] theorem State.modStw_stw {g : Stw → Stw} (s : State) :
    (s.modStw g).stw = g s.stw := rfl
@[simp] theorem State.modStw_pending {g : Stw → Stw} : ∀ s : State, State.pending (s.modStw g) = s.pending := fun _ => rfl
@[simp] theorem State.modStw_cfg {g : Stw → Stw} : ∀ s : State, State.cfg (s.modStw g) = s.cfg := fun _ => rfl
@[simp] theorem State.modStw_fab {g : Stw → Stw} : ∀ s : State, State.fab (s.modStw g) = s.fab := fun _ => rfl
@[simp] theorem State.modStw_irq {g : Stw → Stw} : ∀ s : State, State.irq (s.modStw g) = s.irq := fun _ => rfl
@[simp] theorem State.modStw_pcr {g : Stw → Stw} : ∀ s : State, State.pcr (s.modStw g) = s.pcr := fun _ => rfl
@[simp] theorem State.modStw_pci {g : Stw → Stw} : ∀ s : State, State.pci (s.modStw g) = s.pci := fun _ => rfl
@[simp] theorem State.modStw_wgb {g : Stw → Stw} : ∀ s : State, State.wgb (s.modStw g) = s.wgb := fun _ => rfl

/-! ### A change of one mailbox. -/

/-- A change of one mailbox. -/
@[simp] theorem State.modMb_stw {m : Nat} {g : Mbox → Mbox} (s : State) :
    (s.modMb m g).stw = { s.stw with mbox := vmod s.stw.mbox m g } := rfl
@[simp] theorem State.modMb_pending {m : Nat} {g : Mbox → Mbox} : ∀ s : State, State.pending (s.modMb m g) = s.pending := fun _ => rfl
@[simp] theorem State.modMb_cfg {m : Nat} {g : Mbox → Mbox} : ∀ s : State, State.cfg (s.modMb m g) = s.cfg := fun _ => rfl
@[simp] theorem State.modMb_fab {m : Nat} {g : Mbox → Mbox} : ∀ s : State, State.fab (s.modMb m g) = s.fab := fun _ => rfl
@[simp] theorem State.modMb_irq {m : Nat} {g : Mbox → Mbox} : ∀ s : State, State.irq (s.modMb m g) = s.irq := fun _ => rfl
@[simp] theorem State.modMb_pcr {m : Nat} {g : Mbox → Mbox} : ∀ s : State, State.pcr (s.modMb m g) = s.pcr := fun _ => rfl
@[simp] theorem State.modMb_pci {m : Nat} {g : Mbox → Mbox} : ∀ s : State, State.pci (s.modMb m g) = s.pci := fun _ => rfl
@[simp] theorem State.modMb_wgb {m : Nat} {g : Mbox → Mbox} : ∀ s : State, State.wgb (s.modMb m g) = s.wgb := fun _ => rfl

/-! ### An event under way. -/

/-- An event under way. -/
@[simp] theorem State.raise_fab {n : Nat} (s : State) :
    (s.raise n).fab = s.fab.raise n := rfl
@[simp] theorem State.raise_pending {n : Nat} : ∀ s : State, State.pending (s.raise n) = s.pending := fun _ => rfl
@[simp] theorem State.raise_cfg {n : Nat} : ∀ s : State, State.cfg (s.raise n) = s.cfg := fun _ => rfl
@[simp] theorem State.raise_stw {n : Nat} : ∀ s : State, State.stw (s.raise n) = s.stw := fun _ => rfl
@[simp] theorem State.raise_irq {n : Nat} : ∀ s : State, State.irq (s.raise n) = s.irq := fun _ => rfl
@[simp] theorem State.raise_pcr {n : Nat} : ∀ s : State, State.pcr (s.raise n) = s.pcr := fun _ => rfl
@[simp] theorem State.raise_pci {n : Nat} : ∀ s : State, State.pci (s.raise n) = s.pci := fun _ => rfl
@[simp] theorem State.raise_wgb {n : Nat} : ∀ s : State, State.wgb (s.raise n) = s.wgb := fun _ => rfl

/-! ### A level that changes. -/

/-- A level that changes. -/
@[simp] theorem State.level_fab {n : Nat} {b : Bool} (s : State) :
    (s.level n b).fab = s.fab.level n b := rfl
@[simp] theorem State.level_pending {n : Nat} {b : Bool} : ∀ s : State, State.pending (s.level n b) = s.pending := fun _ => rfl
@[simp] theorem State.level_cfg {n : Nat} {b : Bool} : ∀ s : State, State.cfg (s.level n b) = s.cfg := fun _ => rfl
@[simp] theorem State.level_stw {n : Nat} {b : Bool} : ∀ s : State, State.stw (s.level n b) = s.stw := fun _ => rfl
@[simp] theorem State.level_irq {n : Nat} {b : Bool} : ∀ s : State, State.irq (s.level n b) = s.irq := fun _ => rfl
@[simp] theorem State.level_pcr {n : Nat} {b : Bool} : ∀ s : State, State.pcr (s.level n b) = s.pcr := fun _ => rfl
@[simp] theorem State.level_pci {n : Nat} {b : Bool} : ∀ s : State, State.pci (s.level n b) = s.pci := fun _ => rfl
@[simp] theorem State.level_wgb {n : Nat} {b : Bool} : ∀ s : State, State.wgb (s.level n b) = s.wgb := fun _ => rfl

/-! ### An error of the endpoint. -/

/-- An error of the endpoint. -/
@[simp] theorem State.aer_pci {bit : Nat} (s : State) :
    (s.aer bit).pci = { s.pci with aer := BitVec.ofNat 3 (putBit s.pci.aer.toNat bit true) } := rfl
@[simp] theorem State.aer_pending {bit : Nat} : ∀ s : State, State.pending (s.aer bit) = s.pending := fun _ => rfl
@[simp] theorem State.aer_cfg {bit : Nat} : ∀ s : State, State.cfg (s.aer bit) = s.cfg := fun _ => rfl
@[simp] theorem State.aer_fab {bit : Nat} : ∀ s : State, State.fab (s.aer bit) = s.fab := fun _ => rfl
@[simp] theorem State.aer_stw {bit : Nat} : ∀ s : State, State.stw (s.aer bit) = s.stw := fun _ => rfl
@[simp] theorem State.aer_irq {bit : Nat} : ∀ s : State, State.irq (s.aer bit) = s.irq := fun _ => rfl
@[simp] theorem State.aer_pcr {bit : Nat} : ∀ s : State, State.pcr (s.aer bit) = s.pcr := fun _ => rfl
@[simp] theorem State.aer_wgb {bit : Nat} : ∀ s : State, State.wgb (s.aer bit) = s.wgb := fun _ => rfl

/-! ### The bytes that a read answers. -/

/-- The bytes that a read answers. -/
@[simp] theorem State.reads_pci {l : List Nat} (s : State) :
    (s.reads l).pci = { s.pci with answer := l } := rfl
@[simp] theorem State.reads_pending {l : List Nat} : ∀ s : State, State.pending (s.reads l) = s.pending := fun _ => rfl
@[simp] theorem State.reads_cfg {l : List Nat} : ∀ s : State, State.cfg (s.reads l) = s.cfg := fun _ => rfl
@[simp] theorem State.reads_fab {l : List Nat} : ∀ s : State, State.fab (s.reads l) = s.fab := fun _ => rfl
@[simp] theorem State.reads_stw {l : List Nat} : ∀ s : State, State.stw (s.reads l) = s.stw := fun _ => rfl
@[simp] theorem State.reads_irq {l : List Nat} : ∀ s : State, State.irq (s.reads l) = s.irq := fun _ => rfl
@[simp] theorem State.reads_pcr {l : List Nat} : ∀ s : State, State.pcr (s.reads l) = s.pcr := fun _ => rfl
@[simp] theorem State.reads_wgb {l : List Nat} : ∀ s : State, State.wgb (s.reads l) = s.wgb := fun _ => rfl

/-! ### What the device sends. -/

/-- What the device sends. -/
@[simp] theorem State.drive_pci {o : Out} (s : State) :
    (s.drive o).pci = { s.pci with out := s.pci.out ++ [o] } := rfl
@[simp] theorem State.drive_pending {o : Out} : ∀ s : State, State.pending (s.drive o) = s.pending := fun _ => rfl
@[simp] theorem State.drive_cfg {o : Out} : ∀ s : State, State.cfg (s.drive o) = s.cfg := fun _ => rfl
@[simp] theorem State.drive_fab {o : Out} : ∀ s : State, State.fab (s.drive o) = s.fab := fun _ => rfl
@[simp] theorem State.drive_stw {o : Out} : ∀ s : State, State.stw (s.drive o) = s.stw := fun _ => rfl
@[simp] theorem State.drive_irq {o : Out} : ∀ s : State, State.irq (s.drive o) = s.irq := fun _ => rfl
@[simp] theorem State.drive_pcr {o : Out} : ∀ s : State, State.pcr (s.drive o) = s.pcr := fun _ => rfl
@[simp] theorem State.drive_wgb {o : Out} : ∀ s : State, State.wgb (s.drive o) = s.wgb := fun _ => rfl

/-! ### The oldest event leaves. -/

/-- The oldest event leaves. -/
@[simp] theorem State.dropEvent_fab (s : State) :
    (s.dropEvent).fab = { s.fab with raised := s.fab.raised.drop 1 } := rfl
@[simp] theorem State.dropEvent_pending : ∀ s : State, State.pending (s.dropEvent) = s.pending := fun _ => rfl
@[simp] theorem State.dropEvent_cfg : ∀ s : State, State.cfg (s.dropEvent) = s.cfg := fun _ => rfl
@[simp] theorem State.dropEvent_stw : ∀ s : State, State.stw (s.dropEvent) = s.stw := fun _ => rfl
@[simp] theorem State.dropEvent_irq : ∀ s : State, State.irq (s.dropEvent) = s.irq := fun _ => rfl
@[simp] theorem State.dropEvent_pcr : ∀ s : State, State.pcr (s.dropEvent) = s.pcr := fun _ => rfl
@[simp] theorem State.dropEvent_pci : ∀ s : State, State.pci (s.dropEvent) = s.pci := fun _ => rfl
@[simp] theorem State.dropEvent_wgb : ∀ s : State, State.wgb (s.dropEvent) = s.wgb := fun _ => rfl

/-! ### The SMBus alert -/

/-- The alert line changes itself and what the endpoint sends. -/
theorem State.alert_eq (b : Bool) : ∀ s : State, ∃ p, s.alert b = { s with stw := { s.stw with smbAlert := b }, pci := p }
  | ⟨_, _, _, stw, _, _, pci, _⟩ => by
    by_cases h : stw.smbAlert = b
    · exact ⟨pci, by subst h; exact if_pos rfl⟩
    · exact ⟨_, if_neg h⟩

section
variable {s : State} {b : Bool}
@[simp] theorem State.alert_pending : (s.alert b).pending = s.pending := (s.alert_eq b).elim fun _ h => h ▸ rfl
@[simp] theorem State.alert_cfg : (s.alert b).cfg = s.cfg := (s.alert_eq b).elim fun _ h => h ▸ rfl
@[simp] theorem State.alert_fab : (s.alert b).fab = s.fab := (s.alert_eq b).elim fun _ h => h ▸ rfl
@[simp] theorem State.alert_irq : (s.alert b).irq = s.irq := (s.alert_eq b).elim fun _ h => h ▸ rfl
@[simp] theorem State.alert_pcr : (s.alert b).pcr = s.pcr := (s.alert_eq b).elim fun _ h => h ▸ rfl
@[simp] theorem State.alert_wgb : (s.alert b).wgb = s.wgb := (s.alert_eq b).elim fun _ h => h ▸ rfl
@[simp] theorem State.alert_stw : (s.alert b).stw = { s.stw with smbAlert := b } := (s.alert_eq b).elim fun _ h => h ▸ rfl
end

/-! ### Mailboxes -/

/-- Mailbox `m` after a change of mailbox `m`. -/
@[simp] theorem State.modMb_mb_same (s : State) (m : Nat) (g : Mbox → Mbox) (h : m < 17) :
    (s.modMb m g).stw.mb m = g (s.stw.mb m) := by
  simp [Stw.mb, h]

/-- Another mailbox after a change of mailbox `m`. -/
theorem State.modMb_mb_other (s : State) (m j : Nat) (g : Mbox → Mbox) (h : j ≠ m) :
    (s.modMb m g).stw.mb j = s.stw.mb j := by
  simp [Stw.mb, vget_vmod_other _ _ _ _ _ h]

/-- The memory after reset is in canonical form. -/
theorem State.reset_memory_wf : Memory.wf State.reset.fab.mem = true := rfl

end Sys2Proof.Machine
end

