-- ==== Sys2Proof/Laws/Completion.lean ====
section
/-! SUPPORT. What the completion of a command can do, said once: the mailbox takes the answer, its signal is
raised, and beyond the commit record of a state-changing command nothing else moves. -/
namespace Sys2Proof.Machine

theorem State.serves_iff (s : State) (m op : Nat) :
    s.serves m op = true ↔ s.ready m op = true ∧ s.notServed op = 0 ∧
      (cmdKind op = some .q ∨ s.stw.jrnl.full = false ∨ op / 256 = 0x0A) ∧
      (s.stw.mb m).faults = 0 ∧ (s.stw.mb m).rerun = false ∧ (s.stw.mb m).discard = false := by
  simp [State.serves, and_assoc, or_assoc]

theorem State.ready_spec {s : State} {m op : Nat} (h : s.ready m op = true) :
    m < 17 ∧ (s.stw.mb m).st = .busy ∧ (s.stw.mb m).phase = .taken ∧ (s.stw.mb m).opcode = op := by
  simp only [State.ready, Bool.and_eq_true, decide_eq_true_eq] at h
  exact ⟨h.1.1.1.1.1, h.1.1.1.1.2, h.1.1.1.2, h.1.1.2⟩

/-- An answer that is not discarded changes the mailbox and its signal only (R422, R431). -/
theorem State.answer_only (s : State) (m st : Nat) (resp : List Nat) (hm : m < 17)
    (hd : (s.stw.mb m).discard = false) : s.OnlyAnswered (s.answer m st resp) m st resp := by
  unfold State.answer State.OnlyAnswered State.Answered State.Signalled
  by_cases h16 : m = 16
  · subst h16
    simp only [hd]
    refine ⟨⟨?_, ?_⟩, ?_⟩
    · simp [Stw.mb]
    · intro k hk
      simp [Stw.mb, vget_vmod_other _ _ _ _ _ hk]
    · simp
  · simp only [hd, h16]
    refine ⟨⟨?_, ?_⟩, ?_⟩
    · simp [Stw.mb, hm]
    · intro k hk
      simp [Stw.mb, vget_vmod_other _ _ _ _ _ hk]
    · simp

/-- A query's completion is its answer (R428, R439). -/
theorem State.complete_query (s : State) (m op : Nat) (resp : List Nat) (hm : m < 17)
    (ho : (s.stw.mb m).opcode = op) (hk : cmdKind op = some .q) (hf : (s.stw.mb m).faults = 0)
    (hr : (s.stw.mb m).rerun = false) (hd : (s.stw.mb m).discard = false) :
    s.OnlyAnswered (s.complete m 0 resp) m 0 resp := by
  have h1 : op ≠ 0x0201 := by
    rintro rfl
    simp [cmdKind, fixedCmds, fixedCmds1] at hk
  unfold State.complete
  simp only [ho, hk, hf, hr, h1, if_false, ne_eq, not_true_eq_false, Bool.false_eq_true, Nat.zero_ne_one]
  exact s.answer_only m 0 resp hm hd

/-- A state-changing command's completion adds its commit record, and a completed EPOCH_APPLY the LAST
fields; the rest is its answer (R428, R446). -/
theorem State.complete_change (s : State) (m op st : Nat) (resp : List Nat) (hm : m < 17)
    (ho : (s.stw.mb m).opcode = op) (hq : cmdKind op = some .s ∨ cmdKind op = some .u) (h1 : op ≠ 0x0201)
    (hf : (s.stw.mb m).faults = 0) (hr : (s.stw.mb m).rerun = false) (hd : (s.stw.mb m).discard = false) :
    s.Committed (s.complete m st resp) m st resp := by
  have hst : (if st ≠ 0 then st else 0) = st := by split <;> simp_all
  unfold State.complete
  rcases hq with hq | hq <;>
  · simp only [ho, hq, hf, hr, h1, if_false, Bool.false_eq_true, Nat.zero_ne_one, hst]
    have := State.answer_only (s.modStw (fun w => { w.log 0x20 m (commitBody (s.stw.mb m) m st resp) with
        commits := w.commits.filter (fun (c : Nat × Nat × Nat) => c.1 ≠ m) ++ [(m, s.stw.jrnl.nextSeq, s.pcr.aon)] })) m st resp hm hd
    obtain ⟨⟨a, b⟩, c, d, e, f, g, h, i, j, k, l⟩ := this
    exact ⟨⟨a, b⟩, c, d, e, f, g, h, j, k, l, i⟩

/-- A served command runs its body on the state and its mailbox, and completes with what the body answers. -/
theorem State.run_served (s : State) (m op : Nat) (reserved : List (Nat × Nat)) (body : State → Mbox → State × Nat × List Nat)
    (h : s.serves m op = true) (hc : (s.stw.mb m).clean reserved = true) :
    s.run m op reserved body =
      (body s (s.stw.mb m)).1.complete m (body s (s.stw.mb m)).2.1 (body s (s.stw.mb m)).2.2 := by
  obtain ⟨hr, hn, hj, hf, -, -⟩ := (s.serves_iff m op).mp h
  unfold State.run State.command
  rcases hj with hj | hj | hj <;> simp [hr, hn, hj, hf, hc]

/-- A served query answers status 0 and what its body gives, and changes nothing else (R439). -/
theorem State.query_served (s : State) (m op : Nat) (reserved : List (Nat × Nat)) (body : State → Mbox → Nat × List Nat)
    (h : s.serves m op = true) (hk : cmdKind op = some .q) (hc : (s.stw.mb m).clean reserved = true)
    (hb : (body s (s.stw.mb m)).1 = 0) :
    s.OnlyAnswered (s.query m op reserved body) m 0 (body s (s.stw.mb m)).2 := by
  obtain ⟨hr, -, -, hf, hrr, hd⟩ := (s.serves_iff m op).mp h
  obtain ⟨hm, -, -, ho⟩ := State.ready_spec hr
  unfold State.query
  rw [State.run_served s m op reserved _ h hc]
  simp only [hb]
  exact s.complete_query m op _ hm ho hk hf hrr hd

/-- A served long command runs its body; where the body answers nothing it goes on. -/
theorem State.runLong_served (s : State) (m op : Nat) (reserved : List (Nat × Nat))
    (body : State → Mbox → State × Option (Nat × List Nat)) (h : s.serves m op = true)
    (hq : s.stw.jrnl.full = false ∨ op / 256 = 0x0A) (hc : (s.stw.mb m).clean reserved = true) :
    s.runLong m op reserved body = match (body s (s.stw.mb m)).2 with
      | none => (body s (s.stw.mb m)).1
      | some x => (body s (s.stw.mb m)).1.complete m x.1 x.2 := by
  obtain ⟨hr, hn, -, hf, -, -⟩ := (s.serves_iff m op).mp h
  unfold State.runLong
  rcases hq with hq | hq <;> simp [hr, hn, hq, hf, hc] <;> rfl

/-! ## Trackers -/

/-- Where no tracker can take a step, settling changes nothing. -/
theorem Fabric.settle_done (cfg : Cfg) (f : Fabric) (h : firstStep cfg f f.txns = none) : f.settle cfg = f := by
  unfold Fabric.settle
  rw [settleN, h]

/-- Where no tracker is taken, settling changes nothing. -/
theorem Fabric.settle_idle (cfg : Cfg) (f : Fabric) (h : f.txns = []) : f.settle cfg = f :=
  f.settle_done cfg (by rw [h]; rfl)

end Sys2Proof.Machine
end

