-- ==== Sys2Proof/Laws/Mailbox.lean ====
section
/-! SUPPORT. What the buffers and doorbells of the mailboxes hold after a write, and the lengths of little-endian
fields. -/
namespace Sys2Proof.Machine

/-- A little-endian field has the length asked for. -/
@[simp] theorem leBytes_length (x n : Nat) : (leBytes x n).length = n := by
  induction n generalizing x with
  | zero => rfl
  | succ n ih => simp [leBytes, ih]

/-- A table of entries of one length. -/
theorem flatMap_const_length {α β : Type} (l : List α) (f : α → List β) (k : Nat) (h : ∀ x ∈ l, (f x).length = k) :
    (l.flatMap f).length = l.length * k := by
  induction l with
  | nil => simp
  | cons a l ih =>
    simp only [List.flatMap_cons, List.length_append, List.length_cons]
    rw [h a (by simp), ih (fun x hx => h x (by simp [hx]))]
    ring

/-- A doorbell put into the order of the doorbells stands in it. -/
theorem mem_insBell (x : Nat × Nat) (l : List (Nat × Nat)) : x ∈ insBell x l := by
  induction l with
  | nil => simp [insBell]
  | cons y ys ih => simp only [insBell]; split <;> simp [ih]

/-- What a buffer holds after a write with byte enables (R418, R422). -/
theorem Mbox.put_byte (b : Mbox) (off : Nat) (bytes : List (Option Nat)) (i : Nat) :
    (b.put off bytes).byte i = match bytes[i - off]? with
      | some (some x) => if off ≤ i then x % 256 else b.byte i
      | _ => b.byte i := by
  unfold Mbox.put Mbox.byte
  dsimp only
  rw [show off = off + 0 from rfl]
  generalize hb : b.buf = buf
  have key : ∀ (l : List (Option Nat)) (k : Nat) (t : Tab Nat),
      Tab.get ((l.zipIdx k).foldl (fun t (p : Option Nat × Nat) => match p.1 with
        | some x => Tab.put 0 t (off + p.2) (x % 256) | none => t) t) 0 i =
      match l[i - (off + k)]? with
      | some (some x) => if off + k ≤ i then x % 256 else Tab.get t 0 i
      | _ => Tab.get t 0 i := by
    intro l
    induction l with
    | nil => intro k t; simp
    | cons x l ih =>
      intro k t
      simp only [List.zipIdx_cons, List.foldl_cons]
      rw [ih]
      by_cases h : off + (k + 1) ≤ i
      · have e : i - (off + k) = (i - (off + (k + 1))) + 1 := by omega
        rw [e, List.getElem?_cons_succ]
        have hp : ∀ v, Tab.get (Tab.put 0 t (off + k) v) 0 i = Tab.get t 0 i :=
          fun v => Tab.get_put_other _ _ _ _ _ (by omega)
        have h3 : off + k ≤ i := by omega
        cases x with
        | none => simp only [h, h3, if_true]
        | some x => simp only [h, h3, if_true, hp]
      · have h2 : i - (off + (k + 1)) = 0 := by omega
        have h3 : i - (off + k) = 0 := by omega
        rw [h2, h3]
        simp only [List.getElem?_cons_zero, h, if_false]
        have e : ∀ z : Nat, (match l[0]? with | some (some x) => z | _ => z) = z := by intro z; split <;> rfl
        cases x with
        | none => dsimp only; split <;> rfl
        | some x =>
          dsimp only
          by_cases h4 : off + k ≤ i
          · have : i = off + k := by omega
            subst this
            rw [if_pos (Nat.le_refl _)]
            split <;> simp
          · rw [if_neg h4]
            have hp : Tab.get (Tab.put 0 t (off + k) (x % 256)) 0 i = Tab.get t 0 i :=
              Tab.get_put_other _ _ _ _ _ (by omega)
            split <;> simp [hp]
  have hk := key bytes 0 buf
  simp only [Nat.add_zero] at hk ⊢
  exact hk

/-- What a buffer holds after a write with every byte enabled. -/
theorem Mbox.put_bytes_all (b : Mbox) (off : Nat) (bytes : List Nat) (i : Nat) :
    (b.put off (bytes.map some)).byte i = if off ≤ i ∧ i < off + bytes.length then bytes.getD (i - off) 0 % 256 else b.byte i := by
  rw [Mbox.put_byte, List.getElem?_map]
  by_cases h1 : off ≤ i
  · by_cases h2 : i < off + bytes.length
    · have h3 : i - off < bytes.length := by omega
      simp [h1, h2, List.getElem?_eq_getElem h3]
    · have h3 : bytes[i - off]? = none := List.getElem?_eq_none (by omega)
      simp [h1, h2, h3]
  · cases bytes[i - off]? <;> simp [h1]

/-- A served query whose body answers status 0 answers and changes nothing else (R439). -/
theorem State.query_answers (s : State) (m op : Nat) (reserved : List (Nat × Nat)) (body : State → Mbox → Nat × List Nat) (l : List Nat)
    (h : s.serves m op = true) (hk : cmdKind op = some .q) (hc : (s.stw.mb m).clean reserved = true)
    (hb : (body s (s.stw.mb m)) = (0, l)) : s.OnlyAnswered (s.query m op reserved body) m 0 l := by
  have := s.query_served m op reserved body h hk hc (by rw [hb])
  rwa [hb] at this

end Sys2Proof.Machine
end

