-- ==== Sys2Proof/Laws/Control.lean ====
section
/-! SUPPORT. What the shared operations of the control side can do, said once for each: a served command, an
event message to every agent, the first step of a drain. -/
namespace Sys2Proof.Machine

/-- A served state-changing command whose body leaves the mailbox alone commits what its body gives. -/
theorem State.run_committed (s : State) (m op : Nat) (reserved : List (Nat × Nat)) (body : State → Mbox → State × Nat × List Nat)
    (u : State) (st : Nat) (resp : List Nat)
    (h : s.serves m op = true) (hq : cmdKind op = some .s ∨ cmdKind op = some .u) (h1 : op ≠ 0x0201)
    (hc : (s.stw.mb m).clean reserved = true) (hb : body s (s.stw.mb m) = (u, st, resp))
    (hu : u.stw.mb m = s.stw.mb m) : u.Committed (s.run m op reserved body) m st resp := by
  obtain ⟨hr, -, -, hf, hrr, hd⟩ := (s.serves_iff m op).mp h
  obtain ⟨hm, -, -, ho⟩ := State.ready_spec hr
  rw [State.run_served s m op reserved _ h hc, hb]
  exact u.complete_change m op st resp hm (by rw [hu]; exact ho) hq h1 (by rw [hu]; exact hf) (by rw [hu]; exact hrr) (by rw [hu]; exact hd)

/-- A served long command whose body answers nothing goes on with the body's state. -/
theorem State.runLong_goes_on (s : State) (m op : Nat) (reserved : List (Nat × Nat)) (body : State → Mbox → State × Option (Nat × List Nat))
    (h : s.serves m op = true) (hk : cmdKind op ≠ some .q) (hc : (s.stw.mb m).clean reserved = true) (u : State)
    (hb : body s (s.stw.mb m) = (u, none)) : s.runLong m op reserved body = u := by
  rw [State.runLong_served s m op reserved body h _ hc, hb]
  obtain ⟨-, -, hj, -⟩ := (s.serves_iff m op).mp h
  rcases hj with hj | hj | hj
  · exact absurd hj hk
  · exact .inl hj
  · exact .inr hj

/-- A change of one link changes the links only. -/
theorem Fabric.modLink_frame (f : Fabric) (a : Nat) (g : Link → Link) : ∃ ls tl, f.modLink a g = { f with links := ls, tlink := tl } := by
  unfold Fabric.modLink Fabric.setLink
  split
  · exact ⟨f.links, _, rfl⟩
  · exact ⟨_, f.tlink, rfl⟩

/-- An event message to every Active agent changes the links only (R329). -/
theorem Fabric.evtIrqAll_frame (f : Fabric) (a b : Nat) : ∃ ls tl, f.evtIrqAll a b = { f with links := ls, tlink := tl } := by
  unfold Fabric.evtIrqAll
  generalize f.activeAgents = l
  induction l generalizing f with
  | nil => exact ⟨f.links, f.tlink, rfl⟩
  | cons x l ih =>
    obtain ⟨ls, tl, h⟩ := Fabric.modLink_frame f x (fun l => l.send portKind (mkEvtIrq a b))
    simp only [List.foldl_cons]
    rw [Fabric.send, h]
    obtain ⟨ls', tl', h'⟩ := ih { f with links := ls, tlink := tl }
    exact ⟨ls', tl', by rw [h']⟩

/-- A record that needs no acknowledgement changes the partner side only (R357). -/
theorem Fabric.logFree_frame (f : Fabric) (r : TRec) : ∃ tw tl, f.logFree r = { f with twin := tw, tlink := tl } := by
  unfold Fabric.logFree
  by_cases hm : f.mirrors
  · by_cases hl : f.logFull
    · exact ⟨{ f.twin with late := f.twin.late ++ [r] }, f.tlink, by simp [hm, hl]⟩
    · exact ⟨_, _, (if_neg (by simp [hm])).trans (if_neg hl)⟩
  · exact ⟨f.twin, f.tlink, by simp [hm]⟩

/-- A control message changes the partner side only. -/
theorem Fabric.sendCtl_frame (f : Fabric) (kind payload : Nat) : ∃ tw tl, f.sendCtl kind payload = { f with twin := tw, tlink := tl } :=
  ⟨_, _, rfl⟩

section
variable {f : Fabric} {r : TRec} {a b : Nat}
@[simp] theorem Fabric.logFree_draining : (f.logFree r).draining = f.draining := (f.logFree_frame r).elim fun _ ⟨_, h⟩ => h ▸ rfl
@[simp] theorem Fabric.logFree_hrw : (f.logFree r).hrw = f.hrw := (f.logFree_frame r).elim fun _ ⟨_, h⟩ => h ▸ rfl
@[simp] theorem Fabric.logFree_gln : (f.logFree r).gln = f.gln := (f.logFree_frame r).elim fun _ ⟨_, h⟩ => h ▸ rfl
@[simp] theorem Fabric.logFree_pfu : (f.logFree r).pfu = f.pfu := (f.logFree_frame r).elim fun _ ⟨_, h⟩ => h ▸ rfl
@[simp] theorem Fabric.logFree_raised : (f.logFree r).raised = f.raised := (f.logFree_frame r).elim fun _ ⟨_, h⟩ => h ▸ rfl
@[simp] theorem Fabric.logFree_mem : (f.logFree r).mem = f.mem := (f.logFree_frame r).elim fun _ ⟨_, h⟩ => h ▸ rfl
@[simp] theorem Fabric.evtIrqAll_draining : (f.evtIrqAll a b).draining = f.draining := (f.evtIrqAll_frame a b).elim fun _ ⟨_, h⟩ => h ▸ rfl
@[simp] theorem Fabric.evtIrqAll_hrw : (f.evtIrqAll a b).hrw = f.hrw := (f.evtIrqAll_frame a b).elim fun _ ⟨_, h⟩ => h ▸ rfl
@[simp] theorem Fabric.evtIrqAll_gln : (f.evtIrqAll a b).gln = f.gln := (f.evtIrqAll_frame a b).elim fun _ ⟨_, h⟩ => h ▸ rfl
@[simp] theorem Fabric.evtIrqAll_pfu : (f.evtIrqAll a b).pfu = f.pfu := (f.evtIrqAll_frame a b).elim fun _ ⟨_, h⟩ => h ▸ rfl
@[simp] theorem Fabric.evtIrqAll_raised : (f.evtIrqAll a b).raised = f.raised := (f.evtIrqAll_frame a b).elim fun _ ⟨_, h⟩ => h ▸ rfl
@[simp] theorem Fabric.evtIrqAll_mem : (f.evtIrqAll a b).mem = f.mem := (f.evtIrqAll_frame a b).elim fun _ ⟨_, h⟩ => h ▸ rfl
end

/-- Step 1 of a drain (R328, R329). -/
theorem State.step1_begun (s : State) : let t := s.step1
    t.stw.step = 1 ∧ t.stw.sub = 0 ∧ t.fab.draining = true ∧ t.stw.by_ = s.stw.by_ ∧ t.stw.opts = s.stw.opts ∧ t.stw.before = s.cfg ∧ t.cfg = s.cfg ∧
    t.stw.staged = s.stw.staged ∧ t.fab.hrw.paused = true ∧ t.fab.gln.stopped = true ∧ t.fab.pfu.stopped = true ∧ (225, 0) ∈ t.fab.raised ∧
    (∀ m, t.stw.mb m = s.stw.mb m) ∧ t.stw.jrnl = s.stw.jrnl ∧ t.irq = s.irq ∧ t.fab.mem = s.fab.mem := by
  unfold State.step1 State.tellPartner
  dsimp only
  refine ⟨rfl, rfl, ?_, rfl, rfl, rfl, rfl, rfl, ?_, ?_, ?_, ?_, fun _ => rfl, rfl, rfl, ?_⟩ <;>
    (repeat' split) <;>
    simp [Fabric.harrowPause, Fabric.raise, Fabric.sendCtl, Fabric.toTwin]

/-- A command of the fabric acts on it, and the control side follows. -/
theorem State.onFab_eq (s : State) (g : Fabric → Fabric) : s.onFab g = s.after (g s.fab) := rfl

/-! ### What follows a command of the fabric -/

theorem State.SameRest.refl (s : State) : s.SameRest s := ⟨rfl, rfl, rfl, rfl, rfl⟩

theorem State.SameRest.trans {s t u : State} (h : s.SameRest t) (k : t.SameRest u) : s.SameRest u :=
  ⟨k.1.trans h.1, k.2.1.trans h.2.1, k.2.2.1.trans h.2.2.1, k.2.2.2.1.trans h.2.2.2.1, k.2.2.2.2.trans h.2.2.2.2⟩

theorem State.answer_rest (s : State) (m st : Nat) (resp : List Nat) : s.SameRest (s.answer m st resp) := by
  unfold State.answer
  dsimp only
  split
  · exact .refl s
  · split
    · exact ⟨by simp, by simp, by simp, by simp, by simp⟩
    · exact .refl s

theorem State.complete_rest (s : State) (m st : Nat) (resp : List Nat) : s.SameRest (s.complete m st resp) := by
  unfold State.complete
  dsimp only
  split <;> exact State.SameRest.trans ⟨rfl, rfl, rfl, rfl, rfl⟩ (State.answer_rest _ _ _ _)

theorem State.longOne_rest (s : State) (m : Nat) (l : Long) : s.SameRest (s.longOne m l) := by
  have pick : ∀ (c : Bool) (t : State), s.SameRest t → s.SameRest (if c = true then s else t) := by
    intro c t h
    cases c
    · exact h
    · exact .refl s
  unfold State.longOne
  repeat' split
  all_goals first
    | exact pick _ _ (State.complete_rest ..)
    | exact .refl s
    | exact State.complete_rest ..

/-- Long commands that complete change mailboxes, journal and sources only. -/
theorem State.longAll_rest (s : State) : s.SameRest s.longAll := by
  unfold State.longAll
  have : ∀ (l : List (Nat × Long)) (t : State), s.SameRest t → s.SameRest (l.foldl (fun s p => s.longOne p.1 p.2) t) := by
    intro l
    induction l with
    | nil => intro t h; exact h
    | cons x l ih => intro t h; exact ih _ (h.trans (State.longOne_rest ..))
  exact this _ s (.refl s)

theorem State.step1_rest (s : State) : s.SameRest s.step1 := by
  unfold State.step1
  exact ⟨rfl, rfl, rfl, rfl, rfl⟩

theorem State.runDrain_rest (s : State) (by_ : DrainBy) (opts : Nat) : s.SameRest (s.runDrain by_ opts) := by
  unfold State.runDrain
  dsimp only
  split
  · exact ⟨rfl, rfl, rfl, rfl, rfl⟩
  · exact State.SameRest.trans ⟨rfl, rfl, rfl, rfl, rfl⟩ (State.step1_rest _)

theorem State.beginDrain_rest (s : State) (by_ : DrainBy) (opts : Nat) : s.SameRest (s.beginDrain by_ opts) := by
  unfold State.beginDrain
  dsimp only
  split
  · split
    · exact State.answer_rest ..
    · exact State.complete_rest ..
    · exact .refl s
  · split
    · split
      · exact State.complete_rest ..
      · split
        · exact State.complete_rest ..
        · split
          · exact State.complete_rest ..
          · exact State.runDrain_rest ..
    · exact State.runDrain_rest ..
    all_goals
      split
      · exact .refl s
      · exact State.SameRest.trans ⟨rfl, rfl, rfl, rfl, rfl⟩ (State.runDrain_rest _ _ _)

/-- A drain that is asked for changes the fabric, the Steward and the endpoint only (R325). -/
theorem State.askDrain_rest (s : State) (by_ : DrainBy) (opts : Nat) : s.SameRest (s.askDrain by_ opts) := by
  unfold State.askDrain
  split
  · exact ⟨rfl, rfl, rfl, rfl, rfl⟩
  · exact State.beginDrain_rest ..

theorem State.ownDrains_rest (s : State) : s.SameRest s.ownDrains := by
  unfold State.ownDrains
  split
  · exact .refl s
  · dsimp only
    split <;> split
    · exact (State.askDrain_rest s _ _).trans (State.SameRest.trans ⟨rfl, rfl, rfl, rfl, rfl⟩ (State.askDrain_rest _ _ _))
    · exact State.askDrain_rest ..
    · exact State.SameRest.trans ⟨rfl, rfl, rfl, rfl, rfl⟩ (State.askDrain_rest _ _ _)
    · exact .refl s

theorem State.journalFabric_rest (s : State) : s.SameRest s.journalFabric := ⟨rfl, rfl, rfl, rfl, rfl⟩

/-- What follows a command of the fabric leaves the configuration, the power side and the commands that wait
alone, discards the COUNTs of departed agents, and marks a failover in the Weighbridge. -/
theorem State.finish_rest (s : State) (tl : LinkState) (pr : PairState) :
    let f := if s.fab.tlink.st = .fenced && tl ≠ .fenced then s.fab.partnerLost s.cfg else s.fab
    let w := if f.twin.pair = .failover && pr ≠ .failover then s.wgb.markFailover else s.wgb
    (s.finish tl pr).pending = s.pending ∧ (s.finish tl pr).cfg = s.cfg ∧ (s.finish tl pr).pcr = s.pcr ∧
      (s.finish tl pr).irq = f.agentDrops.foldl (fun q a => q.dropAgent a) s.irq ∧
      (s.finish tl pr).wgb = { w with raised := [] } := by
  intro f w
  unfold State.finish
  obtain ⟨a1, a2, a3, a4, a5⟩ := (State.journalFabric_rest ({ s with
    fab := { f with raised := f.raised ++ w.raised, agentDrops := [] },
    irq := f.agentDrops.foldl (fun q a => q.dropAgent a) s.irq, wgb := { w with raised := [] } } : State)).trans
      ((State.longAll_rest _).trans (State.ownDrains_rest _))
  exact ⟨a1, a2, a3, a5, a4⟩

/-- A command of the Weighbridge changes it, the Steward, the endpoint and what is raised (R378). -/
theorem State.onWgb_rest (s : State) (g : Wgb → Wgb) :
    (s.onWgb g).wgb = { g s.wgb with raised := [] } ∧ (s.onWgb g).pending = s.pending ∧ (s.onWgb g).cfg = s.cfg ∧
      (s.onWgb g).pcr = s.pcr ∧ (s.onWgb g).irq = s.fab.agentDrops.foldl (fun q a => q.dropAgent a) s.irq := by
  obtain ⟨a1, a2, a3, a4, a5⟩ := State.finish_rest ({ s with wgb := g s.wgb } : State) s.fab.tlink.st s.fab.twin.pair
  have hf : (if s.fab.tlink.st = .fenced && s.fab.tlink.st ≠ .fenced then s.fab.partnerLost s.cfg else s.fab) = s.fab := by
    rw [if_neg]
    simp
  simp only [hf] at a4 a5
  have hw : (if s.fab.twin.pair = .failover && s.fab.twin.pair ≠ .failover then (g s.wgb).markFailover else g s.wgb) = g s.wgb := by
    rw [if_neg]
    simp
  rw [hw] at a5
  exact ⟨a5, a1, a2, a3, a4⟩

end Sys2Proof.Machine
end

