-- ==== Sys2Proof/Laws/Irq.lean ====
section
/-! SUPPORT. What the moves of the interrupt controller change, said once for each. -/
namespace Sys2Proof.Machine

/-- A power management event changes the PCI Express function only. -/
theorem State.pme_eq (s : State) : ∃ p, s.pme = { s with pci := p } := by
  unfold State.pme
  extract_lets due
  exact dite _ (fun h => ⟨_, if_pos h⟩) (fun h => ⟨s.pci, if_neg h⟩)

section
variable {s : State} {g : Irq → Irq}
@[simp] theorem State.pme_irq : s.pme.irq = s.irq := s.pme_eq.elim fun _ h => h ▸ rfl
@[simp] theorem State.pme_fab : s.pme.fab = s.fab := s.pme_eq.elim fun _ h => h ▸ rfl
@[simp] theorem State.pme_cfg : s.pme.cfg = s.cfg := s.pme_eq.elim fun _ h => h ▸ rfl
@[simp] theorem State.pme_stw : s.pme.stw = s.stw := s.pme_eq.elim fun _ h => h ▸ rfl
@[simp] theorem State.pme_pcr : s.pme.pcr = s.pcr := s.pme_eq.elim fun _ h => h ▸ rfl
@[simp] theorem State.pme_wgb : s.pme.wgb = s.wgb := s.pme_eq.elim fun _ h => h ▸ rfl
/-- A move of the interrupt controller changes it and the PCI Express function only. -/
@[simp] theorem State.onIrq_irq : (s.onIrq g).irq = g s.irq := State.pme_irq
@[simp] theorem State.onIrq_fab : (s.onIrq g).fab = s.fab := State.pme_fab
@[simp] theorem State.onIrq_cfg : (s.onIrq g).cfg = s.cfg := State.pme_cfg
@[simp] theorem State.onIrq_stw : (s.onIrq g).stw = s.stw := State.pme_stw
@[simp] theorem State.onIrq_pcr : (s.onIrq g).pcr = s.pcr := State.pme_pcr
@[simp] theorem State.onIrq_wgb : (s.onIrq g).wgb = s.wgb := State.pme_wgb
end

/-- Timers move no source. -/
@[simp] theorem Irq.retime_source (q : Irq) (t o n : Nat) : (q.retime t o).source n = q.source n := rfl
/-- Timers move no source. -/
@[simp] theorem Irq.retime_claims (q : Irq) (t o : Nat) : (q.retime t o).claims = q.claims := rfl
/-- Timers move no source. -/
@[simp] theorem Irq.retime_spurious (q : Irq) (t o : Nat) : (q.retime t o).spurious = q.spurious := rfl
/-- A change of a target is the change itself but for its timers. -/
@[simp] theorem Irq.change_source (q : Irq) (t : Option Nat) (g : Irq → Irq) (n : Nat) : (q.change t g).source n = (g q).source n := by
  unfold Irq.change; cases t <;> simp
/-- A change of a target is the change itself but for its timers. -/
@[simp] theorem Irq.change_claims (q : Irq) (t : Option Nat) (g : Irq → Irq) : (q.change t g).claims = (g q).claims := by
  unfold Irq.change; cases t <;> simp
/-- A change of one source. -/
theorem Irq.modSrc_same (q : Irq) (n : Nat) (g : Src → Src) (h : n < 256) : (q.modSrc n g).source n = g (q.source n) := by
  simp [Irq.modSrc, Irq.source, h]
/-- A change of one source. -/
theorem Irq.modSrc_other (q : Irq) (n k : Nat) (g : Src → Src) (h : k ≠ n) : (q.modSrc n g).source k = q.source k := by
  simp [Irq.modSrc, Irq.source, vget_vmod_other _ _ _ _ _ h]
/-- An arrival counted at one source (R477). -/
theorem Irq.count_same (q : Irq) (n k : Nat) (h : n < 256) :
    (q.count n k).source n = { q.source n with count := min 4095 ((q.source n).count + k) } := by
  unfold Irq.count; rw [change_source, Irq.modSrc_same _ _ _ h]
/-- An arrival counted at one source (R477). -/
theorem Irq.count_other (q : Irq) (n k j : Nat) (h : j ≠ n) : (q.count n k).source j = q.source j := by
  unfold Irq.count; rw [change_source, Irq.modSrc_other _ _ _ _ h]
/-- An arrival counted at one source (R477). -/
@[simp] theorem Irq.count_claims (q : Irq) (n k : Nat) : (q.count n k).claims = q.claims := by
  unfold Irq.count; simp [Irq.modSrc]
/-- An arrival counted at one source (R477). -/
@[simp] theorem Irq.count_spurious (q : Irq) (n k : Nat) : (q.count n k).spurious = q.spurious := by
  unfold Irq.count Irq.change; split <;> simp [Irq.modSrc]

end Sys2Proof.Machine
end

