-- ==== Sys2Proof/WellFormed.lean ====
section
/-! DEFINITION. Which commands are well formed: the operand ranges that the spec gives each row. -/
namespace Sys2Proof
open Machine

/-- Every enabled byte is a byte. -/
def octets (l : List (Option Nat)) : Bool :=
  l.all (fun x => match x with | some v => decide (v < 256) | none => true)

/-- The operands of a command lie in the ranges of its row: links and agents (R12), slices (R14),
trackers, tags, targets, sources and vectors (R475), mailboxes (R421), ports and taps (R378, R386), and a
message's OPCODE is that of its row (Table 3.1). -/
def Instr.wf : Instr → Bool
  | .codewordPairReceived a _ _ _ _ => a < 33
  | .replayTimeout a => a < 33
  | .laneDetect a offer => a < 33 && offer < 3
  | .pollingComplete a => a < 33
  | .pollingTimeout a => a < 33
  | .configureTimeout a => a < 33
  | .declareTimeout a => a < 33
  | .recoveryComplete a => a < 33
  | .recoveryTimeout a _ => a < 33
  | .linkBuffersEmpty a => a < 33
  | .agentDeclaration a _ tie => a < 32 && (match tie with | some (b, _) => b < 32 && decide (b ≠ a) | none => true)
  | .rdshared a hdr _ => a < 32 && hOp hdr = Op.rdShared.code
  | .rdown a hdr _ => a < 32 && hOp hdr = Op.rdOwn.code
  | .rdonce a hdr _ => a < 32 && hOp hdr = Op.rdOnce.code
  | .upgrade a hdr _ => a < 32 && hOp hdr = Op.upgrade.code
  | .wrinvfull a hdr _ _ => a < 32 && hOp hdr = Op.wrInvFull.code
  | .wrpartial a hdr _ _ _ => a < 32 && hOp hdr = Op.wrPartial.code
  | .rduncached a hdr _ => a < 32 && hOp hdr = Op.rdUncached.code
  | .wruncached a hdr _ _ => a < 32 && hOp hdr = Op.wrUncached.code
  | .ldresv a hdr _ => a < 32 && hOp hdr = Op.ldResv.code
  | .stcond a hdr _ _ => a < 32 && hOp hdr = Op.stCond.code
  | .atomic a hdr _ _ => a < 32 && hOp hdr = Op.atomic.code
  | .cbar a hdr _ => a < 32 && hOp hdr = Op.cBar.code
  | .resvclear a hdr _ => a < 32 && hOp hdr = Op.resvClear.code
  | .svcreq a hdr _ _ => a < 32 && hOp hdr = Op.svcReq.code
  | .wbdirty a hdr _ _ => a < 32 && hOp hdr = Op.wbDirty.code
  | .wbowned a hdr _ _ => a < 32 && hOp hdr = Op.wbOwned.code
  | .evictclean a hdr _ => a < 32 && hOp hdr = Op.evictClean.code
  | .compack a hdr => a < 32 && hOp hdr = Op.compAck.code
  | .rspi a hdr => a < 32 && hOp hdr = Op.rspI.code
  | .rsps a hdr => a < 32 && hOp hdr = Op.rspS.code
  | .rspfwd a hdr => a < 32 && hOp hdr = Op.rspFwd.code
  | .rspwbcrossed a hdr => a < 32 && hOp hdr = Op.rspWbCrossed.code
  | .datafwd a hdr _ => a < 32 && hOp hdr = Op.dataFwd.code
  | .sliceArbitration slice _ corr => slice < 8 && corr.all (fun loc => decide (loc < 2 ^ 22))
  | .holdExpiry _ a => a < 32
  | .snoopTimeout slice idx a => slice < 8 && idx < 4096 && a < 32
  | .departureWalkRow k => k < 16
  | .displacementTimeout slice idx => slice < 8 && idx < 4096
  | .allocWaitExpiry slice idx => slice < 8 && idx < 4096
  | .tagStoreReadReturn slice idx w _ => slice < 8 && idx < 4096 && w < 10
  | .granaryReread b _ loc row _ => b < 8 && loc < 2 ^ 22 && row < 2 ^ 32
  | .indexRebuildEnd b => b < 8
  | .qryAnswer loc _ _ => loc < 2 ^ 22
  | .qryRequest loc => loc < 2 ^ 22
  | .hbmReadReturn _ _ => true
  | .ddr5ReadReturn _ _ => true
  | .rereadReturn r => match r with | .array arr _ _ _ _ _ _ => decide (1 ≤ arr) && decide (arr ≤ 0x0E) | _ => true
  | .hbmWriteAccept _ => true
  | .ddr5WriteAccept _ _ _ => true
  | .zeroMapWordReturn slice idx _ => slice < 8 && idx ≤ 4096
  | .pageFillQueued slice idx => slice < 8 && idx < 4096
  | .hbmRefresh _ _ => true
  | .ddr5Refresh _ _ => true
  | .queueEntryAging _ _ => true
  | .ddr5RowClose _ => true
  | .orderedToken a => a < 32
  | .endPointNotice a => a < 32
  | .prefetchQueueTimeout _ => true
  | .prefetchDataReturn _ _ => true
  | .prefetchResolutionReport => true
  | .strideTrainingRecord => true
  | .strideTarget => true
  | .descriptorStart => true
  | .harrowLineIssue _ => true
  | .harrowLineAnswer _ => true
  | .patrolReadIssue ddr u => u < (if ddr then 12 else 8)
  | .patrolReadResult _ _ _ => true
  | .repairCandidateRecord => true
  | .epochApply m => m < 17
  | .precleanEnd => true
  | .drainStepEnd => true
  | .drainSubstepEnd dis _ _ => dis < 2 ^ 16
  | .tenantRewriteEnd => true
  | .powerOnReset => true
  | .porstRelease _ _ _ => true
  | .startupStepEnd => true
  | .bootImageCheck _ => true
  | .memoryBringupStepEnd _ _ lanes geo r => lanes.length ≤ 4 && geo.length ≤ 12 && r.spd.length ≤ 24 && r.dimms.length ≤ 24 && r.spd.all (fun x => match x with | some l => decide (l.length ≤ 1024) | none => true)
  | .perstAssert => true
  | .perstDeassert => true
  | .watchdogExpiry => true
  | .stewardRestartEnd => true
  | .activationAccepted => true
  | .activationRestart => true
  | .deviceResetStart => true
  | .pwrFailAssert => true
  | .powerFailStepEnd => true
  | .railMonitor rail _ => rail < 8
  | .thermalReading sensor _ _ _ => sensor < 5
  | .sysClkMissing => true
  | .refclkMissing => true
  | .oscillatorTrim => true
  | .pcieDomainOff => true
  | .smbusAddressMatch => true
  | .twinHello _ => true
  | .twinHeartbeat => true
  | .twinGoodbye => true
  | .hbTimeout => true
  | .witnessTest _ _ => true
  | .witnessWaitExpiry => true
  | .failoverReplayEnd => true
  | .reconcileWaitExpiry => true
  | .resendWindowExpiry => true
  | .stbyWalkEnd => true
  | .logRecordReceive r => r.src < 10
  | .logRecordApply src => src < 10
  | .twinAckReceive src lseq => src < 10 && lseq < 2 ^ 24
  | .agentMapUpdate _ a slot sets ways _ => a < 32 && slot < 16 && sets ≤ 14 && ways ≤ 16
  | .timeSyncSend => true
  | .timeSyncReceive _ _ => true
  | .resyncCopyEnd => true
  | .meteringTick => true
  | .tapFrameReceive tap _ _ => tap < 18
  | .shortBoundary => true
  | .intervalClose _ => true
  | .wgbPfail => true
  | .weighbridgePowerRestore => true
  | .timeFault => true
  | .timeFaultEnd => true
  | .readId port _ _ => port < 2
  | .readParams port _ _ => port < 2
  | .readIntervals port group lo hi _ _ => port < 2 && group < 256 && lo < 2 ^ 32 && hi < 2 ^ 32
  | .readCumulative port first n _ _ => port < 2 && first < 2 ^ 16 && n < 2 ^ 16
  | .readAudit port first n _ _ => port < 2 && first < 2 ^ 32 && n < 2 ^ 16
  | .selfTest port _ _ _ => port < 2
  | .setParams port len _ => port < 2 && len < 2 ^ 16
  | .loadPatch port _ bytes _ => port < 2 && bytes.all (fun x => decide (x < 256))
  | .seal port _ _ _ _ _ => port < 2
  | .closeShort port _ => port < 2
  | .markFailover port _ => port < 2
  | .timeNote port _ _ => port < 2
  | .status port _ => port < 2
  | .mailboxBufferWrite m off bytes _ => m < 16 && off < 0x10000 && octets bytes
  | .mailboxGo m _ => m < 16
  | .mailboxAck m => m < 16
  | .commandTake faults => faults < 3
  | .journalCompactionEnd => true
  | .smbusStatusRead => true
  | .smbusSetOffset off _ => off < 2 ^ 16
  | .smbusBlockWrite bytes _ => 1 ≤ bytes.length && bytes.length ≤ 255 && bytes.all (fun x => decide (x < 256))
  | .smbusBlockRead n => n < 256
  | .smbusGo _ _ => true
  | .smbusAck _ => true
  | .smbusAlertResponse => true
  | .idGet m => m < 17
  | .idAgents m => m < 17
  | .cfgStage m => m < 17
  | .cfgRead m => m < 17
  | .cfgDiscard m => m < 17
  | .cfgCheck m => m < 17
  | .cfgDigest m => m < 17
  | .epochStatus m => m < 17
  | .regionLookup m => m < 17
  | .regionRead m => m < 17
  | .tenantRead m => m < 17
  | .cacheLock m => m < 17
  | .cacheUnlock m => m < 17
  | .cacheStatus m => m < 17
  | .cacheTagRead m => m < 17
  | .harrowSubmit m => m < 17
  | .harrowQuery m => m < 17
  | .harrowReap m => m < 17
  | .harrowAbort m => m < 17
  | .ceRead m => m < 17
  | .ceClear m => m < 17
  | .elogRead m => m < 17
  | .taintClear m => m < 17
  | .zmapWrite m => m < 17
  | .taglostClear m => m < 17
  | .repairList m => m < 17
  | .repairNominate m => m < 17
  | .twinStage m => m < 17
  | .twinStatus m => m < 17
  | .twinWitness m _ _ => m < 17
  | .twinTakeover m => m < 17
  | .twinRejoin m => m < 17
  | .irqRoute m => m < 17
  | .irqCoalesce m => m < 17
  | .irqOasis m => m < 17
  | .irqRead m => m < 17
  | .meterId m portFails => m < 17 && portFails < 3
  | .meterIntervals m portFails => m < 17 && portFails < 3
  | .meterCumulative m portFails => m < 17 && portFails < 3
  | .meterAudit m portFails => m < 17 && portFails < 3
  | .meterStatus m portFails => m < 17 && portFails < 3
  | .meterTimeNote m portFails => m < 17 && portFails < 3
  | .meterCloseShort m portFails => m < 17 && portFails < 3
  | .meterMarkFailover m portFails => m < 17 && portFails < 3
  | .fwWrite m spi => m < 17 && spi < 3
  | .fwVerify m => m < 17
  | .fwActivate m => m < 17
  | .fwRollbackCommit m => m < 17
  | .fwStatus m => m < 17
  | .deviceReset m => m < 17
  | .deviceStop m => m < 17
  | .journalRead m => m < 17
  | .journalCompact m => m < 17
  | .portReset m => m < 17
  | .spdRead m => m < 17
  | .sensorRead m => m < 17
  | .eventArrival => true
  | .coalescingTimerExpiry t => t < 96
  | .vectorClaim v => v < 64
  | .causeRead v => v < 64
  | .sourceMaskWrite n _ _ => n < 256
  | .agentTargetDelivery a => a < 32
  | .oasisEvent => true
  | .oasisWakePowerupEnd => true
  | .oasisHandover => true
  | .registerWrite off bytes _ => off < 2 ^ 26 && octets bytes
  | .pcrTimeLRead => true
  | .shadowCapture => true
  | .pciConfigWrite _ => true
  | .msixTableWrite off bytes => off < 2 ^ 26 && octets bytes
  | .pmeServiceTimeout => true
  | .weighbridgePowerLoss => true
  | .railBackInRange rail => rail < 8
  | .sysClkReturn => true
  | .refclkReturn => true
  | .jtagDeviceReset => true
  | .smbusClockLowTimeout => true
  | .writeDrain ddr ch => ch < (if ddr then 12 else 64)

/-- The number of the unit that a command addresses (a link, an agent, a slice, a bank, a slot, a rail, a
mailbox, a port, a tap, a target, a vector or a source), and how many such units the device has; a
command that addresses none has the one number 0. -/
def Instr.unit : Instr → Nat × Nat
  | .codewordPairReceived a _ _ _ _ => (a, 33)
  | .replayTimeout a => (a, 33)
  | .laneDetect a _ => (a, 33)
  | .pollingComplete a => (a, 33)
  | .pollingTimeout a => (a, 33)
  | .configureTimeout a => (a, 33)
  | .declareTimeout a => (a, 33)
  | .recoveryComplete a => (a, 33)
  | .recoveryTimeout a _ => (a, 33)
  | .linkBuffersEmpty a => (a, 33)
  | .agentDeclaration a _ _ => (a, 32)
  | .rdshared a _ _ => (a, 32)
  | .rdown a _ _ => (a, 32)
  | .rdonce a _ _ => (a, 32)
  | .upgrade a _ _ => (a, 32)
  | .wrinvfull a _ _ _ => (a, 32)
  | .wrpartial a _ _ _ _ => (a, 32)
  | .rduncached a _ _ => (a, 32)
  | .wruncached a _ _ _ => (a, 32)
  | .ldresv a _ _ => (a, 32)
  | .stcond a _ _ _ => (a, 32)
  | .atomic a _ _ _ => (a, 32)
  | .cbar a _ _ => (a, 32)
  | .resvclear a _ _ => (a, 32)
  | .svcreq a _ _ _ => (a, 32)
  | .wbdirty a _ _ _ => (a, 32)
  | .wbowned a _ _ _ => (a, 32)
  | .evictclean a _ _ => (a, 32)
  | .compack a _ => (a, 32)
  | .rspi a _ => (a, 32)
  | .rsps a _ => (a, 32)
  | .rspfwd a _ => (a, 32)
  | .rspwbcrossed a _ => (a, 32)
  | .datafwd a _ _ => (a, 32)
  | .sliceArbitration slice _ _ => (slice, 8)
  | .holdExpiry _ a => (a, 32)
  | .snoopTimeout slice _ _ => (slice, 8)
  | .departureWalkRow k => (k, 16)
  | .displacementTimeout slice _ => (slice, 8)
  | .allocWaitExpiry slice _ => (slice, 8)
  | .tagStoreReadReturn slice _ _ _ => (slice, 8)
  | .granaryReread b _ _ _ _ => (b, 8)
  | .indexRebuildEnd b => (b, 8)
  | .qryAnswer _ _ _ => (0, 1)
  | .qryRequest _ => (0, 1)
  | .hbmReadReturn _ _ => (0, 1)
  | .ddr5ReadReturn _ _ => (0, 1)
  | .rereadReturn _ => (0, 1)
  | .hbmWriteAccept _ => (0, 1)
  | .ddr5WriteAccept _ _ _ => (0, 1)
  | .zeroMapWordReturn slice _ _ => (slice, 8)
  | .pageFillQueued slice _ => (slice, 8)
  | .hbmRefresh _ _ => (0, 1)
  | .ddr5Refresh _ _ => (0, 1)
  | .queueEntryAging _ _ => (0, 1)
  | .ddr5RowClose _ => (0, 1)
  | .orderedToken a => (a, 32)
  | .endPointNotice a => (a, 32)
  | .prefetchQueueTimeout _ => (0, 1)
  | .prefetchDataReturn _ _ => (0, 1)
  | .prefetchResolutionReport => (0, 1)
  | .strideTrainingRecord => (0, 1)
  | .strideTarget => (0, 1)
  | .descriptorStart => (0, 1)
  | .harrowLineIssue _ => (0, 1)
  | .harrowLineAnswer _ => (0, 1)
  | .patrolReadIssue ddr u => (u, (if ddr then 12 else 8))
  | .patrolReadResult _ _ _ => (0, 1)
  | .repairCandidateRecord => (0, 1)
  | .epochApply m => (m, 17)
  | .precleanEnd => (0, 1)
  | .drainStepEnd => (0, 1)
  | .drainSubstepEnd _ _ _ => (0, 1)
  | .tenantRewriteEnd => (0, 1)
  | .powerOnReset => (0, 1)
  | .porstRelease _ _ _ => (0, 1)
  | .startupStepEnd => (0, 1)
  | .bootImageCheck _ => (0, 1)
  | .memoryBringupStepEnd _ _ _ _ _ => (0, 1)
  | .perstAssert => (0, 1)
  | .perstDeassert => (0, 1)
  | .watchdogExpiry => (0, 1)
  | .stewardRestartEnd => (0, 1)
  | .activationAccepted => (0, 1)
  | .activationRestart => (0, 1)
  | .deviceResetStart => (0, 1)
  | .pwrFailAssert => (0, 1)
  | .powerFailStepEnd => (0, 1)
  | .railMonitor rail _ => (rail, 8)
  | .thermalReading sensor _ _ _ => (sensor, 5)
  | .sysClkMissing => (0, 1)
  | .refclkMissing => (0, 1)
  | .oscillatorTrim => (0, 1)
  | .pcieDomainOff => (0, 1)
  | .smbusAddressMatch => (0, 1)
  | .twinHello _ => (0, 1)
  | .twinHeartbeat => (0, 1)
  | .twinGoodbye => (0, 1)
  | .hbTimeout => (0, 1)
  | .witnessTest _ _ => (0, 1)
  | .witnessWaitExpiry => (0, 1)
  | .failoverReplayEnd => (0, 1)
  | .reconcileWaitExpiry => (0, 1)
  | .resendWindowExpiry => (0, 1)
  | .stbyWalkEnd => (0, 1)
  | .logRecordReceive r => (r.src, 10)
  | .logRecordApply src => (src, 10)
  | .twinAckReceive src _ => (src, 10)
  | .agentMapUpdate _ a _ _ _ _ => (a, 32)
  | .timeSyncSend => (0, 1)
  | .timeSyncReceive _ _ => (0, 1)
  | .resyncCopyEnd => (0, 1)
  | .meteringTick => (0, 1)
  | .tapFrameReceive tap _ _ => (tap, 18)
  | .shortBoundary => (0, 1)
  | .intervalClose _ => (0, 1)
  | .wgbPfail => (0, 1)
  | .weighbridgePowerRestore => (0, 1)
  | .timeFault => (0, 1)
  | .timeFaultEnd => (0, 1)
  | .readId port _ _ => (port, 2)
  | .readParams port _ _ => (port, 2)
  | .readIntervals port _ _ _ _ _ => (port, 2)
  | .readCumulative port _ _ _ _ => (port, 2)
  | .readAudit port _ _ _ _ => (port, 2)
  | .selfTest port _ _ _ => (port, 2)
  | .setParams port _ _ => (port, 2)
  | .loadPatch port _ _ _ => (port, 2)
  | .seal port _ _ _ _ _ => (port, 2)
  | .closeShort port _ => (port, 2)
  | .markFailover port _ => (port, 2)
  | .timeNote port _ _ => (port, 2)
  | .status port _ => (port, 2)
  | .mailboxBufferWrite m _ _ _ => (m, 16)
  | .mailboxGo m _ => (m, 16)
  | .mailboxAck m => (m, 16)
  | .commandTake _ => (0, 1)
  | .journalCompactionEnd => (0, 1)
  | .smbusStatusRead => (0, 1)
  | .smbusSetOffset _ _ => (0, 1)
  | .smbusBlockWrite _ _ => (0, 1)
  | .smbusBlockRead n => (n, 256)
  | .smbusGo _ _ => (0, 1)
  | .smbusAck _ => (0, 1)
  | .smbusAlertResponse => (0, 1)
  | .idGet m => (m, 17)
  | .idAgents m => (m, 17)
  | .cfgStage m => (m, 17)
  | .cfgRead m => (m, 17)
  | .cfgDiscard m => (m, 17)
  | .cfgCheck m => (m, 17)
  | .cfgDigest m => (m, 17)
  | .epochStatus m => (m, 17)
  | .regionLookup m => (m, 17)
  | .regionRead m => (m, 17)
  | .tenantRead m => (m, 17)
  | .cacheLock m => (m, 17)
  | .cacheUnlock m => (m, 17)
  | .cacheStatus m => (m, 17)
  | .cacheTagRead m => (m, 17)
  | .harrowSubmit m => (m, 17)
  | .harrowQuery m => (m, 17)
  | .harrowReap m => (m, 17)
  | .harrowAbort m => (m, 17)
  | .ceRead m => (m, 17)
  | .ceClear m => (m, 17)
  | .elogRead m => (m, 17)
  | .taintClear m => (m, 17)
  | .zmapWrite m => (m, 17)
  | .taglostClear m => (m, 17)
  | .repairList m => (m, 17)
  | .repairNominate m => (m, 17)
  | .twinStage m => (m, 17)
  | .twinStatus m => (m, 17)
  | .twinWitness m _ _ => (m, 17)
  | .twinTakeover m => (m, 17)
  | .twinRejoin m => (m, 17)
  | .irqRoute m => (m, 17)
  | .irqCoalesce m => (m, 17)
  | .irqOasis m => (m, 17)
  | .irqRead m => (m, 17)
  | .meterId m _ => (m, 17)
  | .meterIntervals m _ => (m, 17)
  | .meterCumulative m _ => (m, 17)
  | .meterAudit m _ => (m, 17)
  | .meterStatus m _ => (m, 17)
  | .meterTimeNote m _ => (m, 17)
  | .meterCloseShort m _ => (m, 17)
  | .meterMarkFailover m _ => (m, 17)
  | .fwWrite m _ => (m, 17)
  | .fwVerify m => (m, 17)
  | .fwActivate m => (m, 17)
  | .fwRollbackCommit m => (m, 17)
  | .fwStatus m => (m, 17)
  | .deviceReset m => (m, 17)
  | .deviceStop m => (m, 17)
  | .journalRead m => (m, 17)
  | .journalCompact m => (m, 17)
  | .portReset m => (m, 17)
  | .spdRead m => (m, 17)
  | .sensorRead m => (m, 17)
  | .eventArrival => (0, 1)
  | .coalescingTimerExpiry t => (t, 96)
  | .vectorClaim v => (v, 64)
  | .causeRead v => (v, 64)
  | .sourceMaskWrite n _ _ => (n, 256)
  | .agentTargetDelivery a => (a, 32)
  | .oasisEvent => (0, 1)
  | .oasisWakePowerupEnd => (0, 1)
  | .oasisHandover => (0, 1)
  | .registerWrite _ _ _ => (0, 1)
  | .pcrTimeLRead => (0, 1)
  | .shadowCapture => (0, 1)
  | .pciConfigWrite _ => (0, 1)
  | .msixTableWrite _ _ => (0, 1)
  | .pmeServiceTimeout => (0, 1)
  | .weighbridgePowerLoss => (0, 1)
  | .railBackInRange rail => (rail, 8)
  | .sysClkReturn => (0, 1)
  | .refclkReturn => (0, 1)
  | .jtagDeviceReset => (0, 1)
  | .smbusClockLowTimeout => (0, 1)
  | .writeDrain ddr ch => (ch, (if ddr then 12 else 64))

end Sys2Proof
end

