-- ==== Sys2Proof/Laws/PerInstr.lean ====
section
/-! SUPPORT. The family of statements made of every command: what well-formedness says of the unit that a
command addresses. -/
namespace Sys2Proof.Laws
open Machine
set_option Elab.async false

/-- A well-formed command addresses a unit that the device has. -/
def Shape.Statement (i : Instr) : Prop := i.wf = true → i.unit.1 < i.unit.2

/-- CODEWORD_PAIR_RECEIVED. -/
theorem Shape.codewordPairReceived (a : Nat) (errA : Nat) (errB : Nat) (hdr : BitVec 40) (flits : List Flit) :
    Shape.Statement (.codewordPairReceived a errA errB hdr flits) := by
  intro h; simp [Instr.wf, Instr.unit] at h ⊢; try omega

/-- REPLAY_TIMEOUT. -/
theorem Shape.replayTimeout (a : Nat) :
    Shape.Statement (.replayTimeout a) := by
  intro h; simp [Instr.wf, Instr.unit] at h ⊢; try omega

/-- LANE_DETECT. -/
theorem Shape.laneDetect (a : Nat) (offer : Nat) :
    Shape.Statement (.laneDetect a offer) := by
  intro h; simp [Instr.wf, Instr.unit] at h ⊢; try omega

/-- POLLING_COMPLETE. -/
theorem Shape.pollingComplete (a : Nat) :
    Shape.Statement (.pollingComplete a) := by
  intro h; simp [Instr.wf, Instr.unit] at h ⊢; try omega

/-- POLLING_TIMEOUT. -/
theorem Shape.pollingTimeout (a : Nat) :
    Shape.Statement (.pollingTimeout a) := by
  intro h; simp [Instr.wf, Instr.unit] at h ⊢; try omega

/-- CONFIGURE_TIMEOUT. -/
theorem Shape.configureTimeout (a : Nat) :
    Shape.Statement (.configureTimeout a) := by
  intro h; simp [Instr.wf, Instr.unit] at h ⊢; try omega

/-- DECLARE_TIMEOUT. -/
theorem Shape.declareTimeout (a : Nat) :
    Shape.Statement (.declareTimeout a) := by
  intro h; simp [Instr.wf, Instr.unit] at h ⊢; try omega

/-- RECOVERY_COMPLETE. -/
theorem Shape.recoveryComplete (a : Nat) :
    Shape.Statement (.recoveryComplete a) := by
  intro h; simp [Instr.wf, Instr.unit] at h ⊢; try omega

/-- RECOVERY_TIMEOUT. -/
theorem Shape.recoveryTimeout (a : Nat) (faults : BitVec 8) :
    Shape.Statement (.recoveryTimeout a faults) := by
  intro h; simp [Instr.wf, Instr.unit] at h ⊢; try omega

/-- LINK_BUFFERS_EMPTY. -/
theorem Shape.linkBuffersEmpty (a : Nat) :
    Shape.Statement (.linkBuffersEmpty a) := by
  intro h; simp [Instr.wf, Instr.unit] at h ⊢; try omega

/-- AGENT_DECLARATION. -/
theorem Shape.agentDeclaration (a : Nat) (decl : Line) (tie : Option (Nat × Line)) :
    Shape.Statement (.agentDeclaration a decl tie) := by
  intro h; simp [Instr.wf, Instr.unit] at h ⊢; try omega

/-- RDSHARED. -/
theorem Shape.rdshared (a : Nat) (hdr : Slot) (more : Bool) :
    Shape.Statement (.rdshared a hdr more) := by
  intro h; simp [Instr.wf, Instr.unit] at h ⊢; try omega

/-- RDOWN. -/
theorem Shape.rdown (a : Nat) (hdr : Slot) (more : Bool) :
    Shape.Statement (.rdown a hdr more) := by
  intro h; simp [Instr.wf, Instr.unit] at h ⊢; try omega

/-- RDONCE. -/
theorem Shape.rdonce (a : Nat) (hdr : Slot) (more : Bool) :
    Shape.Statement (.rdonce a hdr more) := by
  intro h; simp [Instr.wf, Instr.unit] at h ⊢; try omega

/-- UPGRADE. -/
theorem Shape.upgrade (a : Nat) (hdr : Slot) (more : Bool) :
    Shape.Statement (.upgrade a hdr more) := by
  intro h; simp [Instr.wf, Instr.unit] at h ⊢; try omega

/-- WRINVFULL. -/
theorem Shape.wrinvfull (a : Nat) (hdr : Slot) (data : Line) (more : Bool) :
    Shape.Statement (.wrinvfull a hdr data more) := by
  intro h; simp [Instr.wf, Instr.unit] at h ⊢; try omega

/-- WRPARTIAL. -/
theorem Shape.wrpartial (a : Nat) (hdr : Slot) (data : Line) (be : BitVec 64) (more : Bool) :
    Shape.Statement (.wrpartial a hdr data be more) := by
  intro h; simp [Instr.wf, Instr.unit] at h ⊢; try omega

/-- RDUNCACHED. -/
theorem Shape.rduncached (a : Nat) (hdr : Slot) (more : Bool) :
    Shape.Statement (.rduncached a hdr more) := by
  intro h; simp [Instr.wf, Instr.unit] at h ⊢; try omega

/-- WRUNCACHED. -/
theorem Shape.wruncached (a : Nat) (hdr : Slot) (data : Line) (more : Bool) :
    Shape.Statement (.wruncached a hdr data more) := by
  intro h; simp [Instr.wf, Instr.unit] at h ⊢; try omega

/-- LDRESV. -/
theorem Shape.ldresv (a : Nat) (hdr : Slot) (more : Bool) :
    Shape.Statement (.ldresv a hdr more) := by
  intro h; simp [Instr.wf, Instr.unit] at h ⊢; try omega

/-- STCOND. -/
theorem Shape.stcond (a : Nat) (hdr : Slot) (opnd : Slot) (more : Bool) :
    Shape.Statement (.stcond a hdr opnd more) := by
  intro h; simp [Instr.wf, Instr.unit] at h ⊢; try omega

/-- ATOMIC. -/
theorem Shape.atomic (a : Nat) (hdr : Slot) (opnd : Slot) (more : Bool) :
    Shape.Statement (.atomic a hdr opnd more) := by
  intro h; simp [Instr.wf, Instr.unit] at h ⊢; try omega

/-- CBAR. -/
theorem Shape.cbar (a : Nat) (hdr : Slot) (more : Bool) :
    Shape.Statement (.cbar a hdr more) := by
  intro h; simp [Instr.wf, Instr.unit] at h ⊢; try omega

/-- RESVCLEAR. -/
theorem Shape.resvclear (a : Nat) (hdr : Slot) (more : Bool) :
    Shape.Statement (.resvclear a hdr more) := by
  intro h; simp [Instr.wf, Instr.unit] at h ⊢; try omega

/-- SVCREQ. -/
theorem Shape.svcreq (a : Nat) (hdr : Slot) (data : Line) (more : Bool) :
    Shape.Statement (.svcreq a hdr data more) := by
  intro h; simp [Instr.wf, Instr.unit] at h ⊢; try omega

/-- WBDIRTY. -/
theorem Shape.wbdirty (a : Nat) (hdr : Slot) (data : Line) (more : Bool) :
    Shape.Statement (.wbdirty a hdr data more) := by
  intro h; simp [Instr.wf, Instr.unit] at h ⊢; try omega

/-- WBOWNED. -/
theorem Shape.wbowned (a : Nat) (hdr : Slot) (data : Line) (more : Bool) :
    Shape.Statement (.wbowned a hdr data more) := by
  intro h; simp [Instr.wf, Instr.unit] at h ⊢; try omega

/-- EVICTCLEAN. -/
theorem Shape.evictclean (a : Nat) (hdr : Slot) (more : Bool) :
    Shape.Statement (.evictclean a hdr more) := by
  intro h; simp [Instr.wf, Instr.unit] at h ⊢; try omega

/-- COMPACK. -/
theorem Shape.compack (a : Nat) (hdr : Slot) :
    Shape.Statement (.compack a hdr) := by
  intro h; simp [Instr.wf, Instr.unit] at h ⊢; try omega

/-- RSPI. -/
theorem Shape.rspi (a : Nat) (hdr : Slot) :
    Shape.Statement (.rspi a hdr) := by
  intro h; simp [Instr.wf, Instr.unit] at h ⊢; try omega

/-- RSPS. -/
theorem Shape.rsps (a : Nat) (hdr : Slot) :
    Shape.Statement (.rsps a hdr) := by
  intro h; simp [Instr.wf, Instr.unit] at h ⊢; try omega

/-- RSPFWD. -/
theorem Shape.rspfwd (a : Nat) (hdr : Slot) :
    Shape.Statement (.rspfwd a hdr) := by
  intro h; simp [Instr.wf, Instr.unit] at h ⊢; try omega

/-- RSPWBCROSSED. -/
theorem Shape.rspwbcrossed (a : Nat) (hdr : Slot) :
    Shape.Statement (.rspwbcrossed a hdr) := by
  intro h; simp [Instr.wf, Instr.unit] at h ⊢; try omega

/-- DATAFWD. -/
theorem Shape.datafwd (a : Nat) (hdr : Slot) (data : Line) :
    Shape.Statement (.datafwd a hdr data) := by
  intro h; simp [Instr.wf, Instr.unit] at h ⊢; try omega

/-- SLICE_ARBITRATION. -/
theorem Shape.sliceArbitration (slice : Nat) (idle : Nat) (corr : List Nat) :
    Shape.Statement (.sliceArbitration slice idle corr) := by
  intro h; simp [Instr.wf, Instr.unit] at h ⊢; try omega

/-- HOLD_EXPIRY. -/
theorem Shape.holdExpiry (la : LAddr) (a : Nat) :
    Shape.Statement (.holdExpiry la a) := by
  intro h; simp [Instr.wf, Instr.unit] at h ⊢; try omega

/-- SNOOP_TIMEOUT. -/
theorem Shape.snoopTimeout (slice : Nat) (idx : Nat) (a : Nat) :
    Shape.Statement (.snoopTimeout slice idx a) := by
  intro h; simp [Instr.wf, Instr.unit] at h ⊢; try omega

/-- DEPARTURE_WALK_ROW. -/
theorem Shape.departureWalkRow (k : Nat) :
    Shape.Statement (.departureWalkRow k) := by
  intro h; simp [Instr.wf, Instr.unit] at h ⊢; try omega

/-- DISPLACEMENT_TIMEOUT. -/
theorem Shape.displacementTimeout (slice : Nat) (idx : Nat) :
    Shape.Statement (.displacementTimeout slice idx) := by
  intro h; simp [Instr.wf, Instr.unit] at h ⊢; try omega

/-- ALLOC_WAIT_EXPIRY. -/
theorem Shape.allocWaitExpiry (slice : Nat) (idx : Nat) :
    Shape.Statement (.allocWaitExpiry slice idx) := by
  intro h; simp [Instr.wf, Instr.unit] at h ⊢; try omega

/-- TAG_STORE_READ_RETURN. -/
theorem Shape.tagStoreReadReturn (slice : Nat) (idx : Nat) (w : Nat) (err : ErrPat) :
    Shape.Statement (.tagStoreReadReturn slice idx w err) := by
  intro h; simp [Instr.wf, Instr.unit] at h ⊢; try omega

/-- GRANARY_REREAD. -/
theorem Shape.granaryReread (b : Nat) (arr : GWord) (loc : Nat) (row : Nat) (out : GRead) :
    Shape.Statement (.granaryReread b arr loc row out) := by
  intro h; simp [Instr.wf, Instr.unit] at h ⊢; try omega

/-- INDEX_REBUILD_END. -/
theorem Shape.indexRebuildEnd (b : Nat) :
    Shape.Statement (.indexRebuildEnd b) := by
  intro h; simp [Instr.wf, Instr.unit] at h ⊢; try omega

/-- QRY_ANSWER. -/
theorem Shape.qryAnswer (loc : Nat) (ok : Bool) (e : Option GEntry) :
    Shape.Statement (.qryAnswer loc ok e) := by
  intro h; simp [Instr.wf, Instr.unit] at h ⊢; try omega

/-- QRY_REQUEST. -/
theorem Shape.qryRequest (loc : Nat) :
    Shape.Statement (.qryRequest loc) := by
  intro h; simp [Instr.wf, Instr.unit] at h ⊢; try omega

/-- HBM_READ_RETURN. -/
theorem Shape.hbmReadReturn (word : Nat) (err : ErrPat) :
    Shape.Statement (.hbmReadReturn word err) := by
  intro h; simp [Instr.wf, Instr.unit] at h ⊢; try omega

/-- DDR5_READ_RETURN. -/
theorem Shape.ddr5ReadReturn (line : Nat) (err : ErrPat) :
    Shape.Statement (.ddr5ReadReturn line err) := by
  intro h; simp [Instr.wf, Instr.unit] at h ⊢; try omega

/-- REREAD_RETURN. -/
theorem Shape.rereadReturn (r : Reread) :
    Shape.Statement (.rereadReturn r) := by
  intro h; simp [Instr.wf, Instr.unit] at h ⊢; try omega

/-- HBM_WRITE_ACCEPT. -/
theorem Shape.hbmWriteAccept (word : Nat) :
    Shape.Statement (.hbmWriteAccept word) := by
  intro h; simp [Instr.wf, Instr.unit] at h ⊢; try omega

/-- DDR5_WRITE_ACCEPT. -/
theorem Shape.ddr5WriteAccept (line : Nat) (e1 : ErrPat) (e2 : ErrPat) :
    Shape.Statement (.ddr5WriteAccept line e1 e2) := by
  intro h; simp [Instr.wf, Instr.unit] at h ⊢; try omega

/-- ZERO_MAP_WORD_RETURN. -/
theorem Shape.zeroMapWordReturn (slice : Nat) (idx : Nat) (err : ErrPat) :
    Shape.Statement (.zeroMapWordReturn slice idx err) := by
  intro h; simp [Instr.wf, Instr.unit] at h ⊢; try omega

/-- PAGE_FILL_QUEUED. -/
theorem Shape.pageFillQueued (slice : Nat) (idx : Nat) :
    Shape.Statement (.pageFillQueued slice idx) := by
  intro h; simp [Instr.wf, Instr.unit] at h ⊢; try omega

/-- HBM_REFRESH. -/
theorem Shape.hbmRefresh (bank : Nat) (limit : Nat) :
    Shape.Statement (.hbmRefresh bank limit) := by
  intro h; simp [Instr.wf, Instr.unit] at h ⊢; try omega

/-- DDR5_REFRESH. -/
theorem Shape.ddr5Refresh (bank : Nat) (limit : Nat) :
    Shape.Statement (.ddr5Refresh bank limit) := by
  intro h; simp [Instr.wf, Instr.unit] at h ⊢; try omega

/-- QUEUE_ENTRY_AGING. -/
theorem Shape.queueEntryAging (ddr : Bool) (word : Nat) :
    Shape.Statement (.queueEntryAging ddr word) := by
  intro h; simp [Instr.wf, Instr.unit] at h ⊢; try omega

/-- DDR5_ROW_CLOSE. -/
theorem Shape.ddr5RowClose (row : Nat) :
    Shape.Statement (.ddr5RowClose row) := by
  intro h; simp [Instr.wf, Instr.unit] at h ⊢; try omega

/-- ORDERED_TOKEN. -/
theorem Shape.orderedToken (a : Nat) :
    Shape.Statement (.orderedToken a) := by
  intro h; simp [Instr.wf, Instr.unit] at h ⊢; try omega

/-- END_POINT_NOTICE. -/
theorem Shape.endPointNotice (a : Nat) :
    Shape.Statement (.endPointNotice a) := by
  intro h; simp [Instr.wf, Instr.unit] at h ⊢; try omega

/-- PREFETCH_QUEUE_TIMEOUT. -/
theorem Shape.prefetchQueueTimeout (la : LAddr) :
    Shape.Statement (.prefetchQueueTimeout la) := by
  intro h; simp [Instr.wf, Instr.unit] at h ⊢; try omega

/-- PREFETCH_DATA_RETURN. -/
theorem Shape.prefetchDataReturn (line : Nat) (err : ErrPat) :
    Shape.Statement (.prefetchDataReturn line err) := by
  intro h; simp [Instr.wf, Instr.unit] at h ⊢; try omega

/-- PREFETCH_RESOLUTION_REPORT. -/
theorem Shape.prefetchResolutionReport :
    Shape.Statement (.prefetchResolutionReport) := by
  intro h; simp [Instr.wf, Instr.unit] at h ⊢; try omega

/-- STRIDE_TRAINING_RECORD. -/
theorem Shape.strideTrainingRecord :
    Shape.Statement (.strideTrainingRecord) := by
  intro h; simp [Instr.wf, Instr.unit] at h ⊢; try omega

/-- STRIDE_TARGET. -/
theorem Shape.strideTarget :
    Shape.Statement (.strideTarget) := by
  intro h; simp [Instr.wf, Instr.unit] at h ⊢; try omega

/-- DESCRIPTOR_START. -/
theorem Shape.descriptorStart :
    Shape.Statement (.descriptorStart) := by
  intro h; simp [Instr.wf, Instr.unit] at h ⊢; try omega

/-- HARROW_LINE_ISSUE. -/
theorem Shape.harrowLineIssue (ticket : Nat) :
    Shape.Statement (.harrowLineIssue ticket) := by
  intro h; simp [Instr.wf, Instr.unit] at h ⊢; try omega

/-- HARROW_LINE_ANSWER. -/
theorem Shape.harrowLineAnswer (ticket : Nat) :
    Shape.Statement (.harrowLineAnswer ticket) := by
  intro h; simp [Instr.wf, Instr.unit] at h ⊢; try omega

/-- PATROL_READ_ISSUE. -/
theorem Shape.patrolReadIssue (ddr : Bool) (u : Nat) :
    Shape.Statement (.patrolReadIssue ddr u) := by
  intro h; simp [Instr.wf, Instr.unit] at h ⊢; try omega

/-- PATROL_READ_RESULT. -/
theorem Shape.patrolReadResult (ddr : Bool) (word : Nat) (err : ErrPat) :
    Shape.Statement (.patrolReadResult ddr word err) := by
  intro h; simp [Instr.wf, Instr.unit] at h ⊢; try omega

/-- REPAIR_CANDIDATE_RECORD. -/
theorem Shape.repairCandidateRecord :
    Shape.Statement (.repairCandidateRecord) := by
  intro h; simp [Instr.wf, Instr.unit] at h ⊢; try omega

/-- EPOCH_APPLY. -/
theorem Shape.epochApply (m : Nat) :
    Shape.Statement (.epochApply m) := by
  intro h; simp [Instr.wf, Instr.unit] at h ⊢; try omega

/-- PRECLEAN_END. -/
theorem Shape.precleanEnd :
    Shape.Statement (.precleanEnd) := by
  intro h; simp [Instr.wf, Instr.unit] at h ⊢; try omega

/-- DRAIN_STEP_END. -/
theorem Shape.drainStepEnd :
    Shape.Statement (.drainStepEnd) := by
  intro h; simp [Instr.wf, Instr.unit] at h ⊢; try omega

/-- DRAIN_SUBSTEP_END. -/
theorem Shape.drainSubstepEnd (dis : Nat) (outcomes : List Bool) (partner : Bool) :
    Shape.Statement (.drainSubstepEnd dis outcomes partner) := by
  intro h; simp [Instr.wf, Instr.unit] at h ⊢; try omega

/-- TENANT_REWRITE_END. -/
theorem Shape.tenantRewriteEnd :
    Shape.Statement (.tenantRewriteEnd) := by
  intro h; simp [Instr.wf, Instr.unit] at h ⊢; try omega

/-- POWER_ON_RESET. -/
theorem Shape.powerOnReset :
    Shape.Statement (.powerOnReset) := by
  intro h; simp [Instr.wf, Instr.unit] at h ⊢; try omega

/-- PORST_RELEASE. -/
theorem Shape.porstRelease (role : Bool) (smb : BitVec 2) (testEn : Bool) :
    Shape.Statement (.porstRelease role smb testEn) := by
  intro h; simp [Instr.wf, Instr.unit] at h ⊢; try omega

/-- STARTUP_STEP_END. -/
theorem Shape.startupStepEnd :
    Shape.Statement (.startupStepEnd) := by
  intro h; simp [Instr.wf, Instr.unit] at h ⊢; try omega

/-- BOOT_IMAGE_CHECK. -/
theorem Shape.bootImageCheck (spiFail : Bool) :
    Shape.Statement (.bootImageCheck spiFail) := by
  intro h; simp [Instr.wf, Instr.unit] at h ⊢; try omega

/-- MEMORY_BRINGUP_STEP_END. -/
theorem Shape.memoryBringupStepEnd (ddr : Bool) (fails : BitVec 12) (lanes : List (BitVec 16)) (geo : List Geo)
    (shown : DimmIn) : Shape.Statement (.memoryBringupStepEnd ddr fails lanes geo shown) := by
  intro h; simp [Instr.wf, Instr.unit] at h ⊢; try omega

/-- PERST_ASSERT. -/
theorem Shape.perstAssert :
    Shape.Statement (.perstAssert) := by
  intro h; simp [Instr.wf, Instr.unit] at h ⊢; try omega

/-- PERST_DEASSERT. -/
theorem Shape.perstDeassert :
    Shape.Statement (.perstDeassert) := by
  intro h; simp [Instr.wf, Instr.unit] at h ⊢; try omega

/-- WATCHDOG_EXPIRY. -/
theorem Shape.watchdogExpiry :
    Shape.Statement (.watchdogExpiry) := by
  intro h; simp [Instr.wf, Instr.unit] at h ⊢; try omega

/-- STEWARD_RESTART_END. -/
theorem Shape.stewardRestartEnd :
    Shape.Statement (.stewardRestartEnd) := by
  intro h; simp [Instr.wf, Instr.unit] at h ⊢; try omega

/-- ACTIVATION_ACCEPTED. -/
theorem Shape.activationAccepted :
    Shape.Statement (.activationAccepted) := by
  intro h; simp [Instr.wf, Instr.unit] at h ⊢; try omega

/-- ACTIVATION_RESTART. -/
theorem Shape.activationRestart :
    Shape.Statement (.activationRestart) := by
  intro h; simp [Instr.wf, Instr.unit] at h ⊢; try omega

/-- DEVICE_RESET_START. -/
theorem Shape.deviceResetStart :
    Shape.Statement (.deviceResetStart) := by
  intro h; simp [Instr.wf, Instr.unit] at h ⊢; try omega

/-- PWR_FAIL_ASSERT. -/
theorem Shape.pwrFailAssert :
    Shape.Statement (.pwrFailAssert) := by
  intro h; simp [Instr.wf, Instr.unit] at h ⊢; try omega

/-- POWER_FAIL_STEP_END. -/
theorem Shape.powerFailStepEnd :
    Shape.Statement (.powerFailStepEnd) := by
  intro h; simp [Instr.wf, Instr.unit] at h ⊢; try omega

/-- RAIL_MONITOR. -/
theorem Shape.railMonitor (rail : Nat) (far : Bool) :
    Shape.Statement (.railMonitor rail far) := by
  intro h; simp [Instr.wf, Instr.unit] at h ⊢; try omega

/-- THERMAL_READING. -/
theorem Shape.thermalReading (sensor : Nat) (idx : Nat) (value : Nat) (cleared : Bool) :
    Shape.Statement (.thermalReading sensor idx value cleared) := by
  intro h; simp [Instr.wf, Instr.unit] at h ⊢; try omega

/-- SYS_CLK_MISSING. -/
theorem Shape.sysClkMissing :
    Shape.Statement (.sysClkMissing) := by
  intro h; simp [Instr.wf, Instr.unit] at h ⊢; try omega

/-- REFCLK_MISSING. -/
theorem Shape.refclkMissing :
    Shape.Statement (.refclkMissing) := by
  intro h; simp [Instr.wf, Instr.unit] at h ⊢; try omega

/-- OSCILLATOR_TRIM. -/
theorem Shape.oscillatorTrim :
    Shape.Statement (.oscillatorTrim) := by
  intro h; simp [Instr.wf, Instr.unit] at h ⊢; try omega

/-- PCIE_DOMAIN_OFF. -/
theorem Shape.pcieDomainOff :
    Shape.Statement (.pcieDomainOff) := by
  intro h; simp [Instr.wf, Instr.unit] at h ⊢; try omega

/-- SMBUS_ADDRESS_MATCH. -/
theorem Shape.smbusAddressMatch :
    Shape.Statement (.smbusAddressMatch) := by
  intro h; simp [Instr.wf, Instr.unit] at h ⊢; try omega

/-- TWIN_HELLO. -/
theorem Shape.twinHello (h : Hello) :
    Shape.Statement (.twinHello h) := by
  intro h; simp [Instr.wf, Instr.unit] at h ⊢; try omega

/-- TWIN_HEARTBEAT. -/
theorem Shape.twinHeartbeat :
    Shape.Statement (.twinHeartbeat) := by
  intro h; simp [Instr.wf, Instr.unit] at h ⊢; try omega

/-- TWIN_GOODBYE. -/
theorem Shape.twinGoodbye :
    Shape.Statement (.twinGoodbye) := by
  intro h; simp [Instr.wf, Instr.unit] at h ⊢; try omega

/-- HB_TIMEOUT. -/
theorem Shape.hbTimeout :
    Shape.Statement (.hbTimeout) := by
  intro h; simp [Instr.wf, Instr.unit] at h ⊢; try omega

/-- WITNESS_TEST. -/
theorem Shape.witnessTest (up : Bool) (down : Bool) :
    Shape.Statement (.witnessTest up down) := by
  intro h; simp [Instr.wf, Instr.unit] at h ⊢; try omega

/-- WITNESS_WAIT_EXPIRY. -/
theorem Shape.witnessWaitExpiry :
    Shape.Statement (.witnessWaitExpiry) := by
  intro h; simp [Instr.wf, Instr.unit] at h ⊢; try omega

/-- FAILOVER_REPLAY_END. -/
theorem Shape.failoverReplayEnd :
    Shape.Statement (.failoverReplayEnd) := by
  intro h; simp [Instr.wf, Instr.unit] at h ⊢; try omega

/-- RECONCILE_WAIT_EXPIRY. -/
theorem Shape.reconcileWaitExpiry :
    Shape.Statement (.reconcileWaitExpiry) := by
  intro h; simp [Instr.wf, Instr.unit] at h ⊢; try omega

/-- RESEND_WINDOW_EXPIRY. -/
theorem Shape.resendWindowExpiry :
    Shape.Statement (.resendWindowExpiry) := by
  intro h; simp [Instr.wf, Instr.unit] at h ⊢; try omega

/-- STBY_WALK_END. -/
theorem Shape.stbyWalkEnd :
    Shape.Statement (.stbyWalkEnd) := by
  intro h; simp [Instr.wf, Instr.unit] at h ⊢; try omega

/-- LOG_RECORD_RECEIVE. -/
theorem Shape.logRecordReceive (r : TRec) :
    Shape.Statement (.logRecordReceive r) := by
  intro h; simp [Instr.wf, Instr.unit] at h ⊢; try omega

/-- LOG_RECORD_APPLY. -/
theorem Shape.logRecordApply (src : Nat) :
    Shape.Statement (.logRecordApply src) := by
  intro h; simp [Instr.wf, Instr.unit] at h ⊢; try omega

/-- TWIN_ACK_RECEIVE. -/
theorem Shape.twinAckReceive (src : Nat) (lseq : Nat) :
    Shape.Statement (.twinAckReceive src lseq) := by
  intro h; simp [Instr.wf, Instr.unit] at h ⊢; try omega

/-- AGENT_MAP_UPDATE. -/
theorem Shape.agentMapUpdate (uid : Word64) (a : Nat) (slot : Nat) (sets : Nat) (ways : Nat) (present : Bool) :
    Shape.Statement (.agentMapUpdate uid a slot sets ways present) := by
  intro h; simp [Instr.wf, Instr.unit] at h ⊢; try omega

/-- TIME_SYNC_SEND. -/
theorem Shape.timeSyncSend :
    Shape.Statement (.timeSyncSend) := by
  intro h; simp [Instr.wf, Instr.unit] at h ⊢; try omega

/-- TIME_SYNC_RECEIVE. -/
theorem Shape.timeSyncReceive (t : Word64) (roundTrip : Nat) :
    Shape.Statement (.timeSyncReceive t roundTrip) := by
  intro h; simp [Instr.wf, Instr.unit] at h ⊢; try omega

/-- RESYNC_COPY_END. -/
theorem Shape.resyncCopyEnd :
    Shape.Statement (.resyncCopyEnd) := by
  intro h; simp [Instr.wf, Instr.unit] at h ⊢; try omega

/-- METERING_TICK. -/
theorem Shape.meteringTick :
    Shape.Statement (.meteringTick) := by
  intro h; simp [Instr.wf, Instr.unit] at h ⊢; try omega

/-- TAP_FRAME_RECEIVE. -/
theorem Shape.tapFrameReceive (tap : Nat) (bad1 : Bool) (bad2 : Bool) :
    Shape.Statement (.tapFrameReceive tap bad1 bad2) := by
  intro h; simp [Instr.wf, Instr.unit] at h ⊢; try omega

/-- SHORT_BOUNDARY. -/
theorem Shape.shortBoundary :
    Shape.Statement (.shortBoundary) := by
  intro h; simp [Instr.wf, Instr.unit] at h ⊢; try omega

/-- INTERVAL_CLOSE. -/
theorem Shape.intervalClose (late : Bool) :
    Shape.Statement (.intervalClose late) := by
  intro h; simp [Instr.wf, Instr.unit] at h ⊢; try omega

/-- WGB_PFAIL. -/
theorem Shape.wgbPfail :
    Shape.Statement (.wgbPfail) := by
  intro h; simp [Instr.wf, Instr.unit] at h ⊢; try omega

/-- WEIGHBRIDGE_POWER_RESTORE. -/
theorem Shape.weighbridgePowerRestore :
    Shape.Statement (.weighbridgePowerRestore) := by
  intro h; simp [Instr.wf, Instr.unit] at h ⊢; try omega

/-- TIME_FAULT. -/
theorem Shape.timeFault :
    Shape.Statement (.timeFault) := by
  intro h; simp [Instr.wf, Instr.unit] at h ⊢; try omega

/-- TIME_FAULT_END. -/
theorem Shape.timeFaultEnd :
    Shape.Statement (.timeFaultEnd) := by
  intro h; simp [Instr.wf, Instr.unit] at h ⊢; try omega

/-- READ_ID. -/
theorem Shape.readId (port : Nat) (nonce : BitVec 128) (crcOk : Bool) :
    Shape.Statement (.readId port nonce crcOk) := by
  intro h; simp [Instr.wf, Instr.unit] at h ⊢; try omega

/-- READ_PARAMS. -/
theorem Shape.readParams (port : Nat) (nonce : BitVec 128) (crcOk : Bool) :
    Shape.Statement (.readParams port nonce crcOk) := by
  intro h; simp [Instr.wf, Instr.unit] at h ⊢; try omega

/-- READ_INTERVALS. -/
theorem Shape.readIntervals (port : Nat) (group : Nat) (lo : Nat) (hi : Nat) (nonce : BitVec 128) (crcOk : Bool) :
    Shape.Statement (.readIntervals port group lo hi nonce crcOk) := by
  intro h; simp [Instr.wf, Instr.unit] at h ⊢; try omega

/-- READ_CUMULATIVE. -/
theorem Shape.readCumulative (port : Nat) (first : Nat) (n : Nat) (nonce : BitVec 128) (crcOk : Bool) :
    Shape.Statement (.readCumulative port first n nonce crcOk) := by
  intro h; simp [Instr.wf, Instr.unit] at h ⊢; try omega

/-- READ_AUDIT. -/
theorem Shape.readAudit (port : Nat) (first : Nat) (n : Nat) (nonce : BitVec 128) (crcOk : Bool) :
    Shape.Statement (.readAudit port first n nonce crcOk) := by
  intro h; simp [Instr.wf, Instr.unit] at h ⊢; try omega

/-- SELF_TEST. -/
theorem Shape.selfTest (port : Nat) (journalOk : Bool) (tapsOk : Bool) (crcOk : Bool) :
    Shape.Statement (.selfTest port journalOk tapsOk crcOk) := by
  intro h; simp [Instr.wf, Instr.unit] at h ⊢; try omega

/-- SET_PARAMS. -/
theorem Shape.setParams (port : Nat) (len : Nat) (crcOk : Bool) :
    Shape.Statement (.setParams port len crcOk) := by
  intro h; simp [Instr.wf, Instr.unit] at h ⊢; try omega

/-- LOAD_PATCH. -/
theorem Shape.loadPatch (port : Nat) (pin : Bool) (bytes : List Nat) (crcOk : Bool) :
    Shape.Statement (.loadPatch port pin bytes crcOk) := by
  intro h; simp [Instr.wf, Instr.unit] at h ⊢; try omega

/-- SEAL. -/
theorem Shape.seal (port : Nat) (pin : Bool) (confirm : Word32) (officer : BitVec 192) (date : Word64) (crcOk : Bool) :
    Shape.Statement (.seal port pin confirm officer date crcOk) := by
  intro h; simp [Instr.wf, Instr.unit] at h ⊢; try omega

/-- CLOSE_SHORT. -/
theorem Shape.closeShort (port : Nat) (crcOk : Bool) :
    Shape.Statement (.closeShort port crcOk) := by
  intro h; simp [Instr.wf, Instr.unit] at h ⊢; try omega

/-- MARK_FAILOVER. -/
theorem Shape.markFailover (port : Nat) (crcOk : Bool) :
    Shape.Statement (.markFailover port crcOk) := by
  intro h; simp [Instr.wf, Instr.unit] at h ⊢; try omega

/-- TIME_NOTE. -/
theorem Shape.timeNote (port : Nat) (civil : BitVec 96) (crcOk : Bool) :
    Shape.Statement (.timeNote port civil crcOk) := by
  intro h; simp [Instr.wf, Instr.unit] at h ⊢; try omega

/-- STATUS. -/
theorem Shape.status (port : Nat) (crcOk : Bool) :
    Shape.Statement (.status port crcOk) := by
  intro h; simp [Instr.wf, Instr.unit] at h ⊢; try omega

/-- MAILBOX_BUFFER_WRITE. -/
theorem Shape.mailboxBufferWrite (m : Nat) (off : Nat) (bytes : List (Option Nat)) (poisoned : Bool) :
    Shape.Statement (.mailboxBufferWrite m off bytes poisoned) := by
  intro h; simp [Instr.wf, Instr.unit] at h ⊢; try omega

/-- MAILBOX_GO. -/
theorem Shape.mailboxGo (m : Nat) (same : Bool) :
    Shape.Statement (.mailboxGo m same) := by
  intro h; simp [Instr.wf, Instr.unit] at h ⊢; try omega

/-- MAILBOX_ACK. -/
theorem Shape.mailboxAck (m : Nat) :
    Shape.Statement (.mailboxAck m) := by
  intro h; simp [Instr.wf, Instr.unit] at h ⊢; try omega

/-- COMMAND_TAKE. -/
theorem Shape.commandTake (faults : Nat) :
    Shape.Statement (.commandTake faults) := by
  intro h; simp [Instr.wf, Instr.unit] at h ⊢; try omega

/-- JOURNAL_COMPACTION_END. -/
theorem Shape.journalCompactionEnd :
    Shape.Statement (.journalCompactionEnd) := by
  intro h; simp [Instr.wf, Instr.unit] at h ⊢; try omega

/-- SMBUS_STATUS_READ. -/
theorem Shape.smbusStatusRead :
    Shape.Statement (.smbusStatusRead) := by
  intro h; simp [Instr.wf, Instr.unit] at h ⊢; try omega

/-- SMBUS_SET_OFFSET. -/
theorem Shape.smbusSetOffset (off : Nat) (pecOk : Bool) :
    Shape.Statement (.smbusSetOffset off pecOk) := by
  intro h; simp [Instr.wf, Instr.unit] at h ⊢; try omega

/-- SMBUS_BLOCK_WRITE. -/
theorem Shape.smbusBlockWrite (bytes : List Nat) (pecOk : Bool) :
    Shape.Statement (.smbusBlockWrite bytes pecOk) := by
  intro h; simp [Instr.wf, Instr.unit] at h ⊢; try omega

/-- SMBUS_BLOCK_READ. -/
theorem Shape.smbusBlockRead (n : Nat) :
    Shape.Statement (.smbusBlockRead n) := by
  intro h; simp [Instr.wf, Instr.unit] at h ⊢; try omega

/-- SMBUS_GO. -/
theorem Shape.smbusGo (same : Bool) (pecOk : Bool) :
    Shape.Statement (.smbusGo same pecOk) := by
  intro h; simp [Instr.wf, Instr.unit] at h ⊢; try omega

/-- SMBUS_ACK. -/
theorem Shape.smbusAck (pecOk : Bool) :
    Shape.Statement (.smbusAck pecOk) := by
  intro h; simp [Instr.wf, Instr.unit] at h ⊢; try omega

/-- SMBUS_ALERT_RESPONSE. -/
theorem Shape.smbusAlertResponse :
    Shape.Statement (.smbusAlertResponse) := by
  intro h; simp [Instr.wf, Instr.unit] at h ⊢; try omega

/-- ID_GET. -/
theorem Shape.idGet (m : Nat) :
    Shape.Statement (.idGet m) := by
  intro h; simp [Instr.wf, Instr.unit] at h ⊢; try omega

/-- ID_AGENTS. -/
theorem Shape.idAgents (m : Nat) :
    Shape.Statement (.idAgents m) := by
  intro h; simp [Instr.wf, Instr.unit] at h ⊢; try omega

/-- CFG_STAGE. -/
theorem Shape.cfgStage (m : Nat) :
    Shape.Statement (.cfgStage m) := by
  intro h; simp [Instr.wf, Instr.unit] at h ⊢; try omega

/-- CFG_READ. -/
theorem Shape.cfgRead (m : Nat) :
    Shape.Statement (.cfgRead m) := by
  intro h; simp [Instr.wf, Instr.unit] at h ⊢; try omega

/-- CFG_DISCARD. -/
theorem Shape.cfgDiscard (m : Nat) :
    Shape.Statement (.cfgDiscard m) := by
  intro h; simp [Instr.wf, Instr.unit] at h ⊢; try omega

/-- CFG_CHECK. -/
theorem Shape.cfgCheck (m : Nat) :
    Shape.Statement (.cfgCheck m) := by
  intro h; simp [Instr.wf, Instr.unit] at h ⊢; try omega

/-- CFG_DIGEST. -/
theorem Shape.cfgDigest (m : Nat) :
    Shape.Statement (.cfgDigest m) := by
  intro h; simp [Instr.wf, Instr.unit] at h ⊢; try omega

/-- EPOCH_STATUS. -/
theorem Shape.epochStatus (m : Nat) :
    Shape.Statement (.epochStatus m) := by
  intro h; simp [Instr.wf, Instr.unit] at h ⊢; try omega

/-- REGION_LOOKUP. -/
theorem Shape.regionLookup (m : Nat) :
    Shape.Statement (.regionLookup m) := by
  intro h; simp [Instr.wf, Instr.unit] at h ⊢; try omega

/-- REGION_READ. -/
theorem Shape.regionRead (m : Nat) :
    Shape.Statement (.regionRead m) := by
  intro h; simp [Instr.wf, Instr.unit] at h ⊢; try omega

/-- TENANT_READ. -/
theorem Shape.tenantRead (m : Nat) :
    Shape.Statement (.tenantRead m) := by
  intro h; simp [Instr.wf, Instr.unit] at h ⊢; try omega

/-- CACHE_LOCK. -/
theorem Shape.cacheLock (m : Nat) :
    Shape.Statement (.cacheLock m) := by
  intro h; simp [Instr.wf, Instr.unit] at h ⊢; try omega

/-- CACHE_UNLOCK. -/
theorem Shape.cacheUnlock (m : Nat) :
    Shape.Statement (.cacheUnlock m) := by
  intro h; simp [Instr.wf, Instr.unit] at h ⊢; try omega

/-- CACHE_STATUS. -/
theorem Shape.cacheStatus (m : Nat) :
    Shape.Statement (.cacheStatus m) := by
  intro h; simp [Instr.wf, Instr.unit] at h ⊢; try omega

/-- CACHE_TAG_READ. -/
theorem Shape.cacheTagRead (m : Nat) :
    Shape.Statement (.cacheTagRead m) := by
  intro h; simp [Instr.wf, Instr.unit] at h ⊢; try omega

/-- HARROW_SUBMIT. -/
theorem Shape.harrowSubmit (m : Nat) :
    Shape.Statement (.harrowSubmit m) := by
  intro h; simp [Instr.wf, Instr.unit] at h ⊢; try omega

/-- HARROW_QUERY. -/
theorem Shape.harrowQuery (m : Nat) :
    Shape.Statement (.harrowQuery m) := by
  intro h; simp [Instr.wf, Instr.unit] at h ⊢; try omega

/-- HARROW_REAP. -/
theorem Shape.harrowReap (m : Nat) :
    Shape.Statement (.harrowReap m) := by
  intro h; simp [Instr.wf, Instr.unit] at h ⊢; try omega

/-- HARROW_ABORT. -/
theorem Shape.harrowAbort (m : Nat) :
    Shape.Statement (.harrowAbort m) := by
  intro h; simp [Instr.wf, Instr.unit] at h ⊢; try omega

/-- CE_READ. -/
theorem Shape.ceRead (m : Nat) :
    Shape.Statement (.ceRead m) := by
  intro h; simp [Instr.wf, Instr.unit] at h ⊢; try omega

/-- CE_CLEAR. -/
theorem Shape.ceClear (m : Nat) :
    Shape.Statement (.ceClear m) := by
  intro h; simp [Instr.wf, Instr.unit] at h ⊢; try omega

/-- ELOG_READ. -/
theorem Shape.elogRead (m : Nat) :
    Shape.Statement (.elogRead m) := by
  intro h; simp [Instr.wf, Instr.unit] at h ⊢; try omega

/-- TAINT_CLEAR. -/
theorem Shape.taintClear (m : Nat) :
    Shape.Statement (.taintClear m) := by
  intro h; simp [Instr.wf, Instr.unit] at h ⊢; try omega

/-- ZMAP_WRITE. -/
theorem Shape.zmapWrite (m : Nat) :
    Shape.Statement (.zmapWrite m) := by
  intro h; simp [Instr.wf, Instr.unit] at h ⊢; try omega

/-- TAGLOST_CLEAR. -/
theorem Shape.taglostClear (m : Nat) :
    Shape.Statement (.taglostClear m) := by
  intro h; simp [Instr.wf, Instr.unit] at h ⊢; try omega

/-- REPAIR_LIST. -/
theorem Shape.repairList (m : Nat) :
    Shape.Statement (.repairList m) := by
  intro h; simp [Instr.wf, Instr.unit] at h ⊢; try omega

/-- REPAIR_NOMINATE. -/
theorem Shape.repairNominate (m : Nat) :
    Shape.Statement (.repairNominate m) := by
  intro h; simp [Instr.wf, Instr.unit] at h ⊢; try omega

/-- TWIN_STAGE. -/
theorem Shape.twinStage (m : Nat) :
    Shape.Statement (.twinStage m) := by
  intro h; simp [Instr.wf, Instr.unit] at h ⊢; try omega

/-- TWIN_STATUS. -/
theorem Shape.twinStatus (m : Nat) :
    Shape.Statement (.twinStatus m) := by
  intro h; simp [Instr.wf, Instr.unit] at h ⊢; try omega

/-- TWIN_WITNESS. -/
theorem Shape.twinWitness (m : Nat) (up : Bool) (down : Bool) :
    Shape.Statement (.twinWitness m up down) := by
  intro h; simp [Instr.wf, Instr.unit] at h ⊢; try omega

/-- TWIN_TAKEOVER. -/
theorem Shape.twinTakeover (m : Nat) :
    Shape.Statement (.twinTakeover m) := by
  intro h; simp [Instr.wf, Instr.unit] at h ⊢; try omega

/-- TWIN_REJOIN. -/
theorem Shape.twinRejoin (m : Nat) :
    Shape.Statement (.twinRejoin m) := by
  intro h; simp [Instr.wf, Instr.unit] at h ⊢; try omega

/-- IRQ_ROUTE. -/
theorem Shape.irqRoute (m : Nat) :
    Shape.Statement (.irqRoute m) := by
  intro h; simp [Instr.wf, Instr.unit] at h ⊢; try omega

/-- IRQ_COALESCE. -/
theorem Shape.irqCoalesce (m : Nat) :
    Shape.Statement (.irqCoalesce m) := by
  intro h; simp [Instr.wf, Instr.unit] at h ⊢; try omega

/-- IRQ_OASIS. -/
theorem Shape.irqOasis (m : Nat) :
    Shape.Statement (.irqOasis m) := by
  intro h; simp [Instr.wf, Instr.unit] at h ⊢; try omega

/-- IRQ_READ. -/
theorem Shape.irqRead (m : Nat) :
    Shape.Statement (.irqRead m) := by
  intro h; simp [Instr.wf, Instr.unit] at h ⊢; try omega

/-- METER_ID. -/
theorem Shape.meterId (m : Nat) (portFails : Nat) :
    Shape.Statement (.meterId m portFails) := by
  intro h; simp [Instr.wf, Instr.unit] at h ⊢; try omega

/-- METER_INTERVALS. -/
theorem Shape.meterIntervals (m : Nat) (portFails : Nat) :
    Shape.Statement (.meterIntervals m portFails) := by
  intro h; simp [Instr.wf, Instr.unit] at h ⊢; try omega

/-- METER_CUMULATIVE. -/
theorem Shape.meterCumulative (m : Nat) (portFails : Nat) :
    Shape.Statement (.meterCumulative m portFails) := by
  intro h; simp [Instr.wf, Instr.unit] at h ⊢; try omega

/-- METER_AUDIT. -/
theorem Shape.meterAudit (m : Nat) (portFails : Nat) :
    Shape.Statement (.meterAudit m portFails) := by
  intro h; simp [Instr.wf, Instr.unit] at h ⊢; try omega

/-- METER_STATUS. -/
theorem Shape.meterStatus (m : Nat) (portFails : Nat) :
    Shape.Statement (.meterStatus m portFails) := by
  intro h; simp [Instr.wf, Instr.unit] at h ⊢; try omega

/-- METER_TIME_NOTE. -/
theorem Shape.meterTimeNote (m : Nat) (portFails : Nat) :
    Shape.Statement (.meterTimeNote m portFails) := by
  intro h; simp [Instr.wf, Instr.unit] at h ⊢; try omega

/-- METER_CLOSE_SHORT. -/
theorem Shape.meterCloseShort (m : Nat) (portFails : Nat) :
    Shape.Statement (.meterCloseShort m portFails) := by
  intro h; simp [Instr.wf, Instr.unit] at h ⊢; try omega

/-- METER_MARK_FAILOVER. -/
theorem Shape.meterMarkFailover (m : Nat) (portFails : Nat) :
    Shape.Statement (.meterMarkFailover m portFails) := by
  intro h; simp [Instr.wf, Instr.unit] at h ⊢; try omega

/-- FW_WRITE. -/
theorem Shape.fwWrite (m : Nat) (spi : Nat) :
    Shape.Statement (.fwWrite m spi) := by
  intro h; simp [Instr.wf, Instr.unit] at h ⊢; try omega

/-- FW_VERIFY. -/
theorem Shape.fwVerify (m : Nat) :
    Shape.Statement (.fwVerify m) := by
  intro h; simp [Instr.wf, Instr.unit] at h ⊢; try omega

/-- FW_ACTIVATE. -/
theorem Shape.fwActivate (m : Nat) :
    Shape.Statement (.fwActivate m) := by
  intro h; simp [Instr.wf, Instr.unit] at h ⊢; try omega

/-- FW_ROLLBACK_COMMIT. -/
theorem Shape.fwRollbackCommit (m : Nat) :
    Shape.Statement (.fwRollbackCommit m) := by
  intro h; simp [Instr.wf, Instr.unit] at h ⊢; try omega

/-- FW_STATUS. -/
theorem Shape.fwStatus (m : Nat) :
    Shape.Statement (.fwStatus m) := by
  intro h; simp [Instr.wf, Instr.unit] at h ⊢; try omega

/-- DEVICE_RESET. -/
theorem Shape.deviceReset (m : Nat) :
    Shape.Statement (.deviceReset m) := by
  intro h; simp [Instr.wf, Instr.unit] at h ⊢; try omega

/-- DEVICE_STOP. -/
theorem Shape.deviceStop (m : Nat) :
    Shape.Statement (.deviceStop m) := by
  intro h; simp [Instr.wf, Instr.unit] at h ⊢; try omega

/-- JOURNAL_READ. -/
theorem Shape.journalRead (m : Nat) :
    Shape.Statement (.journalRead m) := by
  intro h; simp [Instr.wf, Instr.unit] at h ⊢; try omega

/-- JOURNAL_COMPACT. -/
theorem Shape.journalCompact (m : Nat) :
    Shape.Statement (.journalCompact m) := by
  intro h; simp [Instr.wf, Instr.unit] at h ⊢; try omega

/-- PORT_RESET. -/
theorem Shape.portReset (m : Nat) :
    Shape.Statement (.portReset m) := by
  intro h; simp [Instr.wf, Instr.unit] at h ⊢; try omega

/-- SPD_READ. -/
theorem Shape.spdRead (m : Nat) :
    Shape.Statement (.spdRead m) := by
  intro h; simp [Instr.wf, Instr.unit] at h ⊢; try omega

/-- SENSOR_READ. -/
theorem Shape.sensorRead (m : Nat) :
    Shape.Statement (.sensorRead m) := by
  intro h; simp [Instr.wf, Instr.unit] at h ⊢; try omega

/-- EVENT_ARRIVAL. -/
theorem Shape.eventArrival :
    Shape.Statement (.eventArrival) := by
  intro h; simp [Instr.wf, Instr.unit] at h ⊢; try omega

/-- COALESCING_TIMER_EXPIRY. -/
theorem Shape.coalescingTimerExpiry (t : Nat) :
    Shape.Statement (.coalescingTimerExpiry t) := by
  intro h; simp [Instr.wf, Instr.unit] at h ⊢; try omega

/-- VECTOR_CLAIM. -/
theorem Shape.vectorClaim (v : Nat) :
    Shape.Statement (.vectorClaim v) := by
  intro h; simp [Instr.wf, Instr.unit] at h ⊢; try omega

/-- CAUSE_READ. -/
theorem Shape.causeRead (v : Nat) :
    Shape.Statement (.causeRead v) := by
  intro h; simp [Instr.wf, Instr.unit] at h ⊢; try omega

/-- SOURCE_MASK_WRITE. -/
theorem Shape.sourceMaskWrite (n : Nat) (mask : Bool) (late : Bool) :
    Shape.Statement (.sourceMaskWrite n mask late) := by
  intro h; simp [Instr.wf, Instr.unit] at h ⊢; try omega

/-- AGENT_TARGET_DELIVERY. -/
theorem Shape.agentTargetDelivery (a : Nat) :
    Shape.Statement (.agentTargetDelivery a) := by
  intro h; simp [Instr.wf, Instr.unit] at h ⊢; try omega

/-- OASIS_EVENT. -/
theorem Shape.oasisEvent :
    Shape.Statement (.oasisEvent) := by
  intro h; simp [Instr.wf, Instr.unit] at h ⊢; try omega

/-- OASIS_WAKE_POWERUP_END. -/
theorem Shape.oasisWakePowerupEnd :
    Shape.Statement (.oasisWakePowerupEnd) := by
  intro h; simp [Instr.wf, Instr.unit] at h ⊢; try omega

/-- OASIS_HANDOVER. -/
theorem Shape.oasisHandover :
    Shape.Statement (.oasisHandover) := by
  intro h; simp [Instr.wf, Instr.unit] at h ⊢; try omega

/-- REGISTER_WRITE. -/
theorem Shape.registerWrite (off : Nat) (bytes : List (Option Nat)) (poisoned : Bool) :
    Shape.Statement (.registerWrite off bytes poisoned) := by
  intro h; simp [Instr.wf, Instr.unit] at h ⊢; try omega

/-- PCR_TIME_L_READ. -/
theorem Shape.pcrTimeLRead :
    Shape.Statement (.pcrTimeLRead) := by
  intro h; simp [Instr.wf, Instr.unit] at h ⊢; try omega

/-- SHADOW_CAPTURE. -/
theorem Shape.shadowCapture :
    Shape.Statement (.shadowCapture) := by
  intro h; simp [Instr.wf, Instr.unit] at h ⊢; try omega

/-- PCI_CONFIG_WRITE. -/
theorem Shape.pciConfigWrite (w : PciWrite) :
    Shape.Statement (.pciConfigWrite w) := by
  intro h; simp [Instr.wf, Instr.unit] at h ⊢; try omega

/-- MSIX_TABLE_WRITE. -/
theorem Shape.msixTableWrite (off : Nat) (bytes : List (Option Nat)) :
    Shape.Statement (.msixTableWrite off bytes) := by
  intro h; simp [Instr.wf, Instr.unit] at h ⊢; try omega

/-- PME_SERVICE_TIMEOUT. -/
theorem Shape.pmeServiceTimeout :
    Shape.Statement (.pmeServiceTimeout) := by
  intro h; simp [Instr.wf, Instr.unit] at h ⊢; try omega

/-- WEIGHBRIDGE_POWER_LOSS. -/
theorem Shape.weighbridgePowerLoss :
    Shape.Statement (.weighbridgePowerLoss) := by
  intro h; simp [Instr.wf, Instr.unit] at h ⊢; try omega

/-- RAIL_BACK_IN_RANGE. -/
theorem Shape.railBackInRange (rail : Nat) :
    Shape.Statement (.railBackInRange rail) := by
  intro h; simp [Instr.wf, Instr.unit] at h ⊢; try omega

/-- SYS_CLK_RETURN. -/
theorem Shape.sysClkReturn :
    Shape.Statement (.sysClkReturn) := by
  intro h; simp [Instr.wf, Instr.unit] at h ⊢; try omega

/-- REFCLK_RETURN. -/
theorem Shape.refclkReturn :
    Shape.Statement (.refclkReturn) := by
  intro h; simp [Instr.wf, Instr.unit] at h ⊢; try omega

/-- JTAG_DEVICE_RESET. -/
theorem Shape.jtagDeviceReset :
    Shape.Statement (.jtagDeviceReset) := by
  intro h; simp [Instr.wf, Instr.unit] at h ⊢; try omega

/-- SMBUS_CLOCK_LOW_TIMEOUT. -/
theorem Shape.smbusClockLowTimeout :
    Shape.Statement (.smbusClockLowTimeout) := by
  intro h; simp [Instr.wf, Instr.unit] at h ⊢; try omega

/-- WRITE_DRAIN. -/
theorem Shape.writeDrain (ddr : Bool) (ch : Nat) :
    Shape.Statement (.writeDrain ddr ch) := by
  intro h; simp [Instr.wf, Instr.unit] at h ⊢; try omega

end Sys2Proof.Laws
end

