-- ==== Sys2Proof/Tests/Slice0.lean ====
section
/-! SUPPORT. The model's own tests: a well-formedness smoke test, single steps, and for every statement that has
hypotheses a state and operands that meet them, clause by clause. -/
set_option Elab.async false
namespace Sys2Proof.Tests
open Sys2Proof Sys2Proof.Machine

/-- The device after start-up: every domain has power, the Steward runs, requests are admitted. -/
def sUp : State :=
  let r := State.reset
  let p : Pcr := { r.pcr with
    porst := false
    startup := 9
    pd := 0xFFFFFFFF }
  let w : Stw := { r.stw with up := true }
  let f : Fabric := { r.fab with
    draining := false
    accepting := true }
  let i : Pci := { r.pci with
    memSpace := true
    busMaster := true
    msixEn := true }
  { r with
    pcr := p
    stw := w
    fab := f
    pci := i }

/-- `sUp` with its Steward, configuration, fabric and so on changed. -/
def onStw (s : State) (g : Stw → Stw) : State := { s with stw := g s.stw }
def onFab (s : State) (g : Fabric → Fabric) : State := { s with fab := g s.fab }
def onPcr (s : State) (g : Pcr → Pcr) : State := { s with pcr := g s.pcr }
def onPci (s : State) (g : Pci → Pci) : State := { s with pci := g s.pci }
def onIrq (s : State) (g : Irq → Irq) : State := { s with irq := g s.irq }
def onWgb (s : State) (g : Wgb → Wgb) : State := { s with wgb := g s.wgb }
def onCfg (s : State) (g : Cfg → Cfg) : State := { s with cfg := g s.cfg }
def onBring (s : State) (g : Bring → Bring) : State := onPcr s (fun p => { p with bring := g p.bring })
def onTwin (s : State) (g : Twin → Twin) : State := onFab s (fun f => { f with twin := g f.twin })

/-- Mailbox `m` of a state holds a taken command. -/
def put (s : State) (m op : Nat) (pay : List Nat) : State :=
  let hdr := leBytes op 2 ++ [0x34, 0x12] ++ leBytes pay.length 4
  let b : Mbox := { (Mbox.init.put 0 ((hdr ++ pay).map some)) with
    st := .busy
    phase := .taken
    tag := 0x1234 }
  onStw s (fun w => { w with
    mbox := vset w.mbox m b
    sq := if cmdKind op = some .s then [m] else w.sq
    uq := if cmdKind op = some .u then [m] else w.uq })

/-- `sUp` with a taken command. -/
def sCmd (m op : Nat) (pay : List Nat) : State := put sUp m op pay

/-- `sUp` with region 0 WB over the first 4,096 pages, region 1 UCN and region 2 DEV over the next ones, and the
cache enabled. -/
def sRgn : State :=
  onCfg sUp (fun c => { c with
    tag := Vector.replicate 8 0x00140071
    rgn := vset (vset (vset c.rgn 0 ⟨0x1021, 0, 0, 0xFFF, 0, 0⟩) 1 ⟨7, 0x1000, 0, 0x1FFF, 0, 0x1000⟩) 2
      ⟨9, 0x2000, 0, 0x2FFF, 0, 0x2000⟩ })

/-- The event `e` is under way. -/
def raised (s : State) (e : Nat × Nat) : State := onFab s (fun f => { f with raised := [e] })

/-- Source `n` of a state changed. -/
def src (s : State) (n : Nat) (x : Src) : State := onIrq s (fun q => { q with src := vset q.src n x })

/-- The link of agent `a` changed. -/
def link (s : State) (a : Nat) (g : Link → Link) : State := onFab s (fun f => f.setLink a (g (f.link a)))

/-- An Active link of an admitted agent with every credit. -/
def active (l : Link) : Link := { l with
  st := .active
  decl := some 0
  credit := Vector.replicate 8 100 }

/-- A queued Harrow descriptor. -/
def desc0 : Desc :=
  { ticket := 5, queue := 1, raw := 0, running := false, stop := 0, pos := 0, wpos := 0, mpos := 0, marked := 0,
    nextK := 0, flight := [], reads := [], wq := [], locked := [], notLocked := 0, lockedCnt := 0, result := 0,
    poisoned := 0, transient := 0, progress := 0, status := 0, recording := false, mirror := false,
    partnerDone := false, ending := false, marks := [], rescan := false, gate := none, owed := none }

/-- A snoop sent to agent 1. -/
def sn0 : Snoop := ⟨1, .snpInv, false, false, 0, 0, none, none, false⟩

/-- A tracker of slice 0 that serves a read of agent 0. -/
def txn0 : Txn :=
  { slice := 0, idx := 3, seq := 1, who := .agent 0 none, op := .req .rdShared, hdr := 0, la := 0, rgn := none,
    data := 0, be := 0, pois := false, opnd := 0, blk := false, todo := [], side := [], snoops := [], got := none,
    asked := false, tagr := .unknown, tagStage := 0, noalloc := false, allocating := false, spec := none,
    mapAsked := false, wd := 0, wbe := 0, wpo := false, wend := false, txids := [], errSeen := false,
    pfHit := false, dead := false, result := .ok, value := 0, grant := .s, servePois := false, ackIn := false,
    ackDue := false, gate := none, fwd := false, dup := false, retried := false, bankAt := 0 }

/-- A request waiting at the arbiter of slice 0. -/
def arr0 : Arr := ⟨0, 1, 0, 0, .agent 0 none, .req .rdShared, 0x01, 0, 0, 0, false, 0, []⟩

/-- A queued read of word 5. -/
def rq0 : MemReq := ⟨5, false, 0, false, false, false, 0, 0, false, .none⟩

/-- An item of an ordering unit. -/
def item0 : OItem := ⟨0, .entry, .wrPartial, 0x06, 0, 0xAB, 1, false, 0, 0, [7], .wb, [], true, false, false⟩

/-- What a partner's hello says that agrees with `s`. -/
def greet (s : State) : Hello := { s.ownHello with uid := 7, strap := true }

/-- A log record of source 2. -/
def rec0 : TRec := ⟨8, 2, 0, 5, 0, 0, 0, none, none, none⟩

/-- A queued prefetch. -/
def pf0 : Pf := ⟨1, 64, 3, false, false, false, none, false⟩

/-- A repair candidate passed to the Steward. -/
def rep0 : Repair := ⟨2, 9, 9, 10, 0, 0⟩

/-- The fabric fields that tests set. -/
def onHrw (s : State) (g : Harrow → Harrow) : State := onFab s (fun f => { f with hrw := g f.hrw })
def onGln (s : State) (g : Gln → Gln) : State := onFab s (fun f => { f with gln := g f.gln })
def onMem (s : State) (g : Mem → Mem) : State := onFab s (fun f => { f with mem := g f.mem })
def onGran (s : State) (g : Granary → Granary) : State := onFab s (fun f => { f with gran := g f.gran })
def onPfu (s : State) (g : Pfu → Pfu) : State := onFab s (fun f => { f with pfu := g f.pfu })

/-- `sUp` with a Weighbridge that has power and measures. -/
def sWgb : State := onWgb sUp (fun w => { w with powered := true, tcxoOk := true, len := 900, audit := [] })

/-- `sUp` with the twin unit on and its link Active. -/
def sTwin : State :=
  let c : Cfg := { sUp.cfg with twn := 1 }
  { onFab sUp (fun f => { f with tlink := active f.tlink }) with cfg := c }

/-! ## Well-formedness -/

def dimms0 : DimmIn := ⟨[], [], []⟩
def wellFormed0 : List Instr :=
  [.codewordPairReceived 0 0 0 0 [], .replayTimeout 0, .laneDetect 0 0, .pollingComplete 0, .pollingTimeout 0,
    .configureTimeout 0, .declareTimeout 0, .recoveryComplete 0, .recoveryTimeout 0 0, .linkBuffersEmpty 0,
    .agentDeclaration 0 0 none, .rdshared 0 (BitVec.ofNat 128 Op.rdShared.code) false,
    .rdown 0 (BitVec.ofNat 128 Op.rdOwn.code) false, .rdonce 0 (BitVec.ofNat 128 Op.rdOnce.code) false,
    .upgrade 0 (BitVec.ofNat 128 Op.upgrade.code) false, .wrinvfull 0 (BitVec.ofNat 128 Op.wrInvFull.code) 0 false,
    .wrpartial 0 (BitVec.ofNat 128 Op.wrPartial.code) 0 0 false,
    .rduncached 0 (BitVec.ofNat 128 Op.rdUncached.code) false,
    .wruncached 0 (BitVec.ofNat 128 Op.wrUncached.code) 0 false, .ldresv 0 (BitVec.ofNat 128 Op.ldResv.code) false]
def wellFormed1 : List Instr :=
  [.stcond 0 (BitVec.ofNat 128 Op.stCond.code) 0 false, .atomic 0 (BitVec.ofNat 128 Op.atomic.code) 0 false,
    .cbar 0 (BitVec.ofNat 128 Op.cBar.code) false, .resvclear 0 (BitVec.ofNat 128 Op.resvClear.code) false,
    .svcreq 0 (BitVec.ofNat 128 Op.svcReq.code) 0 false, .wbdirty 0 (BitVec.ofNat 128 Op.wbDirty.code) 0 false,
    .wbowned 0 (BitVec.ofNat 128 Op.wbOwned.code) 0 false,
    .evictclean 0 (BitVec.ofNat 128 Op.evictClean.code) false, .compack 0 (BitVec.ofNat 128 Op.compAck.code),
    .rspi 0 (BitVec.ofNat 128 Op.rspI.code), .rsps 0 (BitVec.ofNat 128 Op.rspS.code),
    .rspfwd 0 (BitVec.ofNat 128 Op.rspFwd.code), .rspwbcrossed 0 (BitVec.ofNat 128 Op.rspWbCrossed.code),
    .datafwd 0 (BitVec.ofNat 128 Op.dataFwd.code) 0, .sliceArbitration 0 0 [], .holdExpiry 0 0,
    .snoopTimeout 0 0 0, .departureWalkRow 0, .displacementTimeout 0 0, .allocWaitExpiry 0 0]
def wellFormed2 : List Instr :=
  [.tagStoreReadReturn 0 0 0 ErrPat.none, .granaryReread 0 .entry 0 0 .good, .indexRebuildEnd 0,
    .qryAnswer 0 false none, .qryRequest 0, .rereadReturn (.hbm 0 ErrPat.none), .zeroMapWordReturn 0 0 ErrPat.none,
    .pageFillQueued 0 0, .orderedToken 0, .endPointNotice 0, .patrolReadIssue false 0, .epochApply 0,
    .drainSubstepEnd 0 [] false, .memoryBringupStepEnd false 0 [] [] dimms0, .railMonitor 0 false,
    .thermalReading 0 0 0 false, .logRecordReceive rec0, .logRecordApply 0, .twinAckReceive 0 0,
    .agentMapUpdate 0 0 0 0 0 false]
def wellFormed3 : List Instr :=
  [.tapFrameReceive 0 false false, .readId 0 0 false, .readParams 0 0 false, .readIntervals 0 0 0 0 0 false,
    .readCumulative 0 0 0 0 false, .readAudit 0 0 0 0 false, .selfTest 0 false false false, .setParams 0 0 false,
    .loadPatch 0 false [] false, .seal 0 false 0 0 0 false, .closeShort 0 false, .markFailover 0 false,
    .timeNote 0 0 false, .status 0 false, .mailboxBufferWrite 0 0 [] false, .mailboxGo 0 false, .mailboxAck 0,
    .commandTake 0, .smbusSetOffset 0 false, .smbusBlockWrite [0] false]
def wellFormed4 : List Instr :=
  [.smbusBlockRead 0, .idGet 0, .idAgents 0, .cfgStage 0, .cfgRead 0, .cfgDiscard 0, .cfgCheck 0, .cfgDigest 0,
    .epochStatus 0, .regionLookup 0, .regionRead 0, .tenantRead 0, .cacheLock 0, .cacheUnlock 0, .cacheStatus 0,
    .cacheTagRead 0, .harrowSubmit 0, .harrowQuery 0, .harrowReap 0, .harrowAbort 0]
def wellFormed5 : List Instr :=
  [.ceRead 0, .ceClear 0, .elogRead 0, .taintClear 0, .zmapWrite 0, .taglostClear 0, .repairList 0,
    .repairNominate 0, .twinStage 0, .twinStatus 0, .twinWitness 0 false false, .twinTakeover 0, .twinRejoin 0,
    .irqRoute 0, .irqCoalesce 0, .irqOasis 0, .irqRead 0, .meterId 0 0, .meterIntervals 0 0, .meterCumulative 0 0]
def wellFormed6 : List Instr :=
  [.meterAudit 0 0, .meterStatus 0 0, .meterTimeNote 0 0, .meterCloseShort 0 0, .meterMarkFailover 0 0,
    .fwWrite 0 0, .fwVerify 0, .fwActivate 0, .fwRollbackCommit 0, .fwStatus 0, .deviceReset 0, .deviceStop 0,
    .journalRead 0, .journalCompact 0, .portReset 0, .spdRead 0, .sensorRead 0, .coalescingTimerExpiry 0,
    .vectorClaim 0, .causeRead 0]
def wellFormed7 : List Instr :=
  [.sourceMaskWrite 0 false false, .agentTargetDelivery 0, .registerWrite 0 [] false, .msixTableWrite 0 [],
    .railBackInRange 0, .writeDrain false 0]
/-- One command that meets every check of its row, for each row that has a check. -/
def wellFormed : List (List Instr) :=
  [wellFormed0, wellFormed1, wellFormed2, wellFormed3, wellFormed4, wellFormed5, wellFormed6, wellFormed7]

def illFormed0 : List Instr :=
  [.codewordPairReceived 33 0 0 0 [], .replayTimeout 33, .laneDetect 33 0, .laneDetect 0 3, .pollingComplete 33,
    .pollingTimeout 33, .configureTimeout 33, .declareTimeout 33, .recoveryComplete 33, .recoveryTimeout 33 0,
    .linkBuffersEmpty 33, .agentDeclaration 32 0 none, .agentDeclaration 0 0 (some (32, 0)),
    .agentDeclaration 3 0 (some (3, 0)), .rdshared 32 (BitVec.ofNat 128 Op.rdShared.code) false,
    .rdshared 0 0x3F false, .rdown 32 (BitVec.ofNat 128 Op.rdOwn.code) false, .rdown 0 0x3F false,
    .rdonce 32 (BitVec.ofNat 128 Op.rdOnce.code) false, .rdonce 0 0x3F false]
def illFormed1 : List Instr :=
  [.upgrade 32 (BitVec.ofNat 128 Op.upgrade.code) false, .upgrade 0 0x3F false,
    .wrinvfull 32 (BitVec.ofNat 128 Op.wrInvFull.code) 0 false, .wrinvfull 0 0x3F 0 false,
    .wrpartial 32 (BitVec.ofNat 128 Op.wrPartial.code) 0 0 false, .wrpartial 0 0x3F 0 0 false,
    .rduncached 32 (BitVec.ofNat 128 Op.rdUncached.code) false, .rduncached 0 0x3F false,
    .wruncached 32 (BitVec.ofNat 128 Op.wrUncached.code) 0 false, .wruncached 0 0x3F 0 false,
    .ldresv 32 (BitVec.ofNat 128 Op.ldResv.code) false, .ldresv 0 0x3F false,
    .stcond 32 (BitVec.ofNat 128 Op.stCond.code) 0 false, .stcond 0 0x3F 0 false,
    .atomic 32 (BitVec.ofNat 128 Op.atomic.code) 0 false, .atomic 0 0x3F 0 false,
    .cbar 32 (BitVec.ofNat 128 Op.cBar.code) false, .cbar 0 0x3F false,
    .resvclear 32 (BitVec.ofNat 128 Op.resvClear.code) false, .resvclear 0 0x3F false]
def illFormed2 : List Instr :=
  [.svcreq 32 (BitVec.ofNat 128 Op.svcReq.code) 0 false, .svcreq 0 0x3F 0 false,
    .wbdirty 32 (BitVec.ofNat 128 Op.wbDirty.code) 0 false, .wbdirty 0 0x3F 0 false,
    .wbowned 32 (BitVec.ofNat 128 Op.wbOwned.code) 0 false, .wbowned 0 0x3F 0 false,
    .evictclean 32 (BitVec.ofNat 128 Op.evictClean.code) false, .evictclean 0 0x3F false,
    .compack 32 (BitVec.ofNat 128 Op.compAck.code), .compack 0 0x3F, .rspi 32 (BitVec.ofNat 128 Op.rspI.code),
    .rspi 0 0x3F, .rsps 32 (BitVec.ofNat 128 Op.rspS.code), .rsps 0 0x3F,
    .rspfwd 32 (BitVec.ofNat 128 Op.rspFwd.code), .rspfwd 0 0x3F,
    .rspwbcrossed 32 (BitVec.ofNat 128 Op.rspWbCrossed.code), .rspwbcrossed 0 0x3F,
    .datafwd 32 (BitVec.ofNat 128 Op.dataFwd.code) 0, .datafwd 0 0x3F 0]
def illFormed3 : List Instr :=
  [.sliceArbitration 8 0 [], .sliceArbitration 0 0 [4194304], .holdExpiry 0 32, .snoopTimeout 8 0 0,
    .snoopTimeout 0 4096 0, .snoopTimeout 0 0 32, .departureWalkRow 16, .displacementTimeout 8 0,
    .displacementTimeout 0 4096, .allocWaitExpiry 8 0, .allocWaitExpiry 0 4096,
    .tagStoreReadReturn 8 0 0 ErrPat.none, .tagStoreReadReturn 0 4096 0 ErrPat.none,
    .tagStoreReadReturn 0 0 10 ErrPat.none, .granaryReread 8 .entry 0 0 .good,
    .granaryReread 0 .entry (2 ^ 22) 0 .good, .granaryReread 0 .entry 0 (2 ^ 32) .good, .indexRebuildEnd 8,
    .qryAnswer (2 ^ 22) false none, .qryRequest (2 ^ 22)]
def illFormed4 : List Instr :=
  [.rereadReturn (.array 0 0 0 false 0 0 .data), .rereadReturn (.array 0xF 0 0 false 0 0 .data),
    .zeroMapWordReturn 8 0 ErrPat.none, .zeroMapWordReturn 0 4097 ErrPat.none, .pageFillQueued 8 0,
    .pageFillQueued 0 4096, .orderedToken 32, .endPointNotice 32, .patrolReadIssue false 8,
    .patrolReadIssue true 12, .epochApply 17, .drainSubstepEnd (2 ^ 16) [] false,
    .memoryBringupStepEnd false 0 [0, 0, 0, 0, 0] [] dimms0,
    .memoryBringupStepEnd false 0 [] (List.replicate 13 ⟨0, 0, 0, 0, 0⟩) dimms0,
    .memoryBringupStepEnd false 0 [] [] { dimms0 with spd := List.replicate 25 none }, .memoryBringupStepEnd false 0 [] [] { dimms0 with dimms := List.replicate 25 none },
    .memoryBringupStepEnd false 0 [] [] { dimms0 with spd := [some (List.replicate 1025 0)] }, .railMonitor 8 false,
    .thermalReading 5 0 0 false, .logRecordReceive { rec0 with src := 10 }, .logRecordApply 10]
def illFormed5 : List Instr :=
  [.twinAckReceive 10 0, .twinAckReceive 0 (2 ^ 24), .agentMapUpdate 0 32 0 0 0 false,
    .agentMapUpdate 0 0 16 0 0 false, .agentMapUpdate 0 0 0 15 0 false, .agentMapUpdate 0 0 0 0 17 false,
    .tapFrameReceive 18 false false, .readId 2 0 false, .readParams 2 0 false, .readIntervals 2 0 0 0 0 false,
    .readIntervals 0 256 0 0 0 false, .readIntervals 0 0 (2 ^ 32) 0 0 false, .readIntervals 0 0 0 (2 ^ 32) 0 false,
    .readCumulative 2 0 0 0 false, .readCumulative 0 (2 ^ 16) 0 0 false, .readCumulative 0 0 (2 ^ 16) 0 false,
    .readAudit 2 0 0 0 false, .readAudit 0 (2 ^ 32) 0 0 false, .readAudit 0 0 (2 ^ 16) 0 false,
    .selfTest 2 false false false]
def illFormed6 : List Instr :=
  [.setParams 2 0 false, .setParams 0 (2 ^ 16) false, .loadPatch 2 false [] false, .loadPatch 0 false [256] false,
    .seal 2 false 0 0 0 false, .closeShort 2 false, .markFailover 2 false, .timeNote 2 0 false, .status 2 false,
    .mailboxBufferWrite 16 0 [] false, .mailboxBufferWrite 0 (0x10000) [] false,
    .mailboxBufferWrite 0 0 [some 256] false, .mailboxGo 16 false, .mailboxAck 16, .commandTake 3,
    .smbusSetOffset (2 ^ 16) false, .smbusBlockWrite [] false, .smbusBlockWrite (List.replicate 256 0) false,
    .smbusBlockWrite [256] false, .smbusBlockRead 256]
def illFormed7 : List Instr :=
  [.idGet 17, .idAgents 17, .cfgStage 17, .cfgRead 17, .cfgDiscard 17, .cfgCheck 17, .cfgDigest 17,
    .epochStatus 17, .regionLookup 17, .regionRead 17, .tenantRead 17, .cacheLock 17, .cacheUnlock 17,
    .cacheStatus 17, .cacheTagRead 17, .harrowSubmit 17, .harrowQuery 17, .harrowReap 17, .harrowAbort 17,
    .ceRead 17]
def illFormed8 : List Instr :=
  [.ceClear 17, .elogRead 17, .taintClear 17, .zmapWrite 17, .taglostClear 17, .repairList 17, .repairNominate 17,
    .twinStage 17, .twinStatus 17, .twinWitness 17 false false, .twinTakeover 17, .twinRejoin 17, .irqRoute 17,
    .irqCoalesce 17, .irqOasis 17, .irqRead 17, .meterId 17 0, .meterId 0 3, .meterIntervals 17 0,
    .meterIntervals 0 3]
def illFormed9 : List Instr :=
  [.meterCumulative 17 0, .meterCumulative 0 3, .meterAudit 17 0, .meterAudit 0 3, .meterStatus 17 0,
    .meterStatus 0 3, .meterTimeNote 17 0, .meterTimeNote 0 3, .meterCloseShort 17 0, .meterCloseShort 0 3,
    .meterMarkFailover 17 0, .meterMarkFailover 0 3, .fwWrite 17 0, .fwWrite 0 3, .fwVerify 17, .fwActivate 17,
    .fwRollbackCommit 17, .fwStatus 17, .deviceReset 17, .deviceStop 17]
def illFormed10 : List Instr :=
  [.journalRead 17, .journalCompact 17, .portReset 17, .spdRead 17, .sensorRead 17, .coalescingTimerExpiry 96,
    .vectorClaim 64, .causeRead 64, .sourceMaskWrite 256 false false, .agentTargetDelivery 32,
    .registerWrite (2 ^ 26) [] false, .registerWrite 0 [some 256] false, .msixTableWrite (2 ^ 26) [],
    .msixTableWrite 0 [some 256], .railBackInRange 8, .writeDrain false 64, .writeDrain true 12]
/-- Each of them with one operand changed so that one check refuses it, for every check of every row. -/
def illFormed : List (List Instr) :=
  [illFormed0, illFormed1, illFormed2, illFormed3, illFormed4, illFormed5, illFormed6, illFormed7, illFormed8, illFormed9, illFormed10]

theorem test_wellFormed_accepted : wellFormed.all (fun l => l.all (fun c => c.wf)) = true := by decide +kernel

theorem test_illFormed_refused : illFormed.all (fun l => l.all (fun c => ! c.wf)) = true := by decide +kernel

/-! ## The spec's worked examples -/

/-- The line address of a byte address. -/
def lineAt (addr : Nat) : LAddr := BitVec.ofNat 46 (addr / 64)

/-- Home slices (chapter 1): 0x0040_0000_3040 is sub-block 1 of a sector of slice 7; chapter 13 gives it H = 1. -/
theorem test_home_of_first_example :
    sliceOf (lineAt 0x4000003040) = 7 ∧ subOf (lineAt 0x4000003040) = 1 ∧ parityH (lineAt 0x4000003040) = true := by
  decide +kernel

/-- Chapter 4: 0x0000_0012_3480 is sub-block 18 in slice 3, its neighbour sub-block 19, and 0x0000_A000_0100 sub-block
4 in slice 6. -/
theorem test_homes_of_chapter_4 :
    (sliceOf (lineAt 0x123480) = 3 ∧ subOf (lineAt 0x123480) = 18) ∧ subOf (lineAt 0x1234C0) = 19 ∧
      sliceOf (lineAt 0xA0000100) = 6 ∧ subOf (lineAt 0xA0000100) = 4 := by decide +kernel

/-- Chapter 5: caching slot 2, set 0x00C1, way 5 is LOC 0x08_0C15. -/
theorem test_granary_location : locNum 2 0xC1 5 = 0x80C15 := by decide +kernel

/-- Chapter 6: set 0x1C_0103, TAG 0x100; way 4's sub-block 1 at CA 0x11_80A2_2040 in channel 35, its tag entry at
0x14_2301_4440. -/
theorem test_sector_place :
    setOf (lineAt 0x4000003040) = 0x1C0103 ∧ tagOf (lineAt 0x4000003040) = 0x100 ∧
      subWord 0x1C0103 4 1 = 0x1180A22040 / 64 ∧ hbmChan (0x1180A22040 / 64) = 35 ∧
      tagWord 0x1C0103 4 = 0x1423014440 / 64 := by decide +kernel

/-- A page's address comes back from its set and tag. -/
theorem test_page_of_tag : pageOfTag 0x1C0103 0x100 = 0x4000003040 / 4096 := by decide +kernel

/-- Chapter 6: with Z = 8 GiB and W = 16 (COBER_SIZE 100b, COBER_WAYS 11b), m is 20, CSETX 0x70_00C1, CTAG 0x1000, the
tags at 0x15_F800_6080 and way 0 at 0x17_C003_0400. -/
def cober8 : Cfg := { Cfg.reset with tag := Vector.replicate 8 0x00140079 }
theorem test_cober_place :
    cober8.coberM = 20 ∧ cober8.csetx (lineAt 0x4000003040) = 0x7000C1 ∧ cober8.ctag (lineAt 0x4000003040) = 0x1000 ∧
      cober8.coberTagWord 0x7000C1 0 = 0x15F8006080 / 64 ∧ cober8.coberWord 0x7000C1 0 = 0x17C0030400 / 64 := by
  decide +kernel

/-- Chapter 10: the HBM word above has SID 2, PC 0, BG 1, BA 0, COL 1 and ROW 0xC05. -/
theorem test_hbm_place :
    hbmLoc (0x1180A22040 / 64) = 35 + 2 * 2 ^ 6 + 0 * 2 ^ 8 + 1 * 2 ^ 9 + 0 * 2 ^ 11 + 1 * 2 ^ 13 + 0xC05 * 2 ^ 17 := by
  decide +kernel

/-- Chapter 10: BASE page 0x40_0000_0 with BACK 0x10_0000 puts 0x0040_0000_3040 at B = 0x1_0000_3040, channel 7, local
page 87,381, LB 0x55_5541, SC 1, RNK 0, ROW 0x155, BG 5, BA 0, COL 84. -/
theorem test_ddr5_place :
    (RgnWords.region ⟨0x21, 0x4000000, 0, 0x4000FFF, 0, 0x100000⟩ 0).backLine (lineAt 0x4000003040) = 0x100003040 / 64 ∧
      ddrChan (0x100003040 / 64) = 7 ∧ localPage (0x100003040 / 64) = 87381 ∧ ddrLB (0x100003040 / 64) = 0x555541 ∧
      ddrPlace 1 0x555541 = ⟨1, 5, 0, 84, 0, 0x155⟩ := by decide +kernel

/-- Chapter 6: a set of slice 2 with RRPV 1, 3, 2, 2, 0, 1, 2, 0, 1, 2, way 1 locked and way 2 pinned by an open
transaction. -/
def tenWays : Fabric :=
  let k := 10 * 2 ^ 19
  let x := fun (r : Nat) => Sector.new 0 r 0
  { sUp.fab with
      cache := { sUp.fab.cache with sectors := [(k, x 1), (k + 1, { x 3 with lock := true }), (k + 2, Sector.new 5 2 0),
    (k + 3, x 2), (k + 4, x 0), (k + 5, x 1), (k + 6, x 2), (k + 7, x 0), (k + 8, x 1), (k + 9, x 2)] }
      txns := [{ txn0 with la := lineOfPage (pageOfTag (2 ^ 19) 5) 0 }] }

/-- With every way of the partition, way 3 is the victim and ageing gives 2, 3, 3, 3, 1, 2, 3, 1, 2, 3. -/
theorem test_victim_of_all_ways :
    (tenWays.victim (2 ^ 19) 0x3FF).1 = some 3 ∧
      (List.range 10).map (fun w => (tenWays.victim (2 ^ 19) 0x3FF).2.rrpvOf (10 * 2 ^ 19 + w)) =
        [2, 3, 3, 3, 1, 2, 3, 1, 2, 3] := by decide +kernel

/-- With WAYMASK 0x0F0, way 6 is the victim and only ways 4 to 7 age. -/
theorem test_victim_of_a_partition :
    (tenWays.victim (2 ^ 19) 0x0F0).1 = some 6 ∧
      (List.range 10).map (fun w => (tenWays.victim (2 ^ 19) 0x0F0).2.rrpvOf (10 * 2 ^ 19 + w)) =
        [1, 3, 2, 2, 1, 2, 3, 1, 1, 2] := by decide +kernel

/-! ## Single steps -/

/-- The state that a command leaves; a test of a stop would show as a failure. -/
def afterCmd (c : Instr) (s : State) : State :=
  match step { s with pending := [c] } with
  | .next t => t
  | _ => State.reset

/-- An idle step changes nothing. -/
theorem test_idle : step State.reset = .next State.reset := rfl

/-- R350: a pin that follows the pull-ups and pull-downs is open; one that reads high under both is high. -/
theorem test_witness :
    (afterCmd (.witnessTest true true) sTwin).fab.twin.witness = 2 ∧
      (afterCmd (.witnessTest false false) sTwin).fab.twin.witness = 1 ∧
      (afterCmd (.witnessTest true false) sTwin).fab.twin.witness = 0 := by decide +kernel

/-- R478: an event of a routed source counts, and its COUNT stays at 4,095. -/
theorem test_event_saturates :
    ((afterCmd .eventArrival (raised (src sUp 7 ⟨0x40, false, false, 4095⟩) (7, 0))).irq.source 7).count = 4095 ∧
      (afterCmd .eventArrival (raised (src sUp 7 ⟨0x40, false, false, 4095⟩) (7, 0))).fab.raised = [] := by decide +kernel

/-- R357: a record out of order takes the link to Recovery and is not logged. -/
theorem test_record_out_of_order :
    (afterCmd (.logRecordReceive { rec0 with lseq := 7 }) sTwin).fab.tlink.st = .recovery ∧
      (afterCmd (.logRecordReceive { rec0 with lseq := 7 }) sTwin).fab.twin.backlog = [] := by decide +kernel

/-- A command is taken from the front of the queue and the rest stays. -/
theorem test_fifo :
    step { sUp with pending := [.timeSyncSend, .perstAssert] } = exec .timeSyncSend { sUp with pending := [.perstAssert] } := rfl

/-- No row of the table has bits, so no word spells a command. -/
theorem test_no_word : decodeTableWord 16 0 = none ∧ State.reset.withFetchWord 16 0 = State.reset := ⟨rfl, rfl⟩

/-- Table 2.2: MARKER, then PAIR_CNT modulo 256. -/
theorem test_pair_header : pairHdr 300 = 0x2C5AC3 := by decide +kernel

/-! ## Helpers of the witnesses -/

theorem eq_some_getD {α : Type} (x : Option α) (d : α) (h : x.isSome = true) : x = some (x.getD d) := by
  cases x with
  | none => cases h
  | some v => rfl

theorem ne_succ (x : BitVec 384) : x ≠ x + 1 := by
  intro h
  have := congrArg BitVec.toNat h
  simp at this
  omega

theorem longJournal (l : List Nat) (h : l.length = 500000) :
    8192 < recCount (liveEntries [] [⟨1, 0x17, 0, l, false⟩]) := by
  simp [liveEntries, JEntry.live, JEntry.latest, recCount, JEntry.nrec, h]

theorem freeSlot_some (s : State) (p : Prop) (h : s.fab.gran.freeSlot.isSome = true) :
    p → ∃ k, s.fab.gran.freeSlot = some k := fun _ => Option.isSome_iff_exists.mp h

theorem optForall {α : Type} (x : Option α) (P : α → Prop) [DecidablePred P]
    (h : (match x with | some v => decide (P v) | none => true) = true) : ∀ l, x = some l → P l := by
  intro l e
  subst e
  exact of_decide_eq_true h


/-! ## The statements' hypotheses are met -/

namespace W01

def st1 : State := sCmd 0 0x101 []
def st2 : State := sCmd 15 0x102 []
def st3 : State := sCmd 1 0x205 []
def st4 : State := sCmd 1 0x206 []
def st5 : State := sCmd 1 0x207 []
def st6 : State := sCmd 1 0x403 []
def st7 : State := sCmd 1 0x702 []
def st8 : State := sCmd 16 0x804 []
def st9 : State := sCmd 1 0xA05 []
def st10 : State := sCmd 1 0xB03 []
def st11 : State := sCmd 1 0x301 [0xFF, 0xFF, 0xFF, 0xFF, 0xFF, 0xFF, 0x0F, 0]
def st12 : State := sCmd 1 0x302 [1, 63, 1, 0, 0, 0, 0, 0]
def st13 : State := sCmd 1 0x303 [255, 0, 0, 0, 1, 0, 0, 0]
def st14 : State := sCmd 1 0x404 [0xFF, 0xFF, 0x1F, 0, 9, 0, 0, 0]
def st15 : State := put (onCfg sUp (fun c => { c with tag := Vector.replicate 8 0x00140173 })) 1 0x404 [0, 0, 0, 0, 0, 1, 0, 0]
def st16 : State := sCmd 1 0x502 [0, 0, 0, 0, 0, 0, 0, 0]
def st17 : State := sCmd 1 0x601 [9, 0, 0, 0, 0, 0, 0, 0]
def st18 : State := sCmd 1 0x603 [0, 0, 0, 0, 0, 4, 0, 0]
def st19 : State := sCmd 1 0x607 [0, 0, 0, 0, 0xFF, 7, 0, 0]
def st20 : State := sCmd 1 0xA08 [1, 0, 0, 0, 0xFF, 1, 0, 0]
def st21 : State := put (onBring sUp (fun b => { b with spd := vset b.spd 23 (some [0x30, 0x11]) })) 1 0xB02 [11, 1, 0xFF, 3, 1, 0, 0, 0]
def op22 : List ℕ := [0x30, 0x11]
def st23 : State := sCmd 15 0x101 []
def st24 : State := onStw sUp (fun w => { w with mbox := vset w.mbox 0 { Mbox.init with st := .done } })
def op25 : List (Option ℕ) := [some 1, none, some 300, some 4]
def st26 : State := onStw (sCmd 16 0x201 [0, 0, 0, 0, 0, 0, 0, 0]) (fun w => { w with bells := [(3, 16)] })
def op27 : List (ℕ × ℕ) := []

/-- The hypotheses of the clauses of StepRunsTheFrontCommand are met. -/
theorem witness_StepRunsTheFrontCommand :
    (sUp.pending = []) :=
  by decide +kernel

/-- The hypotheses of the clauses of QueriesOnlyAnswer are met. -/
theorem witness_QueriesOnlyAnswer :
    (st1.serves 0 257 = true) ∧
    (st2.serves 15 258 = true) ∧
    (st3.serves 1 517 = true) ∧
    (st4.serves 1 518 = true) ∧
    (st5.serves 1 519 = true) ∧
    (st6.serves 1 1027 = true) ∧
    (st7.serves 1 1794 = true) ∧
    (st8.serves 16 2052 = true) :=
  ⟨by decide +kernel,
   by decide +kernel,
   by decide +kernel,
   by decide +kernel,
   by decide +kernel,
   by decide +kernel,
   by decide +kernel,
   by decide +kernel⟩

/-- The hypotheses of the clauses of QueriesOnlyAnswer are met. -/
theorem witness_QueriesOnlyAnswer_2 :
    (st9.serves 1 2565 = true) ∧
    (st10.serves 1 2819 = true) ∧
    (st11.serves 1 769 = true ∧ (st11.stw.mb 1).pay 0 8 < 2 ^ 52) ∧
    (st12.serves 1 770 = true ∧ (st12.stw.mb 1).clean [(3, 5)] = true ∧ (st12.stw.mb 1).pay 0 1 ≤ 1 ∧ (st12.stw.mb
      1).pay 1 1 + (st12.stw.mb 1).pay 2 1 ≤ 64 ∧ 1 ≤ (st12.stw.mb 1).pay 2 1) ∧
    (st13.serves 1 771 = true ∧ (st13.stw.mb 1).clean [(1, 3), (6, 2)] = true ∧ 1 ≤ (st13.stw.mb 1).pay 4 2 ∧
      (st13.stw.mb 1).pay 0 1 + (st13.stw.mb 1).pay 4 2 ≤ 256) ∧
    (st14.serves 1 1028 = true ∧ (st14.stw.mb 1).clean [(6, 2)] = true ∧ (st14.stw.mb 1).pay 5 1 = 0 ∧ (st14.stw.mb
      1).pay 0 4 < 2 ^ 21 ∧ (st14.stw.mb 1).pay 4 1 < 10) ∧
    (st15.serves 1 1028 = true ∧ (st15.stw.mb 1).clean [(6, 2)] = true ∧ (st15.stw.mb 1).pay 5 1 = 1 ∧
      st15.cfg.coberGib ≠ 0 ∧ (st15.stw.mb 1).pay 0 4 < 8 * 2 ^ st15.cfg.coberM ∧ (st15.stw.mb 1).pay 4 1 <
      st15.cfg.coberWays) ∧
    (st16.serves 1 1282 = true ∧ (st16.stw.mb 1).clean [(4, 4)] = true) :=
  ⟨by decide +kernel,
   by decide +kernel,
   by decide +kernel,
   by decide +kernel,
   by decide +kernel,
   by decide +kernel,
   by decide +kernel,
   by decide +kernel⟩

/-- The hypotheses of the clauses of QueriesOnlyAnswer are met. -/
theorem witness_QueriesOnlyAnswer_3 :
    (st17.serves 1 1537 = true ∧ (st17.stw.mb 1).clean [(1, 7)] = true ∧ (st17.stw.mb 1).pay 0 1 ≤ 9) ∧
    (st18.serves 1 1539 = true ∧ (st18.stw.mb 1).clean [(6, 2)] = true ∧ 1 ≤ (st18.stw.mb 1).pay 4 2 ∧ (st18.stw.mb
      1).pay 4 2 ≤ 1024) ∧
    (st19.serves 1 1543 = true ∧ (st19.stw.mb 1).clean [(6, 2)] = true ∧ 1 ≤ (st19.stw.mb 1).pay 4 2 ∧ (st19.stw.mb
      1).pay 4 2 ≤ 2047) ∧
    (st20.serves 1 2568 = true ∧ (st20.stw.mb 1).clean [(6, 2)] = true ∧ 1 ≤ (st20.stw.mb 1).pay 4 2 ∧ (st20.stw.mb
      1).pay 4 2 ≤ 511 ∧ (st20.stw.mb 1).pay 0 4 ≠ 0) ∧
    (st21.serves 1 2818 = true ∧ (st21.stw.mb 1).clean [(6, 2)] = true ∧ (st21.stw.mb 1).pay 0 1 ≤ 11 ∧ (st21.stw.mb
      1).pay 1 1 ≤ 1 ∧ vget st21.pcr.bring.spd none (2 * (st21.stw.mb 1).pay 0 1 + (st21.stw.mb 1).pay 1 1) = some
      op22 ∧ 1 ≤ (st21.stw.mb 1).pay 4 2 ∧ (st21.stw.mb 1).pay 2 2 + (st21.stw.mb 1).pay 4 2 ≤ 1024) :=
  ⟨by decide +kernel,
   by decide +kernel,
   by decide +kernel,
   by decide +kernel,
   by decide +kernel⟩

/-- The hypotheses of the clauses of DoorbellsMoveMailboxes are met. -/
theorem witness_DoorbellsMoveMailboxes :
    (sUp.mmio = true ∧ 15 < 16 ∧ (sUp.stw.mb 15).st = MbState.idle) ∧
    (st23.mmio = true ∧ 15 < 16 ∧ (st23.stw.mb 15).st ≠ MbState.idle) ∧
    (st24.mmio = true ∧ 0 < 16 ∧ (st24.stw.mb 0).st = MbState.done) ∧
    (sUp.mmio = true ∧ 0 < 16 ∧ (sUp.stw.mb 0).st ≠ MbState.done) ∧
    (sUp.mmio = true ∧ 15 < 16 ∧ 32764 < 65536 ∧ 32764 % 4 = 0 ∧ op25.length % 4 = 0 ∧ 4 ≤ op25.length ∧ 32764 % 64 +
      op25.length ≤ 64) :=
  ⟨by decide +kernel,
   by decide +kernel,
   by decide +kernel,
   by decide +kernel,
   by decide +kernel⟩

/-- The hypotheses of the clauses of TakenCommandsAreCheckedThenQueued are met. -/
theorem witness_TakenCommandsAreCheckedThenQueued :
    (st26.stw.up = true ∧ st26.stw.bells = (3, 16) :: op27 ∧ 16 < 17 ∧ (∀ x ∈ op27, x.2 ≠ 16) ∧ (st26.stw.mb
      16).discard = false) :=
  by decide +kernel

end W01

namespace W02

def st28 : State := onStw sUp (fun w => { w with smbOffset := 4095 })
def op29 : List ℕ := [300]
def st30 : State := onStw sUp (fun w => { w with smbOffset := 8191 })
def op31 : List ℕ := [1, 2]
def st32 : State := onStw (sCmd 16 0x101 []) (fun w => { w with smbOffset := 4095 })
def st33 : State := onStw sUp (fun w => { w with smbOffset := 8190 })
def st34 : State := onStw sUp (fun w => { w with mbox := vset w.mbox 16 { Mbox.init with st := .done } })
def st35 : State := src (raised sUp (255, 0)) 255 ⟨3, false, false, 4095⟩
def op36 : List (ℕ × ℕ) := []
def st37 : State := raised sUp (200, 1)
def st38 : State := src (raised sUp (200, 1)) 200 ⟨0x80, false, true, 7⟩
def st39 : State := src (raised sUp (200, 2)) 200 ⟨0x80, false, true, 7⟩
def st40 : State := onPcr (src (onIrq sUp (fun q => { q with coal := vset q.coal 95 ⟨9, 5, false, false, some 10⟩ })) 1 ⟨0x9F, false, false, 4⟩) (fun p => { p with aon := 15 })
def st41 : State := onPcr (src (onIrq sUp (fun q => { q with coal := vset q.coal 95 ⟨9, 5, false, false, some 10⟩ })) 1 ⟨0x9F, false, false, 4⟩) (fun p => { p with aon := 14 })
def st42 : State := src (src (onPci (onIrq sUp (fun q => { q with coal := vset q.coal 63 ⟨1, 1, true, false, none⟩ })) (fun p => { p with msix := vset p.msix 63 ⟨0x1000, 5, false⟩ })) 1 ⟨63, false, false, 4⟩) 200 ⟨63, false, true, 1⟩
def st43 : State := onIrq sUp (fun q => { q with claims := vset q.claims 63 [⟨200, 3, true⟩, ⟨201, 1, true⟩] })
def op44 : ClaimEnt := ⟨200, 3, true⟩
def op45 : List ClaimEnt := [⟨201, 1, true⟩]
def st46 : State := onIrq sUp (fun q => { q with claims := vset q.claims 63 [⟨255, 3, false⟩] })
def op47 : ClaimEnt := ⟨255, 3, false⟩
def op48 : List ClaimEnt := []
def st49 : State := src (onIrq sUp (fun q => { q with claims := vset q.claims 63 [⟨200, 3, true⟩] })) 200 ⟨63, false, true, 0⟩
def st50 : State := link (src (onIrq sUp (fun q => { q with coal := vset q.coal 95 ⟨1, 1, true, false, none⟩ })) 1 ⟨0x9F, false, false, 4⟩) 31 active
def st51 : State := src (raised sUp (255, 0)) 255 ⟨0x9F, false, false, 4095⟩
def st52 : State := src (onIrq sUp (fun q => { q with claims := vset q.claims 3 [⟨255, 3, false⟩] })) 255 ⟨3, false, false, 9⟩
def st53 : State := src sUp 0 ⟨0, true, false, 9⟩
def st54 : State := onIrq (raised sUp (255, 0)) (fun q => { q with watching := true, list := [255], latch := [(255, 4095)] })
def st55 : State := onIrq (raised sUp (200, 1)) (fun q => { q with watching := true, lost := 65535 })
def st56 : State := onIrq sUp (fun q => { q with waking := 2 })
def st57 : State := onIrq sUp (fun q => { q with waking := 3, latch := [(4, 7), (9, 1)] })
def st58 : State := onPci sUp (fun p => { p with memSpace := false })
def op59 : List (Option ℕ) := []
def op60 : List (Option ℕ) := [some 1]
def op61 : List (Option ℕ) := [some 1, some 2, some 3, some 4, some 5, some 6, some 7, some 8]
def op62 : List (Option ℕ) := [some 1, some 2, some 3, some 4]
def st63 : State := onStw sUp (fun w => { w with step := 7, sub := 2 })
def op64 : CfgReg := .wlp 0
def st65 : State := onPcr (onStw sUp (fun w => { w with step := 7, sub := 7, done7g := true })) (fun p => { p with ignValid := true, ignOff := 8 })
def op66 : CfgReg := .rgn 63 5
def st67 : State := onStw sUp (fun w => { w with mbox := vset w.mbox 15 { Mbox.init with dbViol := true, bufViol := true } })
def st68 : State := onIrq sUp (fun q => { q with coal := vset q.coal 95 ⟨9, 5, false, true, none⟩ })
def st69 : State := onPci sUp (fun p => { p with d3 := true })
def op70 : PciWrite := ⟨some false, true, some true, none, none, none, some false⟩
def st71 : State := onIrq sUp (fun q => { q with coal := vset q.coal 63 ⟨1, 1, true, false, none⟩ })
def op72 : PciWrite := ⟨some true, false, some true, none, none, none, none⟩
def op73 : PciWrite := ⟨none, false, some true, none, none, none, none⟩
def st74 : State := onPci sUp (fun p => { p with d3 := true, pmeEn := true, pmeStatus := true })
def op75 : List (ℕ × ℕ × ℕ) := []
def op76 : CfgReg := .tag 0
def op77 : CfgReg := .tag 7
def st78 : State := sCmd 1 0x202 [1, 0, 0, 0, 0, 0, 0, 0, 0, 0x10, 0, 0, 0, 0, 0, 0, 1, 0, 0, 0]
def op79 : Cfg := { Cfg.reset with ord := 2 }
def st80 : State := sCmd 1 0x202 [1, 0, 0, 0, 0, 0, 0, 0, 0, 0x20, 0, 0, 0, 0, 0, 0, 1, 0, 0, 0]
def st81 : State := sCmd 1 0x203 [1, 0, 0, 0, 1, 0, 0, 0, 0, 0xA0, 0, 0]
def st82 : State := sCmd 1 0x203 [2, 0, 0, 0, 1, 0, 0, 0, 0, 0xA0, 0, 0]
def st83 : State := sCmd 1 0x203 [0, 0, 0, 0, 1, 0, 0, 0, 2, 0xA0, 0, 0]
def st84 : State := onCfg (sCmd 1 0x204 []) (fun c => { c with ord := 0 })
def st85 : State := sCmd 1 0x701 [1, 0, 0, 0, 1, 0, 0, 0]
def op86 : Cfg := { Cfg.reset with twn := 0x03C83229 }
def st87 : State := sCmd 1 0x701 [1, 0, 0, 0, 1, 0, 0, 0x80]
def st88 : State := sCmd 1 0x201 [6, 0, 0, 0, 0, 0, 0, 0]
def st89 : State := sCmd 1 0xA07 [0, 0, 0, 0, 0, 0, 0, 0]
def st90 : State := onStw (sCmd 1 0x201 [7, 0, 0, 0, 0, 0, 0, 0]) (fun w => { w with step := 3 })
def st91 : State := put sRgn 1 0x401 [0, 0, 0, 0, 0, 0, 0, 0, 0, 0, 0, 1, 0, 0, 0, 0, 1, 0, 0, 0, 0, 0, 0, 0]
def st92 : State := put sRgn 1 0x402 [0, 0, 0, 0, 0, 0, 0, 0, 0, 0x10, 0, 0, 0, 0, 0, 0, 0, 0, 0, 0, 0, 0, 0, 0]
def st93 : State := onCfg (put sRgn 1 0x401 [0, 0, 0, 0, 0, 0, 0, 0, 0, 0x10, 0, 0, 0, 0, 0, 0, 1, 0, 0, 0, 0, 0, 0, 0]) (fun c => { c with tag := Vector.replicate 8 0x00140070 })
def st94 : State := put sRgn 1 0x401 [0, 0, 0, 0, 0, 0, 0, 0, 0, 0, 0, 0, 0, 0, 0, 0, 1, 0, 0, 0, 0, 0, 0, 0]
def st95 : State := put sRgn 1 0x402 [0, 0, 0, 0, 0, 0, 0, 0, 0, 0x10, 0, 0, 0, 0, 0, 0, 1, 0, 0, 0, 0, 0, 0, 0]

/-- The hypotheses of the clauses of SmbusMailboxTransactions are met. -/
theorem witness_SmbusMailboxTransactions :
    (sUp.on 28 = true ∧ 8191 < 8192) ∧
    (st28.on 28 = true ∧ 1 ≤ op29.length ∧ op29.length ≤ 255 ∧ st28.stw.smbOffset + op29.length ≤ 4096 ∧ (st28.stw.mb
      16).st = MbState.idle) ∧
    (st30.on 28 = true ∧ 1 ≤ op31.length ∧ op31.length ≤ 255 ∧ st30.stw.smbOffset < 8192 ∧ ((st30.stw.mb 16).st ≠
      MbState.idle ∨ 4096 ≤ st30.stw.smbOffset)) ∧
    (st32.on 28 = true ∧ 1 ≤ op31.length ∧ op31.length ≤ 255 ∧ st32.stw.smbOffset < 8192 ∧ ((st32.stw.mb 16).st ≠
      MbState.idle ∨ 4096 ≤ st32.stw.smbOffset)) ∧
    (st33.on 28 = true ∧ 2 ≤ 255 ∧ st33.stw.smbOffset + 2 ≤ 8192) ∧
    (sUp.on 28 = true ∧ (sUp.stw.mb 16).st = MbState.idle) ∧
    (st34.on 28 = true ∧ (st34.stw.mb 16).st = MbState.done) :=
  ⟨by decide +kernel,
   by decide +kernel,
   by decide +kernel,
   by decide +kernel,
   by decide +kernel,
   by decide +kernel,
   by decide +kernel⟩

/-- The hypotheses of the clauses of EventsAreCountedAtTheController are met. -/
theorem witness_EventsAreCountedAtTheController :
    (63 < 64) ∧
    (31 < 32) ∧
    (255 < 256 ∧ st35.on 9 = true ∧ st35.irq.oasisOn = false ∧ st35.fab.raised = (255, 0) :: op36) ∧
    (200 < 256 ∧ st37.on 9 = true ∧ st37.irq.oasisOn = false ∧ (st37.irq.source 200).asserted = false ∧
      st37.fab.raised = (200, 1) :: op36) ∧
    (200 < 256 ∧ st38.on 9 = true ∧ st38.irq.oasisOn = false ∧ (st38.irq.source 200).asserted = true ∧
      st38.fab.raised = (200, 1) :: op36) ∧
    (200 < 256 ∧ st39.on 9 = true ∧ st39.irq.oasisOn = false ∧ st39.fab.raised = (200, 2) :: op36) :=
  ⟨by decide +kernel,
   by decide +kernel,
   by decide +kernel,
   by decide +kernel,
   by decide +kernel,
   by decide +kernel⟩

/-- The hypotheses of the clauses of TimersMakeTargetsDue are met. -/
theorem witness_TimersMakeTargetsDue :
    (95 < 96 ∧ (st40.irq.coalOf 95).start = some 10 ∧ 10 + (st40.irq.coalOf 95).tt ≤ st40.pcr.aon ∧ 0 < st40.irq.acc
      95) ∧
    (95 < 96 ∧ (st41.irq.coalOf 95).start = some 10 ∧ st41.pcr.aon < 10 + (st41.irq.coalOf 95).tt) ∧
    (95 < 96 ∧ (sUp.irq.coalOf 95).start = none) :=
  ⟨by decide +kernel,
   by decide +kernel,
   by decide +kernel⟩

/-- The hypotheses of the clauses of ClaimMovesPendingSources are met. -/
theorem witness_ClaimMovesPendingSources :
    (63 < 64 ∧ st42.claimable 63 = true) ∧
    (63 < 64 ∧ sUp.claimable 63 = false ∧ sUp.pci.d3 = false) :=
  ⟨by decide +kernel,
   by decide +kernel⟩

/-- The hypotheses of the clauses of CauseReadsRemoveEntries are met. -/
theorem witness_CauseReadsRemoveEntries :
    (63 < 64 ∧ st43.mmio = true ∧ op44.source < 256 ∧ vget st43.irq.claims [] 63 = op44 :: op45) ∧
    (63 < 64 ∧ st46.mmio = true ∧ op47.source < 256 ∧ vget st46.irq.claims [] 63 = op47 :: op48) ∧
    (63 < 64 ∧ st49.mmio = true ∧ op44.source < 256 ∧ vget st49.irq.claims [] 63 = op44 :: op48) :=
  ⟨by decide +kernel,
   by decide +kernel,
   by decide +kernel⟩

/-- The hypotheses of the clauses of AgentTargetsAreDelivered are met. -/
theorem witness_AgentTargetsAreDelivered :
    (31 < 32 ∧ (st50.irq.coalOf (64 + 31)).due = true ∧ st50.on 9 = true ∧ (st50.fab.link 31).st = LinkState.active ∧
      0 < vget (st50.fab.link 31).credit 0 clsEVT) ∧
    (31 < 32 ∧ (sUp.fab.link 31).st ≠ LinkState.active) :=
  ⟨by decide +kernel,
   by decide +kernel⟩

/-- The hypotheses of the clauses of CountsAndMasksMoveTheAccumulation are met. -/
theorem witness_CountsAndMasksMoveTheAccumulation :
    (255 < 256 ∧ st51.on 9 = true ∧ st51.irq.oasisOn = false ∧ st51.irq.quiet = false ∧ st51.fab.raised = (255, 0) ::
      op36 ∧ (st51.irq.source 255).mask = false ∧ targetNo (st51.irq.source 255).target.toNat = some 95) ∧
    (255 < 256 ∧ sUp.mmio = true ∧ (sUp.irq.source 255).mask = false) ∧
    (255 < 256 ∧ st52.mmio = true ∧ (st52.irq.source 255).mask ≠ true) ∧
    (0 < 256 ∧ st53.mmio = true ∧ (st53.irq.source 0).mask ≠ false) :=
  ⟨by decide +kernel,
   by decide +kernel,
   by decide +kernel,
   by decide +kernel⟩

/-- The hypotheses of the clauses of OasisLatchesAndHandsOver are met. -/
theorem witness_OasisLatchesAndHandsOver :
    (st54.irq.oasisOn = true ∧ st54.fab.raised = (255, 0) :: op36 ∧ 0 ≠ 2 ∧ st54.irq.list.contains 255 = true) ∧
    (st55.irq.oasisOn = true ∧ st55.fab.raised = (200, 1) :: op36 ∧ 1 ≠ 2 ∧ st55.irq.list.contains 200 = false) ∧
    (st56.irq.waking = 1 ∨ st56.irq.waking = 2) ∧
    (st57.irq.waking = 3) :=
  ⟨by decide +kernel,
   by decide +kernel,
   by decide +kernel,
   by decide +kernel⟩

/-- The hypotheses of the clauses of RefusedAccessesReportAndDoNothing are met. -/
theorem witness_RefusedAccessesReportAndDoNothing :
    (st58.mmio = false ∧ st58.on 9 = true) ∧
    (sUp.mmio = true ∧ 67108864 ≤ 67108864 ∧ sUp.on 9 = true) ∧
    (sUp.mmio = true ∧ 67108863 < 67108864) ∧
    (sUp.mmio = true ∧ 4 < 67108864 ∧ (¬(1048576 ≤ 4 ∧ 4 < 2097152)) ∧ msixWindow 4 = false ∧ (¬(1 ≤ op61.length ∧
      op61.length ≤ 4)) ∧ (¬(op61.length = 8 ∧ 4 % 8 = 0))) ∧
    (sUp.mmio = true ∧ msixWindow 2101250 = true ∧ (¬(op62.length = 4 ∧ 2101250 % 4 = 0)) ∧ (¬(op62.length = 8 ∧
      2101250 % 8 = 0))) ∧
    (sUp.mmio = true ∧ 15 < 16 ∧ 62 < 65536 ∧ (62 % 4 ≠ 0 ∨ op62.length % 4 ≠ 0 ∨ op62.length < 4 ∨ 64 < 62 % 64 +
      op62.length)) :=
  ⟨by decide +kernel,
   by decide +kernel,
   by decide +kernel,
   by decide +kernel,
   by decide +kernel,
   by decide +kernel⟩

/-- The hypotheses of the clauses of ConfigurationWritesFollowTheEpoch are met. -/
theorem witness_ConfigurationWritesFollowTheEpoch :
    (st63.mmio = true ∧ cfgReg 40960 = some CfgReg.gln ∧ 40960 % 4 = 0 ∧ 40960 < 1048576 ∧ 4294967295 < 2 ^ 32 ∧
      st63.stw.disabled = true ∧ st63.on CfgReg.gln.domain = true) ∧
    (sUp.mmio = true ∧ cfgReg 0 = some op64 ∧ 0 % 4 = 0 ∧ 0 < 1048576 ∧ 4294967295 < 2 ^ 32 ∧ sUp.stw.disabled =
      false) ∧
    (st65.mmio = true ∧ cfgReg 26612 = some op66 ∧ 26612 % 4 = 0 ∧ 26612 < 1048576 ∧ 1 < 2 ^ 32 ∧ st65.stw.disabled =
      false) :=
  ⟨by decide +kernel,
   by decide +kernel,
   by decide +kernel⟩

/-- The hypotheses of the clauses of ClearingBitsAndReadingTime are met. -/
theorem witness_ClearingBitsAndReadingTime :
    (sUp.mmio = true ∧ 4294967295 < 2 ^ 32 ∧ sUp.on 30 = true) ∧
    (st67.mmio = true ∧ 8 < 2 ^ 32 ∧ 15 < 16) ∧
    (sUp.mmio = true ∧ 2147483648 < 2 ^ 32 ∧ 15 < 16 ∧ sUp.on 31 = true) :=
  ⟨by decide +kernel,
   by decide +kernel,
   by decide +kernel⟩

/-- The hypotheses of the clauses of EveryAlwaysOnEdgeCopiesTheRegisters are met. -/
theorem witness_EveryAlwaysOnEdgeCopiesTheRegisters :
    (st68.pcr.porst = false ∧ st68.pcr.supplyHold = false) :=
  by decide +kernel

/-- The hypotheses of the clauses of ConfigurationSpaceAndTheMsixTable are met. -/
theorem witness_ConfigurationSpaceAndTheMsixTable :
    (st69.on 9 = true ∧ op70.d3.getD st69.pci.d3 = false) ∧
    (st71.on 9 = true ∧ op72.d3.getD st71.pci.d3 = true) ∧
    (st69.on 9 = true ∧ op73.d3.getD st69.pci.d3 = true) ∧
    (st74.on 9 = true ∧ st74.pci.d3 = true ∧ st74.pci.pmeEn = true ∧ st74.pci.pmeStatus = true) ∧
    (sUp.on 9 = true ∧ sUp.pci.pmeStatus = false) ∧
    (sUp.mmio = true ∧ 63 < 64 ∧ 3 < 4 ∧ 4294967295 < 2 ^ 32 ∧ 7 < 2 ^ 32) ∧
    (sUp.mmio = true ∧ 63 < 64 ∧ 0 < 4 ∧ 4294967295 < 2 ^ 32 ∧ 7 < 2 ^ 32) :=
  ⟨by decide +kernel,
   by decide +kernel,
   by decide +kernel,
   by decide +kernel,
   by decide +kernel,
   by decide +kernel,
   by decide +kernel⟩

/-- The hypotheses of the clauses of StagedEntriesFollowTheirRule are met. -/
theorem witness_StagedEntriesFollowTheirRule :
    (cfgReg 8192 = none ∨ 8192 ≤ 8192 ∧ 8192 < 12288) ∧
    (cfgReg 20480 = some op76 ∧ (¬(8192 ≤ 20480 ∧ 20480 < 12288)) ∧ 4294967295 < 2 ^ 32 ∧ 4294967295 < 2 ^ 32 ∧
      4294967295 &&& op76.mask ≠ 4294967295) ∧
    (cfgReg 20480 = some op76 ∧ (¬(8192 ≤ 20480 ∧ 20480 < 12288)) ∧ 10 < 2 ^ 32 ∧ 14 < 2 ^ 32 ∧ 14 &&& op76.mask = 14
      ∧ op76.legal (BitVec.toNat (op76.get Cfg.reset) &&& (4294967295 ^^^ 14) ||| 10 &&& 14) = false) ∧
    (cfgReg 20704 = some op77 ∧ (¬(8192 ≤ 20704 ∧ 20704 < 12288)) ∧ 1 < 2 ^ 32 ∧ 1 < 2 ^ 32 ∧ 1 &&& op77.mask = 1 ∧
      op77.legal (BitVec.toNat (op77.get Cfg.reset) &&& (4294967295 ^^^ 1) ||| 1 &&& 1) = true) ∧
    (7 < 8) ∧
    (st78.serves 1 514 = true ∧ (st78.stw.mb 1).clean [(4, 4)] = true ∧ (st78.stw.staged.stageAll 0 (List.map (fun i
      => ((st78.stw.mb 1).pay (8 + 12 * i) 4, (st78.stw.mb 1).pay (12 + 12 * i) 4, (st78.stw.mb 1).pay (16 + 12 * i)
      4)) (List.range ((st78.stw.mb 1).pay 0 4))) = (op79, 4294967295, 0))) ∧
    (st80.serves 1 514 = true ∧ (st80.stw.mb 1).clean [(4, 4)] = true ∧ (st80.stw.staged.stageAll 0 (List.map (fun i
      => ((st80.stw.mb 1).pay (8 + 12 * i) 4, (st80.stw.mb 1).pay (12 + 12 * i) 4, (st80.stw.mb 1).pay (16 + 12 * i)
      4)) (List.range ((st80.stw.mb 1).pay 0 4))) = (Cfg.reset, 0, 257)) ∧ 257 ≠ 0) ∧
    (st81.serves 1 515 = true ∧ (st81.stw.mb 1).clean [(1, 3)] = true ∧ (st81.stw.mb 1).pay 0 1 ≤ 1 ∧ (∀ i <
      (st81.stw.mb 1).pay 4 4, (cfgReg ((st81.stw.mb 1).pay (8 + 4 * i) 4)).isSome = true)) :=
  ⟨by decide +kernel,
   by decide +kernel,
   by decide +kernel,
   by decide +kernel,
   by decide +kernel,
   by decide +kernel,
   by decide +kernel,
   by decide +kernel⟩

/-- The hypotheses of the clauses of StagedEntriesFollowTheirRule are met. -/
theorem witness_StagedEntriesFollowTheirRule_2 :
    (st82.serves 1 515 = true ∧ (st82.stw.mb 1).clean [(1, 3)] = true ∧ (1 < (st82.stw.mb 1).pay 0 1 ∨ ∃ i <
      (st82.stw.mb 1).pay 4 4, cfgReg ((st82.stw.mb 1).pay (8 + 4 * i) 4) = none)) ∧
    (st83.serves 1 515 = true ∧ (st83.stw.mb 1).clean [(1, 3)] = true ∧ (1 < (st83.stw.mb 1).pay 0 1 ∨ ∃ i <
      (st83.stw.mb 1).pay 4 4, cfgReg ((st83.stw.mb 1).pay (8 + 4 * i) 4) = none)) ∧
    (12290 % 4 ≠ 0) :=
  ⟨by decide +kernel,
   by decide +kernel,
   by decide +kernel⟩

/-- The hypotheses of the clauses of DiscardingAndStagingTheTwin are met. -/
theorem witness_DiscardingAndStagingTheTwin :
    (st84.serves 1 516 = true) ∧
    (st85.serves 1 1793 = true ∧ st85.stw.staged.stage CfgReg.twn ((st85.stw.mb 1).pay 0 4) ((st85.stw.mb 1).pay 4 4)
      = (op86, 0)) ∧
    (st87.serves 1 1793 = true ∧ st87.stw.staged.stage CfgReg.twn ((st87.stw.mb 1).pay 0 4) ((st87.stw.mb 1).pay 4 4)
      = (Cfg.reset, 258)) :=
  ⟨by decide +kernel,
   by decide +kernel,
   by decide +kernel⟩

/-- The hypotheses of the clauses of ApplyAndStopBeginADrain are met. -/
theorem witness_ApplyAndStopBeginADrain :
    (st88.serves 1 513 = true ∧ st88.stw.busy = false ∧ st88.pcr.byStop = false ∧ (st88.stw.mb 1).clean [(1, 3)] =
      true ∧ (st88.stw.mb 1).pay 0 1 < 8 ∧ ((st88.stw.mb 1).pay 0 1).testBit 0 = false ∧ st88.stw.jrnl.committed ≠
      4294967295 ∧ ((st88.stw.mb 1).pay 4 4 = 0 ∨ (st88.stw.mb 1).pay 4 4 = st88.fab.epoch) ∧ st88.checks.1 = 0) ∧
    (st89.serves 1 2567 = true ∧ st89.stw.busy = false ∧ st89.pcr.byStop = false ∧ (st89.stw.mb 1).pay 0 8 =
      BitVec.toNat st89.fab.uid) ∧
    (st90.serves 1 513 = true ∧ st90.stw.busy = true ∧ (st90.stw.mb 1).clean [(1, 3)] = true ∧ (st90.stw.mb 1).pay 0
      1 < 8) :=
  ⟨by decide +kernel,
   by decide +kernel,
   by decide +kernel⟩

/-- The hypotheses of the clauses of LockCommandsQueueADescriptor are met. -/
theorem witness_LockCommandsQueueADescriptor :
    (st91.serves 1 1025 = true ∧ ((st91.stw.mb 1).clean [(17, 7)] = true ∧ (st91.stw.mb 1).pay 0 8 % 4096 = 0 ∧
      (st91.stw.mb 1).pay 8 8 % 4096 = 0 ∧ (st91.stw.mb 1).pay 8 8 ≠ 0 ∧ (st91.stw.mb 1).pay 0 8 + (st91.stw.mb
      1).pay 8 8 ≤ 2 ^ 52 ∧ st91.cfg.rangeIn (fun r => r.typ.cacheable) ((st91.stw.mb 1).pay 0 8) ((st91.stw.mb
      1).pay 8 8) = true) ∧ (st91.stw.mb 1).pay 16 1 ≤ 1 ∧ st91.cfg.cacheEn 0 = true) ∧
    (st92.serves 1 1026 = true ∧ ((st92.stw.mb 1).clean [(17, 7)] = true ∧ (st92.stw.mb 1).pay 0 8 % 4096 = 0 ∧
      (st92.stw.mb 1).pay 8 8 % 4096 = 0 ∧ (st92.stw.mb 1).pay 8 8 ≠ 0 ∧ (st92.stw.mb 1).pay 0 8 + (st92.stw.mb
      1).pay 8 8 ≤ 2 ^ 52 ∧ st92.cfg.rangeIn (fun r => r.typ.cacheable) ((st92.stw.mb 1).pay 0 8) ((st92.stw.mb
      1).pay 8 8) = true) ∧ (st92.stw.mb 1).pay 16 1 = 0 ∧ st92.cfg.cacheEn 0 = true) ∧
    (st93.serves 1 1025 = true ∧ ((st93.stw.mb 1).clean [(17, 7)] = true ∧ (st93.stw.mb 1).pay 0 8 % 4096 = 0 ∧
      (st93.stw.mb 1).pay 8 8 % 4096 = 0 ∧ (st93.stw.mb 1).pay 8 8 ≠ 0 ∧ (st93.stw.mb 1).pay 0 8 + (st93.stw.mb
      1).pay 8 8 ≤ 2 ^ 52 ∧ st93.cfg.rangeIn (fun r => r.typ.cacheable) ((st93.stw.mb 1).pay 0 8) ((st93.stw.mb
      1).pay 8 8) = true) ∧ (st93.stw.mb 1).pay 16 1 ≤ 1 ∧ st93.cfg.cacheEn 0 = false) ∧
    (st94.serves 1 1025 = true ∧ (st94.stw.mb 1).clean [(17, 7)] = true ∧ (st94.stw.mb 1).pay 16 1 ≤ 1 ∧
      ((st94.stw.mb 1).pay 0 8 % 4096 ≠ 0 ∨ (st94.stw.mb 1).pay 8 8 % 4096 ≠ 0 ∨ (st94.stw.mb 1).pay 8 8 = 0)) ∧
    (st95.serves 1 1026 = true ∧ (st95.stw.mb 1).clean [(17, 7)] = true ∧ (st95.stw.mb 1).pay 16 1 ≠ 0) :=
  ⟨by decide +kernel,
   by decide +kernel,
   by decide +kernel,
   by decide +kernel,
   by decide +kernel⟩

end W02

namespace W03

def L (n : Nat) : List Nat := leBytes n 4
def Q (n : Nat) : List Nat := leBytes n 8
def dsc (op dst src len pat : Nat) : List Nat := [op, 0, 0, 0, 0, 0, 0, 0] ++ Q dst ++ Q src ++ Q len ++ Q pat ++ List.replicate 24 0
def dis (s : State) (l : List Desc) : State := onHrw s (fun h => { h with descs := l })
def st96 : State := dis (put sRgn 1 0x501 (dsc 1 0 0 64 0)) (List.replicate 1024 desc0)
def st97 : State := put sRgn 1 0x501 (dsc 1 0 0 0 0)
def st98 : State := put sRgn 1 0x501 (dsc 1 0 0 64 0)
def st99 : State := onTwin (put sRgn 1 0x501 (dsc 1 0 0 64 0)) (fun t => { t with pair := .paired })
def ended (s : State) (l : List Desc) : State := onHrw s (fun h => { h with ended := l })
def ringed (s : State) (n : Nat) : State := onHrw s (fun h => { h with ring := (List.range n).map (fun k => (k + 3, BitVec.ofNat 512 (k + 1))), ringSeq := n + 3 })
def st100 : State := ringed (put sRgn 1 0x503 (L 4 ++ [2, 0, 0, 0])) 4
def st101 : State := ringed (put sRgn 1 0x503 (L 4 ++ [0, 1, 0, 0])) 4
def st102 : State := put sRgn 1 0x503 (L 0 ++ [1, 0, 0, 0])
def st103 : State := dis (put sRgn 1 0x504 (Q 5)) [desc0]
def st104 : State := dis (put sRgn 1 0x504 (L 5 ++ L 0)) [desc0]
def mir (s : State) : State := onCfg (onTwin s (fun t => { t with pair := .paired })) (fun c => { c with twn := 1 })
def st105 : State := mir (dis (put sRgn 1 0x504 (L 5 ++ L 0)) [{ desc0 with queue := 20 }])
def op106 : Desc := { desc0 with queue := 20 }
def st107 : State := dis (put sRgn 1 0x504 (L 5 ++ L 0)) [{ desc0 with running := true, flight := [(0, 0, 0)] }]
def op108 : Desc := { desc0 with running := true, flight := [(0, 0, 0)] }
def st109 : State := dis (put sRgn 1 0x504 (L 5 ++ L 0)) [{ desc0 with stop := 2 }]
def op110 : Desc := { desc0 with stop := 2 }
def st111 : State := dis (put sRgn 1 0x504 (L 5 ++ L 0)) [{ desc0 with queue := 50 }]
def op112 : Desc := { desc0 with queue := 50 }
def ce (s : State) : State := onGln s (fun g => { g with blks := Vector.replicate 10 ⟨1, 2, 3, 4, [⟨1, 2, 3, 4, 5, 6, 7, false⟩]⟩ })
def st113 : State := ce (sCmd 1 0x602 [9, 0, 0, 0, 0, 0, 0, 0])
def st114 : State := ce (sCmd 1 0x602 [255, 0, 0, 0, 0, 0, 0, 0])
def tnt (s : State) : State := onGran s (fun g => { g with taint := [(3, 9), (7, 9)] })
def st115 : State := tnt (sCmd 1 0x604 ([7, 0, 0, 0] ++ L 9))
def st116 : State := tnt (sCmd 1 0x604 ([255, 0, 0, 0] ++ L 0xFFFFFFFF))
def st117 : State := tnt (sCmd 1 0x604 ([7, 0, 0, 0] ++ L 8))
def lostw (s : State) (n : Nat) : State := onMem s (fun m => { m with lostWords := [n] })
def st118 : State := lostw (sCmd 1 0x605 ([11, 0, 0, 0] ++ L 262143)) (12 * 262144 - 1)
def st119 : State := sCmd 1 0x605 ([11, 0, 0, 0] ++ L 262143)
def st120 : State := onFab (sCmd 1 0x606 ([7, 0, 0, 0] ++ L (2 ^ 21 - 1))) (fun f => { f with cache := { f.cache with lostList := [(2 ^ 21 - 1, 4)] } })
def st121 : State := sCmd 1 0x606 ([7, 0, 0, 0] ++ L (2 ^ 21 - 1))
def st122 : State := sCmd 1 0x608 ([0, 0] ++ leBytes 0 6)
def st123 : State := sCmd 1 0x608 ([10, 0] ++ leBytes 0x10005 6)
def st124 : State := onGln (sCmd 1 0x608 ([0, 0] ++ leBytes 0 6)) (fun g => { g with repairs := (List.range 64).map (fun k => ⟨1, k, k, 10, 1, 0⟩) })
def st125 : State := onGln (sCmd 1 0x608 ([10, 0] ++ leBytes 0x10005 6)) (fun g => { g with fuses := List.replicate 512 0 })
def st126 : State := sCmd 1 0x801 ([1, 0, 0, 0, 0, 0, 0, 0] ++ [255, 63, 0, 0])
def st127 : State := sCmd 1 0x801 ([1, 0, 0, 0, 0, 0, 0, 0] ++ [1, 255, 0, 0])
def st128 : State := src (sCmd 1 0x801 ([1, 0, 0, 0, 0, 0, 0, 0] ++ [1, 0x9F, 0, 0])) 1 ⟨3, false, false, 5⟩
def st129 : State := sCmd 1 0x801 ([1, 0, 0, 0, 0, 0, 0, 0] ++ [255, 64, 0, 0])
def st130 : State := sCmd 1 0x802 ([0x9F, 0, 0xFF, 0x0F] ++ L 65000)
def st131 : State := sCmd 1 0x802 ([0, 0, 1, 0] ++ L 1)
def st132 : State := sCmd 1 0x803 ([2, 0, 0, 0, 0, 0, 0, 0] ++ [255, 3] ++ List.replicate 30 0)
def st133 : State := sCmd 1 0x803 ([32, 0, 0, 0, 0, 0, 0, 0] ++ (List.range 32))
def tw (s : State) (p : PairState) : State := onTwin s (fun t => { t with pair := p })
def st134 : State := tw (sCmd 1 0x703 []) .paired
def st135 : State := onTwin (sCmd 1 0x703 []) (fun t => { t with pair := .waiting })
def st136 : State := onTwin (sCmd 1 0x703 []) (fun t => { t with pair := .paired, step := 2 })
def st137 : State := onTwin (sCmd 1 0x704 (Q 7)) (fun t => { t with pair := .waiting, partner := some (greet sUp) })
def st138 : State := onTwin (sCmd 1 0x704 (Q 0)) (fun t => { t with pair := .waiting })
def st139 : State := sCmd 1 0x704 (Q 0)
def c0 : State := sCmd 1 0x705 []
def c1 : State := onCfg c0 (fun c => { c with twn := 1 })
def st140 : State := onTwin c1 (fun t => { t with heard := true, partner := some (greet c1) })
def op141 : Hello := greet c1
def st142 : State := onTwin c1 (fun t => { t with heard := true, pair := .survivor, partner := some (greet c1) })
def st143 : State := onTwin c1 (fun t => { t with heard := true, pair := .survivor, partner := some { greet c1 with capGib := 9 } })
def op144 : Hello := { greet c1 with capGib := 9 }
def st145 : State := tw c1 .paired
def mtr (op : Nat) (pay : List Nat) : State := onWgb (sCmd 1 op pay) (fun w => { sWgb.wgb with raised := w.raised })
def st146 : State := mtr 0x901 (List.replicate 16 1)
def blk0 : Block := ⟨15, false, 1, 3, 3, 0, 9, 0, [(255, ⟨1, 2, 3, 4⟩)], 0, 5, 0⟩
def st147 : State := onWgb (mtr 0x902 ([15, 0, 0, 0] ++ L 0 ++ L 0xFFFFFFFF ++ L 0 ++ List.replicate 16 1)) (fun w => { w with blocks := [blk0] })
def st148 : State := mtr 0x903 ([255, 0, 1, 0] ++ L 0 ++ List.replicate 16 1)
def st149 : State := onWgb (mtr 0x904 (L 0 ++ [0xFC, 1, 0, 0] ++ List.replicate 16 1)) (fun w => { w with audit := [⟨1, 2, 3, 4, 5⟩] })
def st150 : State := mtr 0x905 []
def st151 : State := mtr 0x906 (List.replicate 12 5 ++ L 0)
def st152 : State := onWgb (mtr 0x907 []) (fun w => { w with t := 12345 })
def st153 : State := tw (mtr 0x908 []) .survivor
def st154 : State := mtr 0x908 []
def fwp (slot off : Nat) (b : List Nat) : List Nat := [slot, 0, 0, 0] ++ L off ++ L b.length ++ L 0 ++ b
def ver (s : State) (r : Nat) : State := onStw s (fun w => { w with slots := Vector.replicate 2 ⟨[(0, 1)], 4, some r, r⟩ })
def st155 : State := sCmd 1 0xA01 (fwp 1 0 [1, 2, 3, 4])
def st156 : State := sCmd 1 0xA01 (fwp 1 8388604 [1, 2, 3, 255])
def st157 : State := sCmd 1 0xA01 (fwp 1 8388608 [1, 2, 3, 4])
def st158 : State := sCmd 1 0xA01 (fwp 0 0 [1, 2, 3, 4])
def st159 : State := sCmd 1 0xA02 [1, 0, 0, 0, 0, 0, 0, 0]
def st160 : State := ver (sCmd 1 0xA03 [1, 0, 0, 0, 0, 0, 0, 0]) 0
def st161 : State := onStw (ver (sCmd 1 0xA03 [1, 0, 0, 0, 0, 0, 0, 0]) 0) (fun w => { w with longs := [(3, .takeover)] })
def st162 : State := onTwin (ver (sCmd 1 0xA03 [1, 0, 0, 0, 0, 0, 0, 0]) 0) (fun t => { t with pair := .paired, partner := some { greet sUp with fwMajor := 9 } })
def st163 : State := onStw (sCmd 1 0xA03 [1, 0, 0, 0, 0, 0, 0, 0]) (fun w => { w with step := 2 })
def st164 : State := ver (sCmd 1 0xA03 [1, 0, 0, 0, 0, 0, 0, 0]) 4
def st165 : State := onStw (sCmd 1 0xA04 [1, 0, 0, 0, 0, 0, 0, 0]) (fun w => { w with accepted := true, imgRollback := 64 })
def st166 : State := onStw (sCmd 1 0xA04 [0, 0, 0, 0, 0, 0, 0, 0]) (fun w => { w with accepted := true, imgRollback := 3, rollback := 9 })
def st167 : State := sCmd 1 0xA04 [1, 0, 0, 0, 0, 0, 0, 0]
def spl (s : State) : State := onCfg s (fun c => { c with wlp := Vector.replicate 16 3 })
def st168 : State := onFab (sCmd 1 0xA06 (Q 5)) (fun f => { f with uid := 5 })
def st169 : State := tw (sCmd 1 0xA06 (Q 0)) .paired
def st170 : State := sCmd 1 0xA06 (Q 1)
def st171 : State := sCmd 1 0xB01 [15, 255, 0, 0, 0, 0, 0, 0]
def st172 : State := link (sCmd 1 0xB01 [15, 0, 0, 0, 0, 0, 0, 0]) 30 active
def st173 : State := spl (link (sCmd 1 0xB01 [15, 1, 0, 0, 0, 0, 0, 0]) 31 active)
def st174 : State := spl (link (sCmd 1 0xB01 [15, 255, 0, 0, 0, 0, 0, 0]) 31 active)
def st175 : State := sCmd 1 0xB01 [16, 0, 0, 0, 0, 0, 0, 0]
def st176 : State := sCmd 1 0xB01 [15, 1, 0, 0, 0, 0, 0, 0]
def st177 : State := sCmd 1 0xB01 [15, 2, 0, 0, 0, 0, 0, 0]
def jr (s : State) (n : Nat) : State := onStw s (fun w => { w with jrnl := { w.jrnl with compacting := true, full := true, entries := (List.range n).map (fun k => ⟨k + 1, 0x17, k, [1, 2], k % 2 = 0⟩) } })
def st178 : State := jr sUp 5
def st179 : State := sCmd 1 0xA09 []
def st180 : State := onStw (jr (sCmd 1 0xA09 []) 4) (fun w => { w with jrnl := { w.jrnl with compacting := false, full := false } })
def st181 : State := onStw (sCmd 1 0xA09 []) (fun w => { w with jrnl := { w.jrnl with entries := [⟨1, 0x17, 0, List.replicate 500000 0, false⟩] } })

/-- The hypotheses of the clauses of SubmittedDescriptorsAreCheckedAndQueued are met. -/
theorem witness_SubmittedDescriptorsAreCheckedAndQueued :
    (st96.serves 1 1281 = true ∧ st96.fab.roomFor 1 = false) ∧
    (st97.serves 1 1281 = true ∧ st97.fab.roomFor 1 = true ∧ dscStatus st97.cfg 1 (BitVec.ofNat 512 (leNat
      ((st97.stw.mb 1).payBytes 0 64))) ≠ 0) ∧
    (st98.serves 1 1281 = true ∧ st98.fab.roomFor 1 = true ∧ dscStatus st98.cfg 1 (BitVec.ofNat 512 (leNat
      ((st98.stw.mb 1).payBytes 0 64))) = 0 ∧ st98.fab.mirrors = false ∧ st98.stw.longs = [] ∧ (∀ d ∈
      st98.fab.hrw.descs, d.ticket ≠ st98.fab.hrw.nextTicket)) ∧
    (st99.serves 1 1281 = true ∧ st99.fab.roomFor 1 = true ∧ dscStatus st99.cfg 1 (BitVec.ofNat 512 (leNat
      ((st99.stw.mb 1).payBytes 0 64))) = 0 ∧ st99.fab.mirrors = true ∧ st99.stw.longs = [] ∧ (∀ d ∈
      st99.fab.hrw.descs, d.ticket ≠ st99.fab.hrw.nextTicket)) :=
  ⟨by decide +kernel,
   by decide +kernel,
   by decide +kernel,
   by decide +kernel⟩

/-- The hypotheses of the clauses of ReapingAndAborting are met. -/
theorem witness_ReapingAndAborting :
    (st100.serves 1 1283 = true ∧ (st100.stw.mb 1).clean [(6, 2)] = true ∧ 1 ≤ (st100.stw.mb 1).pay 4 2 ∧
      (st100.stw.mb 1).pay 4 2 ≤ 256 ∧ (st100.fab.hrw.freeTo ((st100.stw.mb 1).pay 0 4)).ringSeq < 2 ^ 32) ∧
    (st101.serves 1 1283 = true ∧ (st101.stw.mb 1).clean [(6, 2)] = true ∧ 1 ≤ (st101.stw.mb 1).pay 4 2 ∧
      (st101.stw.mb 1).pay 4 2 ≤ 256 ∧ (st101.fab.hrw.freeTo ((st101.stw.mb 1).pay 0 4)).ringSeq < 2 ^ 32) ∧
    (st102.serves 1 1283 = true ∧ (st102.stw.mb 1).clean [(6, 2)] = true ∧ 1 ≤ (st102.stw.mb 1).pay 4 2 ∧
      (st102.stw.mb 1).pay 4 2 ≤ 256 ∧ (st102.fab.hrw.freeTo ((st102.stw.mb 1).pay 0 4)).ringSeq < 2 ^ 32) ∧
    (st103.serves 1 1284 = true ∧ (st103.stw.mb 1).clean [(4, 4)] = true ∧ (List.filter (fun x => decide (x.ticket =
      (st103.stw.mb 1).pay 0 4)) st103.fab.hrw.descs = [desc0]) ∧ desc0.mirror = false ∧ desc0.queue < 17 ∧
      desc0.running = false ∧ desc0.recording = false ∧ desc0.ending = false ∧ desc0.stop = 0 ∧ st103.fab.mirrors =
      false) ∧
    (st104.serves 1 1284 = true ∧ (st104.stw.mb 1).clean [(4, 4)] = true ∧ (List.filter (fun x => decide (x.ticket =
      (st104.stw.mb 1).pay 0 4)) st104.fab.hrw.descs = [desc0]) ∧ desc0.mirror = false ∧ desc0.queue < 17 ∧
      desc0.running = false ∧ desc0.recording = false ∧ desc0.ending = false ∧ desc0.stop = 0 ∧ st104.fab.mirrors =
      false) ∧
    (st105.serves 1 1284 = true ∧ (st105.stw.mb 1).clean [(4, 4)] = true ∧ (List.filter (fun x => decide (x.ticket =
      (st105.stw.mb 1).pay 0 4)) st105.fab.hrw.descs = [op106]) ∧ op106.mirror = false ∧ op106.queue < 49 ∧
      op106.running = false ∧ op106.recording = false ∧ op106.ending = false ∧ op106.stop = 0 ∧ st105.fab.mirrors =
      true) ∧
    (st107.serves 1 1284 = true ∧ (st107.stw.mb 1).clean [(4, 4)] = true ∧ (List.filter (fun x => decide (x.ticket =
      (st107.stw.mb 1).pay 0 4)) st107.fab.hrw.descs = [op108]) ∧ op108.mirror = false ∧ op108.queue < 49 ∧
      op108.running = true ∧ op108.flight ≠ [] ∧ op108.recording = false ∧ op108.ending = false ∧ op108.stop = 0) ∧
    (st109.serves 1 1284 = true ∧ (st109.stw.mb 1).clean [(4, 4)] = true ∧ (List.filter (fun x => decide (x.ticket =
      (st109.stw.mb 1).pay 0 4)) st109.fab.hrw.descs = [op110]) ∧ op110.mirror = false ∧ op110.queue < 49 ∧
      (op110.recording = true ∨ op110.ending = true ∨ op110.stop ≠ 0)) :=
  ⟨by decide +kernel,
   by decide +kernel,
   by decide +kernel,
   by decide +kernel,
   by decide +kernel,
   by decide +kernel,
   by decide +kernel,
   by decide +kernel⟩

/-- The hypotheses of the clauses of ReapingAndAborting are met. -/
theorem witness_ReapingAndAborting_2 :
    (st111.serves 1 1284 = true ∧ (st111.stw.mb 1).clean [(4, 4)] = true ∧ (List.filter (fun x => decide (x.ticket =
      (st111.stw.mb 1).pay 0 4)) st111.fab.hrw.descs = [op112]) ∧ op112.mirror = false ∧ 49 ≤ op112.queue) :=
  by decide +kernel

/-- The hypotheses of the clauses of ClearingErrorTablesAndTaints are met. -/
theorem witness_ClearingErrorTablesAndTaints :
    (st113.serves 1 1538 = true ∧ (st113.stw.mb 1).clean [(1, 7)] = true ∧ ((st113.stw.mb 1).pay 0 1 ≤ 9 ∨
      (st113.stw.mb 1).pay 0 1 = 255)) ∧
    (st114.serves 1 1538 = true ∧ (st114.stw.mb 1).clean [(1, 7)] = true ∧ ((st114.stw.mb 1).pay 0 1 ≤ 9 ∨
      (st114.stw.mb 1).pay 0 1 = 255)) ∧
    (st115.serves 1 1540 = true ∧ (st115.stw.mb 1).clean [(1, 3)] = true ∧ ((st115.stw.mb 1).pay 0 1 ≤ 7 ∨
      (st115.stw.mb 1).pay 0 1 = 255) ∧ ((st115.stw.mb 1).pay 4 4 < 2 ^ 18 ∨ (st115.stw.mb 1).pay 4 4 = 4294967295) ∧
      (∃ x ∈ st115.fab.gran.taint, ((st115.stw.mb 1).pay 0 1 = 255 ∨ x.1 = (st115.stw.mb 1).pay 0 1) ∧ ((st115.stw.mb
      1).pay 4 4 = 4294967295 ∨ x.2.toNat = (st115.stw.mb 1).pay 4 4))) ∧
    (st116.serves 1 1540 = true ∧ (st116.stw.mb 1).clean [(1, 3)] = true ∧ ((st116.stw.mb 1).pay 0 1 ≤ 7 ∨
      (st116.stw.mb 1).pay 0 1 = 255) ∧ ((st116.stw.mb 1).pay 4 4 < 2 ^ 18 ∨ (st116.stw.mb 1).pay 4 4 = 4294967295) ∧
      (∃ x ∈ st116.fab.gran.taint, ((st116.stw.mb 1).pay 0 1 = 255 ∨ x.1 = (st116.stw.mb 1).pay 0 1) ∧ ((st116.stw.mb
      1).pay 4 4 = 4294967295 ∨ x.2.toNat = (st116.stw.mb 1).pay 4 4))) ∧
    (st117.serves 1 1540 = true ∧ (st117.stw.mb 1).clean [(1, 3)] = true ∧ ((st117.stw.mb 1).pay 0 1 ≤ 7 ∨
      (st117.stw.mb 1).pay 0 1 = 255) ∧ ((st117.stw.mb 1).pay 4 4 < 2 ^ 18 ∨ (st117.stw.mb 1).pay 4 4 = 4294967295) ∧
      (∀ x ∈ st117.fab.gran.taint, ¬(((st117.stw.mb 1).pay 0 1 = 255 ∨ x.1 = (st117.stw.mb 1).pay 0 1) ∧
      ((st117.stw.mb 1).pay 4 4 = 4294967295 ∨ x.2.toNat = (st117.stw.mb 1).pay 4 4)))) :=
  ⟨by decide +kernel,
   by decide +kernel,
   by decide +kernel,
   by decide +kernel,
   by decide +kernel⟩

/-- The hypotheses of the clauses of RewritingLostWordsAndNominatingRepairs are met. -/
theorem witness_RewritingLostWordsAndNominatingRepairs :
    (st118.serves 1 1541 = true ∧ (st118.stw.mb 1).clean [(1, 3)] = true ∧ (st118.stw.mb 1).pay 0 1 ≤ 11 ∧
      (st118.stw.mb 1).pay 4 4 < 262144 ∧ (st118.stw.mb 1).pay 0 1 * 262144 + (st118.stw.mb 1).pay 4 4 ∈
      st118.fab.mem.lostWords) ∧
    (st119.serves 1 1541 = true ∧ (st119.stw.mb 1).clean [(1, 3)] = true ∧ (st119.stw.mb 1).pay 0 1 ≤ 11 ∧
      (st119.stw.mb 1).pay 4 4 < 262144 ∧ (st119.stw.mb 1).pay 0 1 * 262144 + (st119.stw.mb 1).pay 4 4 ∉
      st119.fab.mem.lostWords) ∧
    (st120.serves 1 1542 = true ∧ (st120.stw.mb 1).clean [(1, 3)] = true ∧ (st120.stw.mb 1).pay 0 1 ≤ 7 ∧
      (st120.stw.mb 1).pay 4 4 < 2 ^ 21 ∧ (st120.stw.mb 1).pay 4 4 / 2 ^ 18 = (st120.stw.mb 1).pay 0 1 ∧ (∃ w,
      ((st120.stw.mb 1).pay 4 4, w) ∈ st120.fab.cache.lostList)) ∧
    (st121.serves 1 1542 = true ∧ (st121.stw.mb 1).clean [(1, 3)] = true ∧ (st121.stw.mb 1).pay 0 1 ≤ 7 ∧
      (st121.stw.mb 1).pay 4 4 < 2 ^ 21 ∧ (st121.stw.mb 1).pay 4 4 / 2 ^ 18 = (st121.stw.mb 1).pay 0 1 ∧ (∀ (w : ℕ),
      ((st121.stw.mb 1).pay 4 4, w) ∉ st121.fab.cache.lostList)) ∧
    (st122.serves 1 1544 = true ∧ (st122.stw.mb 1).clean [(1, 1)] = true ∧ st122.locOk ((st122.stw.mb 1).pay 0 1)
      ((st122.stw.mb 1).pay 2 6) = true ∧ st122.fab.gln.pendingCount < 64 ∧ ((st122.stw.mb 1).pay 0 1 = 10 →
      st122.fab.gln.fuses.length < 512) ∧ (∀ r ∈ st122.fab.gln.repairs, r.block = (st122.stw.mb 1).pay 0 1 → r.row =
      st122.rowOf ((st122.stw.mb 1).pay 0 1) ((st122.stw.mb 1).pay 2 6) → 2 ≤ r.state)) ∧
    (st123.serves 1 1544 = true ∧ (st123.stw.mb 1).clean [(1, 1)] = true ∧ st123.locOk ((st123.stw.mb 1).pay 0 1)
      ((st123.stw.mb 1).pay 2 6) = true ∧ st123.fab.gln.pendingCount < 64 ∧ ((st123.stw.mb 1).pay 0 1 = 10 →
      st123.fab.gln.fuses.length < 512) ∧ (∀ r ∈ st123.fab.gln.repairs, r.block = (st123.stw.mb 1).pay 0 1 → r.row =
      st123.rowOf ((st123.stw.mb 1).pay 0 1) ((st123.stw.mb 1).pay 2 6) → 2 ≤ r.state)) ∧
    (st124.serves 1 1544 = true ∧ (st124.stw.mb 1).clean [(1, 1)] = true ∧ st124.locOk ((st124.stw.mb 1).pay 0 1)
      ((st124.stw.mb 1).pay 2 6) = true ∧ 64 ≤ st124.fab.gln.pendingCount) ∧
    (st125.serves 1 1544 = true ∧ (st125.stw.mb 1).clean [(1, 1)] = true ∧ st125.locOk ((st125.stw.mb 1).pay 0 1)
      ((st125.stw.mb 1).pay 2 6) = true ∧ st125.fab.gln.pendingCount < 64 ∧ (st125.stw.mb 1).pay 0 1 = 10 ∧ 512 ≤
      st125.fab.gln.fuses.length) :=
  ⟨by decide +kernel,
   by decide +kernel,
   by refine ⟨?_, ?_, ?_, ?_, ?_, ⟨4, by decide +kernel⟩⟩ <;> decide +kernel,
   by refine ⟨?_, ?_, ?_, ?_, ?_, fun _ => List.not_mem_nil⟩ <;> decide +kernel,
   by decide +kernel,
   by decide +kernel,
   by decide +kernel,
   by decide +kernel⟩

/-- The hypotheses of the clauses of RoutingAndCoalescing are met. -/
theorem witness_RoutingAndCoalescing :
    (st126.serves 1 2049 = true ∧ (st126.stw.mb 1).clean [(2, 6)] = true ∧ (st126.stw.mb 1).pay 0 2 = 1 ∧
      (st126.stw.mb 1).pay 8 1 = 255 ∧ (st126.stw.mb 1).pay 9 1 = 63 ∧ (st126.stw.mb 1).pay 10 2 = 0 ∧ (63 = 255 ∨
      (targetNo 63).isSome = true)) ∧
    (st127.serves 1 2049 = true ∧ (st127.stw.mb 1).clean [(2, 6)] = true ∧ (st127.stw.mb 1).pay 0 2 = 1 ∧
      (st127.stw.mb 1).pay 8 1 = 1 ∧ (st127.stw.mb 1).pay 9 1 = 255 ∧ (st127.stw.mb 1).pay 10 2 = 0 ∧ (255 = 255 ∨
      (targetNo 255).isSome = true)) ∧
    (st128.serves 1 2049 = true ∧ (st128.stw.mb 1).clean [(2, 6)] = true ∧ (st128.stw.mb 1).pay 0 2 = 1 ∧
      (st128.stw.mb 1).pay 8 1 = 1 ∧ (st128.stw.mb 1).pay 9 1 = 159 ∧ (st128.stw.mb 1).pay 10 2 = 0 ∧ (159 = 255 ∨
      (targetNo 159).isSome = true)) ∧
    (st129.serves 1 2049 = true ∧ (st129.stw.mb 1).clean [(2, 6)] = true ∧ (st129.stw.mb 1).pay 0 2 = 1 ∧
      (st129.stw.mb 1).pay 8 1 = 255 ∧ (st129.stw.mb 1).pay 9 1 = 64 ∧ (st129.stw.mb 1).pay 10 2 = 0 ∧ 64 ≠ 255 ∧
      targetNo 64 = none) ∧
    (st130.serves 1 2050 = true ∧ (st130.stw.mb 1).clean [(1, 1)] = true ∧ targetNo ((st130.stw.mb 1).pay 0 1) = some
      95 ∧ 1 ≤ (st130.stw.mb 1).pay 2 2 ∧ (st130.stw.mb 1).pay 2 2 ≤ 4095 ∧ 1 ≤ (st130.stw.mb 1).pay 4 4 ∧
      (st130.stw.mb 1).pay 4 4 ≤ 65000) ∧
    (st131.serves 1 2050 = true ∧ (st131.stw.mb 1).clean [(1, 1)] = true ∧ targetNo ((st131.stw.mb 1).pay 0 1) = some
      0 ∧ 1 ≤ (st131.stw.mb 1).pay 2 2 ∧ (st131.stw.mb 1).pay 2 2 ≤ 4095 ∧ 1 ≤ (st131.stw.mb 1).pay 4 4 ∧
      (st131.stw.mb 1).pay 4 4 ≤ 65000) ∧
    (st132.serves 1 2051 = true ∧ (st132.stw.mb 1).clean [(1, 7)] = true ∧ (st132.stw.mb 1).pay 0 1 ≤ 32 ∧ (∀ (i :
      ℕ), (st132.stw.mb 1).pay 0 1 ≤ i → i < 32 → (st132.stw.mb 1).byte (16 + i) = 0)) ∧
    (st133.serves 1 2051 = true ∧ (st133.stw.mb 1).clean [(1, 7)] = true ∧ (st133.stw.mb 1).pay 0 1 ≤ 32 ∧ (∀ (i :
      ℕ), (st133.stw.mb 1).pay 0 1 ≤ i → i < 32 → (st133.stw.mb 1).byte (16 + i) = 0)) :=
  ⟨by decide +kernel,
   by decide +kernel,
   by decide +kernel,
   by decide +kernel,
   by decide +kernel,
   by decide +kernel,
   by decide +kernel,
   by decide +kernel⟩

/-- The hypotheses of the clauses of TwinCommandsActOnThePair are met. -/
theorem witness_TwinCommandsActOnThePair :
    (st134.serves 1 1795 = true ∧ (∀ l ∈ st134.stw.longs, l.1 ≠ 1)) ∧
    (st135.serves 1 1795 = true ∧ (∀ l ∈ st135.stw.longs, l.1 ≠ 1)) ∧
    (st136.serves 1 1795 = true ∧ (∀ l ∈ st136.stw.longs, l.1 ≠ 1)) ∧
    (st137.serves 1 1796 = true ∧ st137.fab.twin.pair = PairState.waiting ∧ (st137.stw.mb 1).pay 0 8 = match
      st137.fab.twin.partner with | some h => BitVec.toNat h.uid | none => 0) ∧
    (st138.serves 1 1796 = true ∧ st138.fab.twin.pair = PairState.waiting ∧ (st138.stw.mb 1).pay 0 8 = match
      st138.fab.twin.partner with | some h => BitVec.toNat h.uid | none => 0) ∧
    (st139.serves 1 1796 = true ∧ st139.fab.twin.pair ≠ PairState.waiting) ∧
    (st140.serves 1 1797 = true ∧ (st140.fab.twin.pair = PairState.single ∧ st140.cfg.twinEn = true ∨
      st140.fab.twin.pair = PairState.survivor) ∧ st140.fab.twin.heard = true ∧ st140.fab.twin.partner = some op141 ∧
      (∀ l ∈ st140.stw.longs, l.1 ≠ 1) ∧ helloDis st140.ownHello op141 = 0) ∧
    (st142.serves 1 1797 = true ∧ (st142.fab.twin.pair = PairState.single ∧ st142.cfg.twinEn = true ∨
      st142.fab.twin.pair = PairState.survivor) ∧ st142.fab.twin.heard = true ∧ st142.fab.twin.partner = some op141 ∧
      (∀ l ∈ st142.stw.longs, l.1 ≠ 1) ∧ helloDis st142.ownHello op141 = 0) :=
  ⟨by decide +kernel,
   by decide +kernel,
   by decide +kernel,
   by decide +kernel,
   by decide +kernel,
   by decide +kernel,
   by refine ⟨?_, ?_, ?_, rfl, ?_, by rw [helloDis, if_neg (fun h => h rfl)]; decide +kernel⟩ <;> decide +kernel,
   by refine ⟨?_, ?_, ?_, rfl, ?_, by rw [helloDis, if_neg (fun h => h rfl)]; decide +kernel⟩ <;> decide +kernel⟩

/-- The hypotheses of the clauses of TwinCommandsActOnThePair are met. -/
theorem witness_TwinCommandsActOnThePair_2 :
    (st143.serves 1 1797 = true ∧ (st143.fab.twin.pair = PairState.single ∧ st143.cfg.twinEn = true ∨
      st143.fab.twin.pair = PairState.survivor) ∧ st143.fab.twin.heard = true ∧ st143.fab.twin.partner = some op144 ∧
      (∀ l ∈ st143.stw.longs, l.1 ≠ 1) ∧ helloDis st143.ownHello op144 ≠ 0) ∧
    (c1.serves 1 1797 = true ∧ (c1.fab.twin.pair = PairState.single ∧ c1.cfg.twinEn = true ∨ c1.fab.twin.pair =
      PairState.survivor) ∧ c1.fab.twin.heard = false) ∧
    (st145.serves 1 1797 = true ∧ st145.fab.twin.pair ≠ PairState.single ∧ st145.fab.twin.pair ≠ PairState.survivor) :=
  ⟨by refine ⟨?_, ?_, ?_, rfl, ?_, by rw [helloDis, if_neg (fun h => h rfl)]; decide +kernel⟩ <;> decide +kernel,
   by decide +kernel,
   by decide +kernel⟩

/-- The hypotheses of the clauses of MeteringCommandsReachTheWeighbridge are met. -/
theorem witness_MeteringCommandsReachTheWeighbridge :
    ((∀ l ∈ st146.stw.longs, l.1 ≠ 1) ∧ st146.wgb.powered = true ∧ 0 ≤ 1 ∧ st146.serves 1 2305 = true) ∧
    ((∀ l ∈ st146.stw.longs, l.1 ≠ 1) ∧ st146.wgb.powered = true ∧ 1 ≤ 1 ∧ st146.serves 1 2305 = true) ∧
    ((∀ l ∈ st147.stw.longs, l.1 ≠ 1) ∧ st147.wgb.powered = true ∧ 0 ≤ 1 ∧ st147.serves 1 2306 = true ∧ (st147.stw.mb
      1).clean [(1, 3), (12, 4)] = true ∧ (st147.stw.mb 1).pay 0 1 ≤ 15 ∧ (st147.stw.mb 1).pay 4 4 ≤ (st147.stw.mb
      1).pay 8 4 ∧ (List.flatMap st147.wgb.blockRecs (st147.wgb.range ((st147.stw.mb 1).pay 0 1) ((st147.stw.mb
      1).pay 4 4) ((st147.stw.mb 1).pay 8 4))).length ≤ bodyLimit 1) ∧
    ((∀ l ∈ st148.stw.longs, l.1 ≠ 1) ∧ st148.wgb.powered = true ∧ 1 ≤ 1 ∧ st148.serves 1 2307 = true ∧ (st148.stw.mb
      1).clean [(1, 1), (4, 4)] = true ∧ 1 ≤ (st148.stw.mb 1).pay 2 2 ∧ (st148.stw.mb 1).pay 0 1 + (st148.stw.mb
      1).pay 2 2 ≤ 256) ∧
    ((∀ l ∈ st149.stw.longs, l.1 ≠ 1) ∧ st149.wgb.powered = true ∧ 0 ≤ 1 ∧ st149.serves 1 2308 = true ∧ (st149.stw.mb
      1).clean [(6, 2)] = true ∧ 1 ≤ (st149.stw.mb 1).pay 4 2 ∧ (st149.stw.mb 1).pay 4 2 ≤ 508) ∧
    ((∀ l ∈ st150.stw.longs, l.1 ≠ 1) ∧ st150.wgb.powered = true ∧ st150.serves 1 2309 = true) ∧
    ((∀ l ∈ st151.stw.longs, l.1 ≠ 1) ∧ st151.wgb.powered = true ∧ st151.serves 1 2310 = true ∧ (st151.stw.mb
      1).clean [(12, 4)] = true ∧ st151.wgb.tcxoOk = true) ∧
    ((∀ l ∈ st152.stw.longs, l.1 ≠ 1) ∧ st152.wgb.powered = true ∧ st152.serves 1 2311 = true ∧ st152.wgb.tcxoOk =
      true ∧ st152.wgb.short = none) :=
  ⟨by decide +kernel,
   by decide +kernel,
   by decide +kernel,
   by decide +kernel,
   by decide +kernel,
   by decide +kernel,
   by decide +kernel,
   by decide +kernel⟩

/-- The hypotheses of the clauses of MeteringCommandsReachTheWeighbridge are met. -/
theorem witness_MeteringCommandsReachTheWeighbridge_2 :
    ((∀ l ∈ st153.stw.longs, l.1 ≠ 1) ∧ st153.wgb.powered = true ∧ st153.serves 1 2312 = true ∧ (st153.fab.twin.pair
      = PairState.failover ∨ st153.fab.twin.pair = PairState.survivor)) ∧
    ((∀ l ∈ st154.stw.longs, l.1 ≠ 1) ∧ st154.wgb.powered = true ∧ st154.serves 1 2312 = true ∧ st154.fab.twin.pair ≠
      PairState.failover ∧ st154.fab.twin.pair ≠ PairState.survivor) :=
  ⟨by decide +kernel,
   by decide +kernel⟩

/-- The hypotheses of the clauses of FirmwareImages are met. -/
theorem witness_FirmwareImages :
    (st155.serves 1 2561 = true ∧ ((st155.stw.mb 1).clean [(1, 3), (12, 4)] = true ∧ (st155.stw.mb 1).pay 0 1 ≤ 1 ∧ 4
      ≤ (st155.stw.mb 1).pay 8 4 ∧ (st155.stw.mb 1).pay 8 4 ≤ 32744 ∧ (st155.stw.mb 1).pay 8 4 % 4 = 0) ∧
      (st155.stw.safe = true ∨ st155.stw.running ≠ (st155.stw.mb 1).pay 0 1) ∧ ((st155.stw.mb 1).pay 4 4 +
      (st155.stw.mb 1).pay 8 4 ≤ 8388608 ∧ ((st155.stw.mb 1).pay 4 4 = 0 ∨ (st155.slot ((st155.stw.mb 1).pay 0
      1)).written ≤ (st155.stw.mb 1).pay 4 4)) ∧ 0 ≤ 1) ∧
    (st156.serves 1 2561 = true ∧ ((st156.stw.mb 1).clean [(1, 3), (12, 4)] = true ∧ (st156.stw.mb 1).pay 0 1 ≤ 1 ∧ 4
      ≤ (st156.stw.mb 1).pay 8 4 ∧ (st156.stw.mb 1).pay 8 4 ≤ 32744 ∧ (st156.stw.mb 1).pay 8 4 % 4 = 0) ∧
      (st156.stw.safe = true ∨ st156.stw.running ≠ (st156.stw.mb 1).pay 0 1) ∧ ((st156.stw.mb 1).pay 4 4 +
      (st156.stw.mb 1).pay 8 4 ≤ 8388608 ∧ ((st156.stw.mb 1).pay 4 4 = 0 ∨ (st156.slot ((st156.stw.mb 1).pay 0
      1)).written ≤ (st156.stw.mb 1).pay 4 4)) ∧ 1 ≤ 1) ∧
    (st155.serves 1 2561 = true ∧ ((st155.stw.mb 1).clean [(1, 3), (12, 4)] = true ∧ (st155.stw.mb 1).pay 0 1 ≤ 1 ∧ 4
      ≤ (st155.stw.mb 1).pay 8 4 ∧ (st155.stw.mb 1).pay 8 4 ≤ 32744 ∧ (st155.stw.mb 1).pay 8 4 % 4 = 0) ∧
      (st155.stw.safe = true ∨ st155.stw.running ≠ (st155.stw.mb 1).pay 0 1) ∧ ((st155.stw.mb 1).pay 4 4 +
      (st155.stw.mb 1).pay 8 4 ≤ 8388608 ∧ ((st155.stw.mb 1).pay 4 4 = 0 ∨ (st155.slot ((st155.stw.mb 1).pay 0
      1)).written ≤ (st155.stw.mb 1).pay 4 4)) ∧ 2 ≤ 2) ∧
    (st157.serves 1 2561 = true ∧ ((st157.stw.mb 1).clean [(1, 3), (12, 4)] = true ∧ (st157.stw.mb 1).pay 0 1 ≤ 1 ∧ 4
      ≤ (st157.stw.mb 1).pay 8 4 ∧ (st157.stw.mb 1).pay 8 4 ≤ 32744 ∧ (st157.stw.mb 1).pay 8 4 % 4 = 0) ∧
      (st157.stw.safe = true ∨ st157.stw.running ≠ (st157.stw.mb 1).pay 0 1) ∧ (¬((st157.stw.mb 1).pay 4 4 +
      (st157.stw.mb 1).pay 8 4 ≤ 8388608 ∧ ((st157.stw.mb 1).pay 4 4 = 0 ∨ (st157.slot ((st157.stw.mb 1).pay 0
      1)).written ≤ (st157.stw.mb 1).pay 4 4)))) ∧
    (st158.serves 1 2561 = true ∧ ((st158.stw.mb 1).clean [(1, 3), (12, 4)] = true ∧ (st158.stw.mb 1).pay 0 1 ≤ 1 ∧ 4
      ≤ (st158.stw.mb 1).pay 8 4 ∧ (st158.stw.mb 1).pay 8 4 ≤ 32744 ∧ (st158.stw.mb 1).pay 8 4 % 4 = 0) ∧
      st158.stw.safe = false ∧ st158.stw.running = (st158.stw.mb 1).pay 0 1) ∧
    (st159.serves 1 2562 = true ∧ (st159.stw.mb 1).clean [(1, 7)] = true ∧ (st159.stw.mb 1).pay 0 1 ≤ 1) ∧
    (st160.serves 1 2563 = true ∧ (st160.stw.mb 1).clean [(1, 7)] = true ∧ (st160.stw.mb 1).pay 0 1 ≤ 1 ∧
      st160.stw.busy = false ∧ (st160.slot ((st160.stw.mb 1).pay 0 1)).verified = some 0 ∧ (¬((st160.fab.twin.pair =
      PairState.paired ∨ st160.fab.twin.pair = PairState.resync) ∧
      (match st160.fab.twin.partner with | some h => h.fwMajor * 256 + h.fwMinor | none => (st160.slot ((st160.stw.mb 1).pay 0 1)).version / 2 ^ 16)
      ≠ (st160.slot ((st160.stw.mb 1).pay 0 1)).version / 2 ^ 16)) ∧ st160.othersRun 1 = false) ∧
    (st161.serves 1 2563 = true ∧ (st161.stw.mb 1).clean [(1, 7)] = true ∧ (st161.stw.mb 1).pay 0 1 ≤ 1 ∧
      st161.stw.busy = false ∧ (st161.slot ((st161.stw.mb 1).pay 0 1)).verified = some 0 ∧ (¬((st161.fab.twin.pair =
      PairState.paired ∨ st161.fab.twin.pair = PairState.resync) ∧
      (match st161.fab.twin.partner with | some h => h.fwMajor * 256 + h.fwMinor | none => (st161.slot ((st161.stw.mb 1).pay 0 1)).version / 2 ^ 16)
      ≠ (st161.slot ((st161.stw.mb 1).pay 0 1)).version / 2 ^ 16)) ∧ st161.othersRun 1 = true) :=
  ⟨by decide +kernel,
   by decide +kernel,
   by decide +kernel,
   by decide +kernel,
   by decide +kernel,
   by decide +kernel,
   by decide +kernel,
   by decide +kernel⟩

/-- The hypotheses of the clauses of FirmwareImages are met. -/
theorem witness_FirmwareImages_2 :
    (st162.serves 1 2563 = true ∧ (st162.stw.mb 1).clean [(1, 7)] = true ∧ (st162.stw.mb 1).pay 0 1 ≤ 1 ∧
      st162.stw.busy = false ∧ (st162.slot ((st162.stw.mb 1).pay 0 1)).verified = some 0 ∧ ((st162.fab.twin.pair =
      PairState.paired ∨ st162.fab.twin.pair = PairState.resync) ∧
      (match st162.fab.twin.partner with | some h => h.fwMajor * 256 + h.fwMinor | none => (st162.slot ((st162.stw.mb 1).pay 0 1)).version / 2 ^ 16)
      ≠ (st162.slot ((st162.stw.mb 1).pay 0 1)).version / 2 ^ 16)) ∧
    (st163.serves 1 2563 = true ∧ (st163.stw.mb 1).clean [(1, 7)] = true ∧ (st163.stw.mb 1).pay 0 1 ≤ 1 ∧
      st163.stw.busy = true) ∧
    (st164.serves 1 2563 = true ∧ (st164.stw.mb 1).clean [(1, 7)] = true ∧ (st164.stw.mb 1).pay 0 1 ≤ 1 ∧
      st164.stw.busy = false ∧ (st164.slot ((st164.stw.mb 1).pay 0 1)).verified ≠ some 0) ∧
    (st165.serves 1 2564 = true ∧ (st165.stw.mb 1).clean [(1, 7)] = true ∧ (st165.stw.mb 1).pay 0 1 ≤ 1 ∧
      st165.stw.accepted = true ∧ st165.stw.running < 2) ∧
    (st166.serves 1 2564 = true ∧ (st166.stw.mb 1).clean [(1, 7)] = true ∧ (st166.stw.mb 1).pay 0 1 ≤ 1 ∧
      st166.stw.accepted = true ∧ st166.stw.running < 2) ∧
    (st167.serves 1 2564 = true ∧ (st167.stw.mb 1).clean [(1, 7)] = true ∧ (st167.stw.mb 1).pay 0 1 ≤ 1 ∧
      (st167.stw.accepted = false ∨ 2 ≤ st167.stw.running)) :=
  ⟨by decide +kernel,
   by decide +kernel,
   by decide +kernel,
   by decide +kernel,
   by decide +kernel,
   by decide +kernel⟩

/-- The hypotheses of the clauses of ResetsStopsAndCompaction are met. -/
theorem witness_ResetsStopsAndCompaction :
    (st168.serves 1 2566 = true ∧ (st168.stw.mb 1).pay 0 8 = BitVec.toNat st168.fab.uid ∧ st168.fab.twin.pair =
      PairState.single) ∧
    (st169.serves 1 2566 = true ∧ (st169.stw.mb 1).pay 0 8 = BitVec.toNat st169.fab.uid ∧ st169.fab.twin.pair ≠
      PairState.single ∧ (∀ l ∈ st169.stw.longs, l.1 ≠ 1)) ∧
    (st170.serves 1 2566 = true ∧ (st170.stw.mb 1).pay 0 8 ≠ BitVec.toNat st170.fab.uid) ∧
    (st171.serves 1 2817 = true ∧ (st171.stw.mb 1).clean [(2, 6)] = true ∧ (st171.stw.mb 1).pay 0 1 ≤ 15 ∧
      st171.cfg.split ((st171.stw.mb 1).pay 0 1) = false ∧ ((st171.stw.mb 1).pay 1 1 = 0 ∨ (st171.stw.mb 1).pay 1 1 =
      255)) ∧
    (st172.serves 1 2817 = true ∧ (st172.stw.mb 1).clean [(2, 6)] = true ∧ (st172.stw.mb 1).pay 0 1 ≤ 15 ∧
      st172.cfg.split ((st172.stw.mb 1).pay 0 1) = false ∧ ((st172.stw.mb 1).pay 1 1 = 0 ∨ (st172.stw.mb 1).pay 1 1 =
      255)) ∧
    (st173.serves 1 2817 = true ∧ (st173.stw.mb 1).clean [(2, 6)] = true ∧ (st173.stw.mb 1).pay 0 1 ≤ 15 ∧
      st173.cfg.split ((st173.stw.mb 1).pay 0 1) = true ∧ (st173.stw.mb 1).pay 1 1 ≤ 1) ∧
    (st174.serves 1 2817 = true ∧ (st174.stw.mb 1).clean [(2, 6)] = true ∧ (st174.stw.mb 1).pay 0 1 ≤ 15 ∧
      st174.cfg.split ((st174.stw.mb 1).pay 0 1) = true ∧ (st174.stw.mb 1).pay 1 1 = 255) ∧
    (st175.serves 1 2817 = true ∧ (st175.stw.mb 1).clean [(2, 6)] = true ∧ 15 < (st175.stw.mb 1).pay 0 1) :=
  ⟨by decide +kernel,
   by decide +kernel,
   by decide +kernel,
   by decide +kernel,
   by decide +kernel,
   by decide +kernel,
   by decide +kernel,
   by decide +kernel⟩

/-- The hypotheses of the clauses of ResetsStopsAndCompaction are met. -/
theorem witness_ResetsStopsAndCompaction_2 :
    (st176.serves 1 2817 = true ∧ (st176.stw.mb 1).clean [(2, 6)] = true ∧ (st176.stw.mb 1).pay 0 1 ≤ 15 ∧
      (st176.stw.mb 1).pay 1 1 = 1 ∧ st176.cfg.split ((st176.stw.mb 1).pay 0 1) = false) ∧
    (st177.serves 1 2817 = true ∧ (st177.stw.mb 1).clean [(2, 6)] = true ∧ (st177.stw.mb 1).pay 0 1 ≤ 15 ∧ 2 ≤
      (st177.stw.mb 1).pay 1 1 ∧ (st177.stw.mb 1).pay 1 1 ≠ 255) ∧
    (st178.stw.jrnl.compacting = true) ∧
    (sUp.stw.jrnl.compacting = false) ∧
    (st179.serves 1 2569 = true ∧ ¬8192 < recCount (liveEntries (st179.stw.liveCommits st179.pcr.aon)
      st179.stw.jrnl.entries)) ∧
    (st180.serves 1 2569 = true ∧ ¬8192 < recCount (liveEntries (st180.stw.liveCommits st180.pcr.aon)
      st180.stw.jrnl.entries)) ∧
    (st181.serves 1 2569 = true ∧ 8192 < recCount (liveEntries (st181.stw.liveCommits st181.pcr.aon)
      st181.stw.jrnl.entries)) :=
  ⟨by decide +kernel,
   by decide +kernel,
   by decide +kernel,
   by decide +kernel,
   by decide +kernel,
   by decide +kernel,
   by refine ⟨?_, longJournal _ List.length_replicate⟩ <;> decide +kernel⟩

end W03

namespace W04

def ww (g : Wgb → Wgb) : State := onWgb sWgb g
def st182 : State := ww (fun w => { w with t := 10000, occSeg := [(3, 4)], occ := [(3, 9)], segStart := 5, cur := { Interval.new 3 4 5 with stop := 30000, q4 := [(3, 1)] } })
def st183 : State := ww (fun w => { w with t := 19999, occSeg := [(3, 4)], occ := [(3, 9)], segStart := 5, cur := { Interval.new (2 ^ 32 - 1) 4 20000 with q4 := [(3, 1)] } })
def st184 : State := ww (fun w => { w with tcxoOk := false })
def st185 : State := ww (fun w => { w with t := 77 })
def st186 : State := ww (fun w => { w with t := 77, short := some 97, cur := { Interval.new (2 ^ 32 - 1) 4 20000 with q4 := [(3, 1)] } })
def st187 : State := ww (fun w => { w with t := 9000000077, short := some 18000000000, cur := { Interval.new (2 ^ 32 - 1) 9000000000 18000000000 with q4 := [(3, 1)] } })
def fr0 : Frame := ⟨7, 5, 10000, 0, [(3, 4, 5, 6)], [(3, 9), (255, 8)], false, false⟩
def fs (g : Wgb → Wgb) (l : List Frame) : State := onFab (ww g) (fun f => { f with taps := { f.taps with frames := l } })
def iv (n : Nat) : Machine.Interval := { Machine.Interval.new 4 5 6 with seen := List.range n, q := [(3, 4, 5, 6)], q4 := [(3, 2 ^ 70)], flags := 1 }
def st188 : State := fs (fun w => { w with tapSeq := Vector.replicate 18 5, occ := [(7 * 256 + 3, 2)], closing := [{ iv 3 with stop := 10000 }] }) [fr0, fr0]
def op189 : List Frame := [fr0]
def op190 : Machine.Interval := { iv 3 with stop := 10000 }
def op191 : List Machine.Interval := []
def st192 : State := fs (fun w => { w with tapSeq := Vector.replicate 18 5, closing := [{ iv 3 with stop := 20000 }, iv 9] }) [{ fr0 with tap := 0 }]
def op193 : Frame := { fr0 with tap := 0 }
def op194 : List Frame := []
def op195 : Machine.Interval := { iv 3 with stop := 20000 }
def op196 : List Machine.Interval := [iv 9]
def st197 : State := fs (fun w => { w with tapSeq := Vector.replicate 18 5 }) [{ fr0 with tap := 17, counts := [(0, 5, 6, 0)] }, fr0]
def op198 : Frame := { fr0 with tap := 17, counts := [(0, 5, 6, 0)] }
def st199 : State := fs (fun w => { w with tapSeq := Vector.replicate 18 5 }) [{ fr0 with tap := 8, full := true }]
def op200 : Frame := { fr0 with tap := 8, full := true }
def st201 : State := fs (fun w => { w with tcxoOk := false }) [fr0]
def st202 : State := fs (fun w => { w with tcxoOk := false }) [{ fr0 with tap := 17 }]
def op203 : Frame := { fr0 with tap := 17 }
def st204 : State := fs (fun w => { w with tapSeq := Vector.replicate 18 5, tapTransient := 255 }) [{ fr0 with tap := 0 }]
def st205 : State := fs (fun w => { w with tapSeq := Vector.replicate 18 5, occ := [(7 * 256 + 3, 2)] }) [fr0, fr0]
def st206 : State := ww (fun w => { w with closing := [iv 18, iv 3] })
def op207 : Machine.Interval := iv 18
def op208 : List Machine.Interval := [iv 3]
def st209 : State := ww (fun w => { w with closing := [iv 17, iv 3] })
def op210 : Machine.Interval := iv 17
def st211 : State := ww (fun w => { w with powered := false, sealed := true, ring := [⟨7, iv 3, [], [], Vector.replicate 18 0⟩, ⟨9, iv 5, [(3, 3)], [], Vector.replicate 18 0⟩] })
def op212 : Checkpoint := ⟨9, iv 5, [(3, 3)], [], Vector.replicate 18 0⟩
def blk0 : Block := ⟨15, false, 1, 3, 3, 0, 9, 0, [(255, ⟨1, 2, 3, 4⟩)], 0, 5, 0⟩
def op213 : BitVec 128 := 5
def st214 : State := ww (fun w => { w with sealed := true })
def op215 : BitVec 128 := 2 ^ 128 - 1
def st216 : State := ww (fun w => { w with sealed := true, blocks := [blk0, { blk0 with group := 3, ino := 9 }] })
def st217 : State := ww (fun w => { w with cum := [(255, ⟨1, 2, 3, 4⟩)] })
def st218 : State := ww (fun w => { w with audit := [⟨1, 2, 3, 4, 5⟩] })
def op219 : List ℕ := [1, 2]
def st220 : State := ww (fun w => { w with tested := true, serial := 0x123456789 })
def op221 : BitVec 192 := 5
def op222 : Word64 := 6
def st223 : State := ww (fun w => { w with sealed := true, auditCnt := 2 ^ 32 - 1 })
def op224 : List ℕ := [1]
def op225 : Word32 := 0
def op226 : BitVec 192 := 0
def op227 : Word64 := 0
def op228 : Instr × ℕ := (.setParams 0 1 true, 16)
def op229 : Instr × ℕ := (.seal 0 true 0 0 0 true, 18)
def op230 : Instr × ℕ := (.loadPatch 0 false [1] true, 17)
def op231 : BitVec 96 := 2 ^ 95
def op232 : BitVec 2 := 2
def st233 : State := onStw sUp (fun w => { w with resetDue := true })
def st (n : Nat) : State := onPcr sUp (fun p => { p with startup := n })
def st234 : State := st 1
def st235 : State := st 2
def st236 : State := st 3
def st237 : State := st 4
def st238 : State := st 5
def st239 : State := onBring (st 5) (fun b => { b with hbmStep := 4, ddrStep := 8 })
def st240 : State := st 7
def st241 : State := st 8
def br (h d : Nat) : State := onBring (st 5) (fun b => { b with hbmStep := h, ddrStep := d })
def g1 : Geo := ⟨1, 2, 1, 2, 16⟩
def dm1 : Dimm := ⟨true, 2, 1, 2, 16, 0x1234⟩
def bi (fails : BitVec 12) (lanes : List (BitVec 16)) (spd : List (Option (List Nat))) (out : List Bool) : BringIn := ⟨⟨spd, List.replicate 24 (some dm1), out⟩, fails, lanes, List.replicate 12 g1⟩
def fit (s : State) : State := onBring s (fun b => { b with dimms := Vector.replicate 24 (some dm1) })
def rp (s : State) : State := onGln s (fun g => { g with repairs := [⟨4, 3, 5, 2, 2, 1⟩, ⟨4, 4, 5, 2, 0, 1⟩, ⟨10, 4, 5, 10, 2, 1⟩] })
def saved (s : State) : State := { s with stw := (onStw s (fun w => { w with jrnl := { w.jrnl with entries := [⟨1, 0x40, 0, List.replicate 40 0, false⟩] } })).stw }
def st242 : State := br 1 4
def op243 : BringIn := bi 0xFFF [1] [some [1]] []
def st244 : State := br 3 4
def op245 : BringIn := bi 5 [1, 2, 3, 4] [some [1]] []
def st246 : State := br 2 4
def op247 : BringIn := bi 0xFF0 [] [some [1], none] []
def op248 : BringIn := { bi 0xFF0 [] [some [1], none] [] with dimms := [some dm1, none, some { dm1 with speed := 1 }, some { dm1 with x4 := false }] }
def st249 : State := br 1 5
def st250 : State := fit (br 1 5)
def op251 : BringIn := bi 0x010 [] [some [1], none] [true, false]
def st252 : State := saved (fit (br 1 5))
def op253 : BringIn := bi 0 [] [some [1], none] [true, false]
def st254 : State := br 1 6
def st255 : State := rp (br 1 6)
def op256 : BringIn := bi 0xFF0 [] [some [1], none] [false]
def st257 : State := br 1 7
def st258 : State := fit (br 1 7)
def op259 : BringIn := bi 0 [] [some [1], none] []
def st260 : State := onPcr (onStw sUp (fun w => { w with lastExpiry := some 5 })) (fun p => { p with aon := 1000005 })
def st261 : State := onPcr (onStw sUp (fun w => { w with lastExpiry := some 5 })) (fun p => { p with aon := 1000004 })
def st262 : State := onPcr (onStw sUp (fun w => { w with lastExpiry := some 5, otherTried := true })) (fun p => { p with aon := 1000004 })
def st263 : State := onStw sUp (fun w => { w with loading := some (0, false), up := false })
def st264 : State := onStw sUp (fun w => { w with loading := some (1, false), up := false })
def st265 : State := onStw sUp (fun w => { w with loading := some (1, true), up := false })
def st266 : State := onStw (st 3) (fun w => { w with loading := some (0, false), up := false })
def st267 : State := onStw sUp (fun w => { w with up := false })
def st268 : State := onStw sUp (fun w => { w with activating := true })
def st269 : State := onStw sUp (fun w => { w with trial := some 1 })
def st270 : State := onPcr sUp (fun p => { p with pd := 0xFFFFFDFF })
def st271 : State := onPcr sUp (fun p => { p with stopped := true, perst := true, pd := 0xEFFFFDFF })
def st272 : State := onPcr sUp (fun p => { p with perst := true })
def st273 : State := onPcr sUp (fun p => { p with perst := false })
def st274 : State := onPcr sUp (fun p => { p with stopped := true, pd := 0xEFFFFFFF })
def pfs (n c : Nat) : State := onPcr sUp (fun p => { p with pf := n, pfCause := c })
def st275 : State := pfs 0 0
def st276 : State := pfs 1 1
def st277 : State := pfs 2 1
def st278 : State := pfs 3 1
def st279 : State := pfs 4 1
def st280 : State := pfs 5 1
def st281 : State := onPcr sUp (fun p => { p with supplyHold := true, railFar := [3] })
def st282 : State := onPcr sUp (fun p => { p with sysClk := false })

/-- The hypotheses of the clauses of MeteringTicksAndShortBoundaries are met. -/
theorem witness_MeteringTicksAndShortBoundaries :
    (st182.wgb.powered = true ∧ st182.wgb.tcxoOk = true ∧ st182.wgb.short = none) ∧
    (st183.wgb.powered = true ∧ st183.wgb.tcxoOk = true ∧ st183.wgb.short = none) ∧
    (st184.wgb.powered = false ∨ st184.wgb.tcxoOk = false) ∧
    (st185.wgb.powered = true ∧ st185.wgb.tcxoOk = true ∧ st185.wgb.short = none) ∧
    (st186.wgb.powered = true ∧ st186.wgb.tcxoOk = true ∧ st186.wgb.short = some 97 ∧ st186.wgb.t < 97 ∧
      (¬(st186.wgb.len ≠ 0 ∧ 97 % (st186.wgb.len * 10 ^ 7) = 0)) ∧ st186.wgb.audit.length < 4095) ∧
    (st187.wgb.powered = true ∧ st187.wgb.tcxoOk = true ∧ st187.wgb.short = some 18000000000 ∧ st187.wgb.t <
      18000000000 ∧ st187.wgb.len ≠ 0 ∧ 18000000000 % (st187.wgb.len * 10 ^ 7) = 0) :=
  ⟨by decide +kernel,
   by decide +kernel,
   by decide +kernel,
   by decide +kernel,
   by decide +kernel,
   by decide +kernel⟩

/-- The hypotheses of the clauses of TapFramesAndClosedIntervals are met. -/
theorem witness_TapFramesAndClosedIntervals :
    (st188.wgb.powered = true ∧ st188.fab.taps.frames = fr0 :: op189 ∧ st188.wgb.tcxoOk = true ∧ fr0.tap < 8 ∧
      st188.wgb.closing = op190 :: op191 ∧ fr0.endT ≤ op190.stop ∧ fr0.reset = false ∧ fr0.full = false ∧ vget
      st188.wgb.tapSeq 0 fr0.tap = fr0.seq) ∧
    (st192.wgb.powered = true ∧ st192.fab.taps.frames = op193 :: op194 ∧ st192.wgb.tcxoOk = true ∧ op193.tap < 8 ∧
      st192.wgb.closing = op195 :: op196 ∧ op193.endT ≤ op195.stop ∧ op193.reset = false ∧ op193.full = false ∧ vget
      st192.wgb.tapSeq 0 op193.tap = op193.seq) ∧
    (st197.wgb.powered = true ∧ st197.fab.taps.frames = op198 :: op189 ∧ st197.wgb.tcxoOk = true ∧ 8 ≤ op198.tap ∧
      op198.tap < 18 ∧ st197.wgb.closing = [] ∧ op198.reset = false ∧ vget st197.wgb.tapSeq 0 op198.tap = op198.seq) ∧
    (st199.wgb.powered = true ∧ st199.fab.taps.frames = op200 :: op194 ∧ st199.wgb.tcxoOk = true ∧ 8 ≤ op200.tap ∧
      op200.tap < 18 ∧ st199.wgb.closing = [] ∧ op200.reset = false ∧ vget st199.wgb.tapSeq 0 op200.tap = op200.seq) ∧
    (st201.wgb.powered = true ∧ st201.fab.taps.frames = fr0 :: op194 ∧ st201.wgb.tcxoOk = false ∧ fr0.tap < 18) ∧
    (st202.wgb.powered = true ∧ st202.fab.taps.frames = op203 :: op194 ∧ st202.wgb.tcxoOk = false ∧ op203.tap < 18) ∧
    (st204.wgb.powered = true ∧ st204.fab.taps.frames = op193 :: op194 ∧ st204.wgb.tcxoOk = true ∧ op193.tap < 8 ∧
      st204.wgb.closing = [] ∧ op193.reset = false ∧ op193.full = false ∧ vget st204.wgb.tapSeq 0 op193.tap =
      op193.seq) ∧
    (st205.wgb.powered = true ∧ st205.fab.taps.frames = fr0 :: op189 ∧ st205.wgb.tcxoOk = true ∧ fr0.tap < 8 ∧
      st205.wgb.closing = [] ∧ fr0.reset = false ∧ fr0.full = false ∧ vget st205.wgb.tapSeq 0 fr0.tap = fr0.seq) :=
  ⟨by decide +kernel,
   by decide +kernel,
   by decide +kernel,
   by decide +kernel,
   by decide +kernel,
   by decide +kernel,
   by decide +kernel,
   by decide +kernel⟩

/-- The hypotheses of the clauses of TapFramesAndClosedIntervals are met. -/
theorem witness_TapFramesAndClosedIntervals_2 :
    (st205.wgb.powered = true ∧ st205.fab.taps.frames = fr0 :: op189 ∧ st205.wgb.tcxoOk = true ∧ fr0.tap < 18 ∧
      st205.wgb.audit.length < 4095) ∧
    (st206.wgb.powered = true ∧ st206.wgb.closing = op207 :: op208 ∧ (∀ k < 18, k ∈ op207.seen)) ∧
    (st209.wgb.powered = true ∧ st209.wgb.closing = op210 :: op208 ∧ (∃ k < 18, k ∉ op210.seen)) :=
  ⟨by decide +kernel,
   by decide +kernel,
   by decide +kernel⟩

/-- The hypotheses of the clauses of WeighbridgeSupplyAndClock are met. -/
theorem witness_WeighbridgeSupplyAndClock :
    (st211.wgb.powered = false ∧ st211.wgb.ring.getLast? = some op212 ∧ st211.wgb.sealed = true) ∧
    (sWgb.wgb.powered = true ∧ sWgb.wgb.tcxoOk = true ∧ sWgb.wgb.audit.length < 4095) ∧
    (st184.wgb.powered = true ∧ st184.wgb.tcxoOk = false) :=
  ⟨by decide +kernel,
   by decide +kernel,
   by decide +kernel⟩

/-- The hypotheses of the clauses of ReadoutsCarryBodyTrailerAndSignature are met. -/
theorem witness_ReadoutsCarryBodyTrailerAndSignature :
    (1 < 2 ∧ sWgb.wgb.powered = true) ∧
    (0 < 2 ∧ st214.wgb.powered = true ∧ 0 = 0) ∧
    (1 < 2 ∧ st214.wgb.powered = true ∧ 1 = 1 ∧ st214.wgb.audit.length < 4095) ∧
    (0 < 2 ∧ st216.wgb.powered = true ∧ 15 ≤ 15 ∧ 3 ≤ 3 ∧ (List.flatMap st216.wgb.blockRecs (st216.wgb.range 15 3
      3)).length ≤ 65535) ∧
    (0 < 2 ∧ st217.wgb.powered = true ∧ 1 ≤ 1 ∧ 255 + 1 ≤ 256) ∧
    (1 < 2 ∧ st217.wgb.powered = true ∧ 1 ≤ 256 ∧ 0 + 256 ≤ 256) ∧
    (1 < 2 ∧ st218.wgb.powered = true ∧ 65535 ≤ 65535) :=
  ⟨by decide +kernel,
   by decide +kernel,
   by decide +kernel,
   by decide +kernel,
   by decide +kernel,
   by decide +kernel,
   by decide +kernel⟩

/-- The hypotheses of the clauses of SettingUpSealingAndStewardCommands are met. -/
theorem witness_SettingUpSealingAndStewardCommands :
    (sWgb.wgb.powered = true ∧ sWgb.wgb.sealed = false ∧ 1 ≤ 3600 ∧ 3600 ≤ 3600) ∧
    (st220.wgb.powered = true ∧ st220.wgb.sealed = false ∧ st220.wgb.len ≠ 0 ∧ st220.wgb.tested = true) ∧
    (st223.wgb.powered = true ∧ st223.wgb.sealed = true ∧ st223.wgb.audit.length < 4095 ∧ op228 ∈ [(Instr.setParams 0
      1 true, 16), (Instr.loadPatch 0 true op224 true, 17), (Instr.seal 0 true op225 op226 op227 true, 18)]) ∧
    (st223.wgb.powered = true ∧ st223.wgb.sealed = true ∧ st223.wgb.audit.length < 4095 ∧ op229 ∈ [(Instr.setParams 0
      1 true, 16), (Instr.loadPatch 0 true op224 true, 17), (Instr.seal 0 true op225 op226 op227 true, 18)]) ∧
    (st223.wgb.powered = true ∧ st223.wgb.sealed = true ∧ st223.wgb.audit.length < 4095 ∧ op230 ∈ [(Instr.setParams 0
      1 true, 16), (Instr.loadPatch 0 false op224 true, 17), (Instr.seal 0 false op225 op226 op227 true, 18)]) ∧
    (sWgb.wgb.powered = true ∧ sWgb.wgb.tcxoOk = true ∧ sWgb.wgb.audit.length < 4095) :=
  ⟨by decide +kernel,
   by decide +kernel,
   by decide +kernel,
   by decide +kernel,
   by decide +kernel,
   by decide +kernel⟩

/-- The hypotheses of the clauses of ResetsStartTheDeviceAnew are met. -/
theorem witness_ResetsStartTheDeviceAnew :
    (State.reset.pcr.porst = true) ∧
    (sUp.pcr.porst = false ∧ sUp.pcr.supplyHold = false) ∧
    (st233.pcr.porst = false ∧ st233.pcr.supplyHold = false ∧ st233.stw.resetDue = true) ∧
    (sUp.stw.resetDue = false) :=
  ⟨by decide +kernel,
   by decide +kernel,
   by decide +kernel,
   by decide +kernel⟩

/-- The hypotheses of the clauses of StartAndBringUpRunTheirSteps are met. -/
theorem witness_StartAndBringUpRunTheirSteps :
    (st234.pcr.porst = false ∧ st234.pcr.supplyHold = false ∧ st234.pcr.pf = 0 ∧ st234.pcr.quiescent = false ∧
      st234.pcr.startup = 1) ∧
    (st235.pcr.porst = false ∧ st235.pcr.supplyHold = false ∧ st235.pcr.pf = 0 ∧ st235.pcr.quiescent = false ∧
      st235.pcr.startup = 2) ∧
    (st236.pcr.porst = false ∧ st236.pcr.supplyHold = false ∧ st236.pcr.pf = 0 ∧ st236.pcr.quiescent = false ∧
      st236.pcr.startup = 3) ∧
    (st237.pcr.porst = false ∧ st237.pcr.supplyHold = false ∧ st237.pcr.pf = 0 ∧ st237.pcr.quiescent = false ∧
      st237.pcr.startup = 4) ∧
    (st238.pcr.porst = false ∧ st238.pcr.supplyHold = false ∧ st238.pcr.pf = 0 ∧ st238.pcr.quiescent = false ∧
      st238.pcr.startup = 5) ∧
    (st239.pcr.porst = false ∧ st239.pcr.supplyHold = false ∧ st239.pcr.pf = 0 ∧ st239.pcr.quiescent = false ∧
      st239.pcr.startup = 5) ∧
    (st240.pcr.porst = false ∧ st240.pcr.supplyHold = false ∧ st240.pcr.pf = 0 ∧ st240.pcr.quiescent = false ∧
      st240.pcr.startup = 7) ∧
    (st241.pcr.porst = false ∧ st241.pcr.supplyHold = false ∧ st241.pcr.pf = 0 ∧ st241.pcr.quiescent = false ∧
      st241.pcr.startup = 8 ∧ st241.fab.portHeld = []) :=
  ⟨by decide +kernel,
   by decide +kernel,
   by decide +kernel,
   by decide +kernel,
   by decide +kernel,
   by decide +kernel,
   by decide +kernel,
   by decide +kernel⟩

/-- The hypotheses of the clauses of StartAndBringUpRunTheirSteps are met. -/
theorem witness_StartAndBringUpRunTheirSteps_2 :
    (st242.pcr.startup = 5 ∧ 1 ≤ st242.pcr.bring.hbmStep ∧ st242.pcr.bring.hbmStep < 4) ∧
    (st244.pcr.startup = 5 ∧ 1 ≤ st244.pcr.bring.hbmStep ∧ st244.pcr.bring.hbmStep < 4) ∧
    (st246.pcr.startup = 5 ∧ 1 ≤ st246.pcr.bring.hbmStep ∧ st246.pcr.bring.hbmStep < 4) ∧
    (st242.pcr.startup = 5 ∧ st242.pcr.bring.ddrStep = 4) ∧
    (st249.pcr.startup = 5 ∧ st249.pcr.bring.ddrStep = 5) ∧
    (st250.pcr.startup = 5 ∧ st250.pcr.bring.ddrStep = 5) ∧
    (st252.pcr.startup = 5 ∧ st252.pcr.bring.ddrStep = 5) ∧
    (st254.pcr.startup = 5 ∧ st254.pcr.bring.ddrStep = 6) :=
  ⟨by decide +kernel,
   by decide +kernel,
   by decide +kernel,
   by decide +kernel,
   by decide +kernel,
   by decide +kernel,
   by decide +kernel,
   by decide +kernel⟩

/-- The hypotheses of the clauses of StartAndBringUpRunTheirSteps are met. -/
theorem witness_StartAndBringUpRunTheirSteps_3 :
    (st255.pcr.startup = 5 ∧ st255.pcr.bring.ddrStep = 6) ∧
    (st257.pcr.startup = 5 ∧ st257.pcr.bring.ddrStep = 7) ∧
    (st258.pcr.startup = 5 ∧ st258.pcr.bring.ddrStep = 7) :=
  ⟨by decide +kernel,
   by decide +kernel,
   by decide +kernel⟩

/-- The hypotheses of the clauses of TheStewardRestarts are met. -/
theorem witness_TheStewardRestarts :
    (st260.stw.up = true ∧ st260.stw.safe = false ∧ (∀ (e : ℕ), st260.stw.lastExpiry = some e → e + 1000000 ≤
      st260.pcr.aon)) ∧
    (st261.stw.up = true ∧ st261.stw.safe = false ∧ st261.stw.lastExpiry = some 5 ∧ st261.pcr.aon < 5 + 1000000 ∧
      st261.stw.otherTried = false) ∧
    (st262.stw.up = true ∧ st262.stw.safe = false ∧ st262.stw.lastExpiry = some 5 ∧ st262.pcr.aon < 5 + 1000000 ∧
      st262.stw.otherTried = true) ∧
    (st263.stw.up = false) ∧
    (st264.stw.loading = some (1, false) ∧ st264.on 28 = true) ∧
    (st265.stw.loading = some (1, true) ∧ st265.on 28 = true) ∧
    (st263.stw.loading = some (0, false) ∧ st263.on 28 = true) ∧
    (st266.stw.loading = some (0, false) ∧ st266.on 28 = true) :=
  ⟨by decide +kernel,
   by decide +kernel,
   by decide +kernel,
   by decide +kernel,
   by decide +kernel,
   by decide +kernel,
   by decide +kernel,
   by decide +kernel⟩

/-- The hypotheses of the clauses of TheStewardRestarts are met. -/
theorem witness_TheStewardRestarts_2 :
    (st267.stw.up = false ∧ st267.stw.loading = none ∧ st267.on 28 = true ∧ 4 ≤ st267.pcr.startup ∧ st267.stw.step =
      0) ∧
    (st268.stw.activating = true) ∧
    (st269.stw.up = true ∧ st269.stw.trial.isSome = true ∧ st269.stw.running = st269.stw.jrnl.preferred) :=
  ⟨by decide +kernel,
   by decide +kernel,
   by decide +kernel⟩

/-- The hypotheses of the clauses of PciExpressResetAndDomains are met. -/
theorem witness_PciExpressResetAndDomains :
    (sUp.on 9 = true) ∧
    (st270.on 9 = false ∧ st270.on 28 = true ∧ st270.started = true) ∧
    (st271.on 9 = false ∧ st271.on 28 = false ∧ st271.started = true) ∧
    (st272.pcieMayStop = true ∧ st272.pcr.stopped = false) ∧
    (st273.pcieMayStop = false) ∧
    (st274.started = true ∧ st274.on 28 = false) ∧
    (sUp.on 28 = true) :=
  ⟨by decide +kernel,
   by decide +kernel,
   by decide +kernel,
   by decide +kernel,
   by decide +kernel,
   by decide +kernel,
   by decide +kernel⟩

/-- The hypotheses of the clauses of PowerFailureAndConditions are met. -/
theorem witness_PowerFailureAndConditions :
    (st275.pcr.porst = false ∧ st275.pcr.supplyHold = false ∧ st275.pcr.pf = 0 ∧ st275.pcr.quiescent = false) ∧
    (st276.pcr.porst = false ∧ st276.pcr.supplyHold = false ∧ st276.pcr.pf = 1) ∧
    (st277.pcr.porst = false ∧ st277.pcr.supplyHold = false ∧ st277.pcr.pf = 2) ∧
    (st278.pcr.porst = false ∧ st278.pcr.supplyHold = false ∧ st278.pcr.pf = 3) ∧
    (st279.pcr.porst = false ∧ st279.pcr.supplyHold = false ∧ st279.pcr.pf = 4) ∧
    (st280.pcr.porst = false ∧ st280.pcr.supplyHold = false ∧ st280.pcr.pf = 5 ∧ st280.pcr.pfCause.testBit 1 = false) ∧
    (7 < 8 ∧ sUp.pcr.porst = false ∧ sUp.pcr.supplyHold = false ∧ sUp.pcr.pf = 0 ∧ sUp.pcr.quiescent = false) ∧
    (st281.pcr.supplyHold = true ∧ st281.pcr.porst = false ∧ (∀ r ∈ st281.pcr.railFar, r = 3)) :=
  ⟨by decide +kernel,
   by decide +kernel,
   by decide +kernel,
   by decide +kernel,
   by decide +kernel,
   by decide +kernel,
   by decide +kernel,
   by decide +kernel⟩

/-- The hypotheses of the clauses of PowerFailureAndConditions are met. -/
theorem witness_PowerFailureAndConditions_2 :
    (sUp.pcr.sysClk = true) ∧
    (st282.pcr.sysClk = false) :=
  ⟨by decide +kernel,
   by decide +kernel⟩

end W04

namespace W05

def lk (a : Nat) (g : Link → Link) : State := link sUp a g
def st283 : State := lk 2 (fun l => { l with st := .detect, decl := some 5, fails := 1 })
def st284 : State := lk 32 (fun l => { l with st := .detect })
def st285 : State := lk 31 (fun l => { l with st := .detect, resume := some .active })
def st286 : State := lk 2 (fun l => { l with st := .polling, resume := some .active })
def st287 : State := lk 2 (fun l => { l with st := .polling, rate := 1 })
def st288 : State := lk 32 (fun l => { l with st := .polling, rate := 0, resume := some .active })
def st289 : State := lk 2 (fun l => { l with st := .polling, rate := 2, decl := some 4 })
def st290 : State := lk 2 (fun l => { l with st := .configure, rate := 2, fails := 1 })
def st291 : State := lk 2 (fun l => { l with st := .configure, decl := some 0x100, slot := some 3, live := [4], txq := [⟨5, []⟩] })
def st292 : State := lk 2 (fun l => { l with st := .configure, rate := 2, fails := 2 })
def st293 : State := lk 2 (fun l => { l with st := .declare, rate := 2, fails := 1, decl := some 6, slot := some 3 })
def st294 : State := lk 32 (fun l => { l with st := .declare, rate := 2, fails := 1 })
def st295 : State := lk 31 (fun l => { l with st := .declare, fails := 2 })
def st296 : State := lk 31 (fun l => { l with st := .declare, fails := 2, decl := some 0x100 })
def st297 : State := lk 31 (fun l => { l with st := .recovery, decl := some 5, replay := [(3, 5)], resume := some .active, txq := [⟨5, []⟩], credit := Vector.replicate 8 9 })
def st298 : State := lk 2 (fun l => { l with st := .recovery, decl := some 5, live := [4], txq := [⟨5, []⟩] })
def st299 : State := lk 2 (fun l => { l with st := .recovery, resume := some .declare, pairBad := 4 })
def nodeg (s : State) : State := onCfg s (fun c => { c with wlp := c.wlp.map (fun _ => 0x00AF0001) })
def splt (s : State) : State := onCfg s (fun c => { c with wlp := c.wlp.map (fun _ => 0x00AF0013) })
def st300 : State := lk 2 (fun l => { l with st := .recovery, width := 2, decl := some 5, rate := 1 })
def op301 : BitVec 8 := 0x1F
def st302 : State := splt (lk 3 (fun l => { l with st := .recovery, width := 1, decl := some 5, rate := 1 }))
def op303 : BitVec 8 := 0
def st304 : State := lk 2 (fun l => { l with st := .recovery, width := 0, decl := some 5, rate := 2 })
def op305 : BitVec 8 := 0x01
def st306 : State := nodeg (lk 2 (fun l => { l with st := .recovery, width := 0, decl := some 0x100, rate := 2, replay := [(3, 4)], txq := [⟨5, []⟩] }))
def st307 : State := nodeg (lk 2 (fun l => { l with st := .recovery }))
def op308 : BitVec 8 := 1
def st309 : State := lk 2 (fun l => { l with st := .fenced, stopSeq := true, decl := some 5, err := { l.err with transient := 5 } })
def st310 : State := onCfg (lk 2 (fun l => { l with st := .disabled, stopSeq := true })) (fun c => { c with wlp := c.wlp.map (fun _ => 0) })
def st311 : State := onCfg (lk 2 (fun l => { l with st := .fenced, stopSeq := true })) (fun c => { c with wlp := c.wlp.map (fun _ => 0) })
def st312 : State := lk 2 (fun l => { l with st := .fenced })
def fl (lo crc : Nat) : Flit := BitVec.ofNat 2048 (lo + crc * 2 ^ 1984)
def f1 (seq ack : Nat) : Flit := mkFlit 1 seq ack false 0 [] []
def hd : BitVec 40 := 0x000005AC3
def n4 (lo crc : Nat) : List Flit := List.replicate 4 (fl lo crc)
theorem good_null : flitGood (fl 268369920 17928899008575590504) = true := by decide +kernel
theorem good_first : flitGood (fl 268369921 2946953250410541695) = true := by decide +kernel
theorem good_last : flitGood (fl 558446354062376945 15847121543971900159) = true := by decide +kernel
def st313 : State := lk 2 (fun l => { active l with rxNext := 3, err := { l.err with fecUncorr := 255 } })
def op314 : BitVec 40 := 0
def op315 : List Flit := fl 268369985 14336501979920979281 :: n4 458752 10042263526509211173
def st316 : State := lk 2 (fun l => { active l with rxNext := 0, txq := [⟨5, []⟩], withhold := false, pairBad := 2 })
def op317 : Flit := fl 268369921 2946953250410541695
def op318 : List Flit := n4 268369920 17928899008575590504
def st319 : State := lk 2 (fun l => { active l with rxNext := 4095, nak := true, crOver := true, afterRec := true })
def op320 : Flit := fl 558446354062376945 15847121543971900159
def st321 : State := lk 2 (fun l => { active l with rxNext := 0, nak := true, rxJudged := true })
def st322 : State := lk 2 (fun l => { active l with rxNext := 4095 })
def st323 : State := lk 2 (fun l => { active l with rxNext := 4095, replay := [(0, f1 0 4095), (1, f1 1 4095)] })
def st324 : State := lk 2 (fun l => { active l with rxNext := 4095, replay := [(0, f1 0 4095), (1, f1 1 4095)], replayOf := some 0 })
def st325 : State := onFab (lk 2 (fun l => { l with st := .declare })) (fun f => { f with draining := true })
def op326 : Line := 5
def dcl (kind sets ways uid : Nat) : Line := BitVec.ofNat 512 (leNat ([1, kind, sets, ways, 64, 0, 0, 0] ++ leBytes uid 8 ++ leBytes 64 2 ++ leBytes 64 2 ++ leBytes 320 2 ++ leBytes 4 2))
def st327 : State := lk 2 (fun l => { l with st := .declare, refusals := 1 })
def st328 : State := lk 2 (fun l => { l with st := .declare, refusals := 2 })
def st329 : State := lk 2 (fun l => { l with st := .declare, withhold := true })
def op330 : Line := dcl 1 6 4 5
def st331 : State := lk 31 (fun l => { l with st := .declare })
def op332 : Line := dcl 2 14 16 5
def op333 : Line := dcl 0x10 0 0 5
def st334 : State := lk 2 (fun l => { l with st := .active })

/-- The hypotheses of the clauses of LinksTrainAndRecover are met. -/
theorem witness_LinksTrainAndRecover :
    (st283.linkOn 2 = true ∧ (st283.fab.link 2).st = LinkState.detect) ∧
    (st284.linkOn 32 = true ∧ (st284.fab.link 32).st = LinkState.detect) ∧
    (st285.linkOn 31 = true ∧ (st285.fab.link 31).st = LinkState.detect) ∧
    (st286.linkOn 2 = true ∧ (st286.fab.link 2).st = LinkState.polling) ∧
    (st287.linkOn 2 = true ∧ (st287.fab.link 2).st = LinkState.polling ∧ (st287.fab.link 2).rate.toNat < 2) ∧
    (st288.linkOn 32 = true ∧ (st288.fab.link 32).st = LinkState.polling ∧ (st288.fab.link 32).rate.toNat < 2) ∧
    (st289.linkOn 2 = true ∧ (st289.fab.link 2).st = LinkState.polling ∧ 2 ≤ (st289.fab.link 2).rate.toNat ∧
      (st289.fab.link 2).resume = none) ∧
    (st290.linkOn 2 = true ∧ (st290.fab.link 2).st = LinkState.configure ∧ (((if 2 ≠ 32 ∧ st290.fab.admitted 2 = true
      then Fabric.depart st290.cfg st290.fab 2 else st290.fab).link 2).fails < 2)) :=
  ⟨by decide +kernel,
   by decide +kernel,
   by decide +kernel,
   by decide +kernel,
   by decide +kernel,
   by decide +kernel,
   by decide +kernel,
   by decide +kernel⟩

/-- The hypotheses of the clauses of LinksTrainAndRecover are met. -/
theorem witness_LinksTrainAndRecover_2 :
    (st291.linkOn 2 = true ∧ (st291.fab.link 2).st = LinkState.configure ∧ (((if 2 ≠ 32 ∧ st291.fab.admitted 2 = true
      then Fabric.depart st291.cfg st291.fab 2 else st291.fab).link 2).fails < 2)) ∧
    (st292.linkOn 2 = true ∧ 2 < 32 ∧ (st292.fab.link 2).st = LinkState.configure ∧ (2 ≤ ((if 2 ≠ 32 ∧
      st292.fab.admitted 2 = true then Fabric.depart st292.cfg st292.fab 2 else st292.fab).link 2).fails)) ∧
    (st293.linkOn 2 = true ∧ (st293.fab.link 2).st = LinkState.declare ∧ (st293.fab.link 2).held = none ∧ (((if 2 ≠
      32 ∧ st293.fab.admitted 2 = true then Fabric.depart st293.cfg st293.fab 2 else st293.fab).link 2).fails < 2)) ∧
    (st294.linkOn 32 = true ∧ (st294.fab.link 32).st = LinkState.declare ∧ (st294.fab.link 32).held = none ∧ (((if 32
      ≠ 32 ∧ st294.fab.admitted 32 = true then Fabric.depart st294.cfg st294.fab 32 else st294.fab).link 32).fails <
      2)) ∧
    (st295.linkOn 31 = true ∧ 31 < 32 ∧ (st295.fab.link 31).st = LinkState.declare ∧ (st295.fab.link 31).held = none
      ∧ (2 ≤ ((if 31 ≠ 32 ∧ st295.fab.admitted 31 = true then Fabric.depart st295.cfg st295.fab 31 else
      st295.fab).link 31).fails)) ∧
    (st296.linkOn 31 = true ∧ 31 < 32 ∧ (st296.fab.link 31).st = LinkState.declare ∧ (st296.fab.link 31).held = none
      ∧ (2 ≤ ((if 31 ≠ 32 ∧ st296.fab.admitted 31 = true then Fabric.depart st296.cfg st296.fab 31 else
      st296.fab).link 31).fails)) ∧
    (st297.linkOn 31 = true ∧ 31 < 32 ∧ (st297.fab.link 31).st = LinkState.recovery ∧ ((st297.fab.link 31).resume =
      none ∨ (st297.fab.link 31).resume = some LinkState.active)) ∧
    (st298.linkOn 2 = true ∧ 2 < 32 ∧ (st298.fab.link 2).st = LinkState.recovery ∧ ((st298.fab.link 2).resume = none
      ∨ (st298.fab.link 2).resume = some LinkState.active)) :=
  ⟨by decide +kernel,
   by decide +kernel,
   by decide +kernel,
   by decide +kernel,
   by decide +kernel,
   by decide +kernel,
   by decide +kernel,
   by decide +kernel⟩

/-- The hypotheses of the clauses of LinksTrainAndRecover are met. -/
theorem witness_LinksTrainAndRecover_3 :
    (st299.linkOn 2 = true ∧ 2 < 32 ∧ (st299.fab.link 2).st = LinkState.recovery ∧ (st299.fab.link 2).resume = some
      LinkState.declare) ∧
    (st300.linkOn 2 = true ∧ 2 < 32 ∧ (st300.fab.link 2).st = LinkState.recovery ∧ st300.cfg.allowDegrade (2 / 2) =
      true ∧ (st300.fab.link 2).rate.toNat < 2 ∧ (if st300.cfg.isHalf 2 = true then op301 = 0#8 else (st300.fab.link
      2).width = 0 → (BitVec.extractLsb' 0 4 op301 = 0#4 ↔ BitVec.extractLsb' 4 4 op301 = 0#4))) ∧
    (st302.linkOn 3 = true ∧ 3 < 32 ∧ (st302.fab.link 3).st = LinkState.recovery ∧ st302.cfg.allowDegrade (3 / 2) =
      true ∧ (st302.fab.link 3).rate.toNat < 2 ∧ (if st302.cfg.isHalf 3 = true then op303 = 0#8 else (st302.fab.link
      3).width = 0 → (BitVec.extractLsb' 0 4 op303 = 0#4 ↔ BitVec.extractLsb' 4 4 op303 = 0#4))) ∧
    (st304.linkOn 2 = true ∧ 2 < 32 ∧ (st304.fab.link 2).st = LinkState.recovery ∧ st304.cfg.allowDegrade (2 / 2) =
      true ∧ st304.cfg.isHalf 2 = false ∧ (st304.fab.link 2).width = 0 ∧ ¬(BitVec.extractLsb' 0 4 op305 = 0#4 ↔
      BitVec.extractLsb' 4 4 op305 = 0#4)) ∧
    (st306.linkOn 2 = true ∧ 2 < 32 ∧ (st306.fab.link 2).st = LinkState.recovery ∧ (st306.cfg.allowDegrade (2 / 2) =
      false ∨ st306.cfg.isHalf 2 = true ∧ op305 ≠ 0#8 ∨ 2 ≤ (st306.fab.link 2).rate.toNat ∧ (st306.cfg.isHalf 2 =
      true ∨ (st306.fab.link 2).width ≠ 0 ∨ (BitVec.extractLsb' 0 4 op305 = 0#4 ↔ BitVec.extractLsb' 4 4 op305 =
      0#4)))) ∧
    (st307.linkOn 2 = true ∧ 2 < 32 ∧ (st307.fab.link 2).st = LinkState.recovery ∧ (st307.cfg.allowDegrade (2 / 2) =
      false ∨ st307.cfg.isHalf 2 = true ∧ op303 ≠ 0#8 ∨ 2 ≤ (st307.fab.link 2).rate.toNat ∧ (st307.cfg.isHalf 2 =
      true ∨ (st307.fab.link 2).width ≠ 0 ∨ (BitVec.extractLsb' 0 4 op303 = 0#4 ↔ BitVec.extractLsb' 4 4 op303 =
      0#4)))) ∧
    (st302.linkOn 3 = true ∧ 3 < 32 ∧ (st302.fab.link 3).st = LinkState.recovery ∧ (st302.cfg.allowDegrade (3 / 2) =
      false ∨ st302.cfg.isHalf 3 = true ∧ op308 ≠ 0#8 ∨ 2 ≤ (st302.fab.link 3).rate.toNat ∧ (st302.cfg.isHalf 3 =
      true ∨ (st302.fab.link 3).width ≠ 0 ∨ (BitVec.extractLsb' 0 4 op308 = 0#4 ↔ BitVec.extractLsb' 4 4 op308 =
      0#4)))) ∧
    (st309.linkOn 2 = true ∧ 2 < 32 ∧ (st309.fab.link 2).stopSeq = true ∧ ((st309.fab.link 2).st = LinkState.fenced ∨
      (st309.fab.link 2).st = LinkState.disabled) ∧ (st309.fab.ordOf 2).items = [] ∧ (st309.fab.ordOf 2).short = [] ∧
      st309.cfg.halfUsed 2 = true) :=
  ⟨by decide +kernel,
   by decide +kernel,
   by decide +kernel,
   by decide +kernel,
   by decide +kernel,
   by decide +kernel,
   by decide +kernel,
   by decide +kernel⟩

/-- The hypotheses of the clauses of LinksTrainAndRecover are met. -/
theorem witness_LinksTrainAndRecover_4 :
    (st310.linkOn 2 = true ∧ 2 < 32 ∧ (st310.fab.link 2).stopSeq = true ∧ ((st310.fab.link 2).st = LinkState.fenced ∨
      (st310.fab.link 2).st = LinkState.disabled) ∧ (st310.fab.ordOf 2).items = [] ∧ (st310.fab.ordOf 2).short = [] ∧
      st310.cfg.halfUsed 2 = false ∧ (st310.fab.link 2).st = LinkState.disabled) ∧
    (st311.linkOn 2 = true ∧ 2 < 32 ∧ (st311.fab.link 2).stopSeq = true ∧ ((st311.fab.link 2).st = LinkState.fenced ∨
      (st311.fab.link 2).st = LinkState.disabled) ∧ (st311.fab.ordOf 2).items = [] ∧ (st311.fab.ordOf 2).short = [] ∧
      st311.cfg.halfUsed 2 = false ∧ (st311.fab.link 2).st = LinkState.fenced) ∧
    (st312.linkOn 2 = true ∧ ((st312.fab.link 2).stopSeq = false ∨ (st312.fab.link 2).st ≠ LinkState.fenced ∧
      (st312.fab.link 2).st ≠ LinkState.disabled)) :=
  ⟨by decide +kernel,
   by decide +kernel,
   by decide +kernel⟩

/-- The hypotheses of the clauses of LinksCarryPairsAndDeclarations are met. -/
theorem witness_LinksCarryPairsAndDeclarations :
    (2 < 32 ∧ st313.linkOn 2 = true ∧ (st313.fab.link 2).st = LinkState.active ∧ (st313.fab.link 2).stopSeq = false ∧
      (15 < 16 ∨ 15 < 0) ∧ op315.length = 5 ∧ (∀ f ∈ op315, flType f ≠ 1 ∨ flSeq f ≠ (st313.fab.link 2).rxNext)) ∧
    (2 < 32 ∧ st316.linkOn 2 = true ∧ (st316.fab.link 2).st = LinkState.active ∧ (st316.fab.link 2).stopSeq = false ∧
      15 ≤ 15 ∧ 15 ≤ 15 ∧ (BitVec.extractLsb' 0 16 hd = 23235#16 ∧ BitVec.extractLsb' 16 8 hd = (st316.fab.link
      2).pairExp) ∧ op318.length = 4 ∧ (∀ n ∈ op318, flitGood n = true ∧ flType n = 0 ∧ nullClean n = true ∧ flAck n
      = (st316.fab.link 2).ackIn ∧ flNak n = false) ∧ flitGood op317 = true ∧ flType op317 = 1 ∧ flSeq op317 =
      (st316.fab.link 2).rxNext ∧ flAck op317 = (st316.fab.link 2).ackIn ∧ flNak op317 = false ∧ (∀ c ∈ flCredits
      op317, c.1 = 0 ∨ c.1 = 7) ∧ (∀ i < 15, flStart op317 i = false) ∧ (st316.fab.link 2).part = none ∧
      ((st316.fab.link 2).nak = true → (st316.fab.link 2).rxJudged = false → (bvSat (st316.fab.link 2).err.transient
      1).toNat % 1024 ≠ 0)) :=
  ⟨by refine ⟨?_, ?_, ?_, ?_, ?_, ?_, List.forall_mem_cons.mpr ⟨by decide +kernel, fun n hn => by rw [List.eq_of_mem_replicate hn]; decide +kernel⟩⟩ <;> decide +kernel,
   by refine ⟨?_, ?_, ?_, ?_, ?_, ?_, ?_, ?_, (fun n hn => by rw [List.eq_of_mem_replicate hn]; exact ⟨good_null, by decide +kernel, by decide +kernel, by decide +kernel, by decide +kernel⟩), good_first, ?_, ?_, ?_, ?_, ?_, ?_, ?_, ?_⟩ <;> decide +kernel⟩

/-- The hypotheses of the clauses of LinksCarryPairsAndDeclarations are met. -/
theorem witness_LinksCarryPairsAndDeclarations_2 :
    (2 < 32 ∧ st319.linkOn 2 = true ∧ (st319.fab.link 2).st = LinkState.active ∧ (st319.fab.link 2).stopSeq = false ∧
      15 ≤ 15 ∧ 15 ≤ 15 ∧ (BitVec.extractLsb' 0 16 hd = 23235#16 ∧ BitVec.extractLsb' 16 8 hd = (st319.fab.link
      2).pairExp) ∧ op318.length = 4 ∧ (∀ n ∈ op318, flitGood n = true ∧ flType n = 0 ∧ nullClean n = true ∧ flAck n
      = (st319.fab.link 2).ackIn ∧ flNak n = false) ∧ flitGood op320 = true ∧ flType op320 = 1 ∧ flSeq op320 =
      (st319.fab.link 2).rxNext ∧ flAck op320 = (st319.fab.link 2).ackIn ∧ flNak op320 = false ∧ (∀ c ∈ flCredits
      op320, c.1 = 0 ∨ c.1 = 7) ∧ (∀ i < 15, flStart op320 i = false) ∧ (st319.fab.link 2).part = none ∧
      ((st319.fab.link 2).nak = true → (st319.fab.link 2).rxJudged = false → (bvSat (st319.fab.link 2).err.transient
      1).toNat % 1024 ≠ 0)) ∧
    (2 < 32 ∧ st321.linkOn 2 = true ∧ (st321.fab.link 2).st = LinkState.active ∧ (st321.fab.link 2).stopSeq = false ∧
      15 ≤ 15 ∧ 15 ≤ 15 ∧ (BitVec.extractLsb' 0 16 hd = 23235#16 ∧ BitVec.extractLsb' 16 8 hd = (st321.fab.link
      2).pairExp) ∧ op318.length = 4 ∧ (∀ n ∈ op318, flitGood n = true ∧ flType n = 0 ∧ nullClean n = true ∧ flAck n
      = (st321.fab.link 2).ackIn ∧ flNak n = false) ∧ flitGood op317 = true ∧ flType op317 = 1 ∧ flSeq op317 =
      (st321.fab.link 2).rxNext ∧ flAck op317 = (st321.fab.link 2).ackIn ∧ flNak op317 = false ∧ (∀ c ∈ flCredits
      op317, c.1 = 0 ∨ c.1 = 7) ∧ (∀ i < 15, flStart op317 i = false) ∧ (st321.fab.link 2).part = none ∧
      ((st321.fab.link 2).nak = true → (st321.fab.link 2).rxJudged = false → (bvSat (st321.fab.link 2).err.transient
      1).toNat % 1024 ≠ 0)) :=
  ⟨by refine ⟨?_, ?_, ?_, ?_, ?_, ?_, ?_, ?_, (fun n hn => by rw [List.eq_of_mem_replicate hn]; exact ⟨good_null, by decide +kernel, by decide +kernel, by decide +kernel, by decide +kernel⟩), good_last, ?_, ?_, ?_, ?_, ?_, ?_, ?_, ?_⟩ <;> decide +kernel,
   by refine ⟨?_, ?_, ?_, ?_, ?_, ?_, ?_, ?_, (fun n hn => by rw [List.eq_of_mem_replicate hn]; exact ⟨good_null, by decide +kernel, by decide +kernel, by decide +kernel, by decide +kernel⟩), good_first, ?_, ?_, ?_, ?_, ?_, ?_, ?_, ?_⟩ <;> decide +kernel⟩

/-- The hypotheses of the clauses of LinksCarryPairsAndDeclarations are met. -/
theorem witness_LinksCarryPairsAndDeclarations_3 :
    (2 < 32 ∧ st322.linkOn 2 = true ∧ (st322.fab.link 2).st = LinkState.active ∧ (st322.fab.link 2).stopSeq = false ∧
      0 ≤ 15 ∧ 15 ≤ 15 ∧ (BitVec.extractLsb' 0 16 hd = 23235#16 ∧ BitVec.extractLsb' 16 8 hd = (st322.fab.link
      2).pairExp) ∧ op318.length = 4 ∧ (∀ n ∈ op318, flitGood n = true ∧ flType n = 0 ∧ nullClean n = true ∧ flAck n
      = (st322.fab.link 2).ackIn ∧ flNak n = false) ∧ flitGood op317 = true ∧ flType op317 = 1 ∧ 0 < (flSeq op317 -
      (st322.fab.link 2).rxNext).toNat ∧ (flSeq op317 - (st322.fab.link 2).rxNext).toNat < 2048) ∧
    (2 < 32 ∧ st323.linkOn 2 = true ∧ (st323.fab.link 2).st = LinkState.active ∧ (st323.fab.link 2).replay ≠ [] ∧
      (st323.fab.link 2).replayOf ≠ some ((st323.fab.link 2).ackIn + 1)) :=
  ⟨by refine ⟨?_, ?_, ?_, ?_, ?_, ?_, ?_, ?_, (fun n hn => by rw [List.eq_of_mem_replicate hn]; exact ⟨good_null, by decide +kernel, by decide +kernel, by decide +kernel, by decide +kernel⟩), good_first, ?_, ?_, ?_⟩ <;> decide +kernel,
   by decide +kernel⟩

/-- The hypotheses of the clauses of LinksCarryPairsAndDeclarations are met. -/
theorem witness_LinksCarryPairsAndDeclarations_4 :
    (2 < 32 ∧ st324.linkOn 2 = true ∧ (st324.fab.link 2).st = LinkState.active ∧ (st324.fab.link 2).replay ≠ [] ∧
      (st324.fab.link 2).replayOf = some ((st324.fab.link 2).ackIn + 1)) ∧
    (2 < 32 ∧ st322.linkOn 2 = true ∧ ((st322.fab.link 2).st ≠ LinkState.active ∨ (st322.fab.link 2).replay = [])) :=
  ⟨by decide +kernel,
   by decide +kernel⟩

/-- The hypotheses of the clauses of LinksCarryPairsAndDeclarations are met. -/
theorem witness_LinksCarryPairsAndDeclarations_5 :
    (2 < 32 ∧ st325.linkOn 2 = true ∧ (st325.fab.link 2).st = LinkState.declare ∧ (st325.fab.link 2).decl = none ∧
      st325.fab.draining = true) ∧
    (2 < 32 ∧ st327.linkOn 2 = true ∧ (st327.fab.link 2).st = LinkState.declare ∧ (st327.fab.link 2).decl = none ∧
      st327.fab.draining = false ∧ Fabric.declCheck st327.cfg st327.fab 2 op326 ≠ 0 ∧ (st327.fab.link 2).refusals <
      2) :=
  ⟨by decide +kernel,
   by decide +kernel⟩

/-- The hypotheses of the clauses of LinksCarryPairsAndDeclarations are met. -/
theorem witness_LinksCarryPairsAndDeclarations_6 :
    (2 < 32 ∧ st328.linkOn 2 = true ∧ (st328.fab.link 2).st = LinkState.declare ∧ (st328.fab.link 2).decl = none ∧
      st328.fab.draining = false ∧ Fabric.declCheck st328.cfg st328.fab 2 op326 ≠ 0 ∧ 2 ≤ (st328.fab.link
      2).refusals) ∧
    (2 < 32 ∧ st329.linkOn 2 = true ∧ (st329.fab.link 2).st = LinkState.declare ∧ (st329.fab.link 2).decl = none ∧
      st329.fab.draining = false ∧ Fabric.declCheck st329.cfg st329.fab 2 op330 = 0 ∧ st329.fab.twin.pair =
      PairState.single ∧ (dclCaching op330 = true → ∃ k, st329.fab.gran.freeSlot = some k)) :=
  ⟨by decide +kernel,
   by refine ⟨?_, ?_, ?_, ?_, ?_, ?_, ?_, freeSlot_some _ _ (by decide +kernel)⟩ <;> decide +kernel⟩

/-- The hypotheses of the clauses of LinksCarryPairsAndDeclarations are met. -/
theorem witness_LinksCarryPairsAndDeclarations_7 :
    (31 < 32 ∧ st331.linkOn 31 = true ∧ (st331.fab.link 31).st = LinkState.declare ∧ (st331.fab.link 31).decl = none
      ∧ st331.fab.draining = false ∧ Fabric.declCheck st331.cfg st331.fab 31 op332 = 0 ∧ st331.fab.twin.pair =
      PairState.single ∧ (dclCaching op332 = true → ∃ k, st331.fab.gran.freeSlot = some k)) ∧
    (31 < 32 ∧ st331.linkOn 31 = true ∧ (st331.fab.link 31).st = LinkState.declare ∧ (st331.fab.link 31).decl = none
      ∧ st331.fab.draining = false ∧ Fabric.declCheck st331.cfg st331.fab 31 op333 = 0 ∧ st331.fab.twin.pair =
      PairState.single ∧ (dclCaching op333 = true → ∃ k, st331.fab.gran.freeSlot = some k)) :=
  ⟨by refine ⟨?_, ?_, ?_, ?_, ?_, ?_, ?_, freeSlot_some _ _ (by decide +kernel)⟩ <;> decide +kernel,
   by refine ⟨?_, ?_, ?_, ?_, ?_, ?_, ?_, freeSlot_some _ _ (by decide +kernel)⟩ <;> decide +kernel⟩

/-- The hypotheses of the clauses of LinksCarryPairsAndDeclarations are met. -/
theorem witness_LinksCarryPairsAndDeclarations_8 :
    (2 < 32 ∧ st334.linkOn 2 = true ∧ ((st334.fab.link 2).st ≠ LinkState.declare ∨ (st334.fab.link 2).decl.isSome =
      true)) :=
  by decide +kernel

end W05

namespace W07

def fb (g : Fabric → Fabric) : Fabric := g sRgn.fab
def f0 : Fabric := (link sRgn 5 active).fab
def op335 : OItem := { item0 with op := .wrUncached, typ := .ucn, la := 5 }
def rd0 : OItem := { item0 with op := .rdOnce, kind := .read, be := 1 }
def lr0 : OItem := { item0 with op := .ldResv, kind := .ldresv, be := 1, la := 64 }
def fr : Fabric := { f0 with resv := vset (vset f0.resv 5 (some (64, 3))) 6 (some (0, 4)) }
def fv : Fabric := { fr with ord := vmod fr.ord 5 (fun o => { o with resvAt := some 5 }) }
def op336 : OItem := { lr0 with la := 70 }
def op337 : LAddr := 5
def op338 : OItem := { lr0 with la := 5 }
def cb0 : OItem := { item0 with op := .cBar, kind := .cbar, be := 0 }
def rc0 : OItem := { item0 with op := .resvClear, kind := .resvClear, be := 0 }

/-- The hypotheses of the clauses of OtherRequestsUseTheOrderingUnit are met. -/
theorem witness_OtherRequestsUseTheOrderingUnit :
    (5 < 32 ∧ (f0.ordOf 5).items = [] ∧ (f0.ordOf 5).short = [] ∧ item0.released = false ∧ item0.kind = OKind.entry ∧
      item0.op ≠ Op.svcReq) ∧
    (5 < 32 ∧ (f0.ordOf 5).items = [] ∧ (f0.ordOf 5).short = [] ∧ op335.released = false ∧ op335.kind = OKind.entry ∧
      op335.op ≠ Op.svcReq) ∧
    (5 < 32 ∧ (f0.ordOf 5).items = [] ∧ (f0.ordOf 5).short = [] ∧ rd0.released = false ∧ rd0.kind = OKind.read ∧
      rd0.be ≠ 0) ∧
    (5 < 32 ∧ (fv.ordOf 5).items = [] ∧ (fv.ordOf 5).short = [] ∧ lr0.released = false ∧ lr0.kind = OKind.ldresv) ∧
    (5 < 32 ∧ (fv.ordOf 5).items = [] ∧ (fv.ordOf 5).short = [] ∧ op336.released = false ∧ op336.kind = OKind.ldresv
      ∧ (fv.ordOf 5).resvAt = some op337 ∧ sliceOf op337 ≠ sliceOf op336.la) ∧
    (5 < 32 ∧ (fv.ordOf 5).items = [] ∧ (fv.ordOf 5).short = [] ∧ op338.released = false ∧ op338.kind = OKind.ldresv
      ∧ (∀ (l : LAddr), (fv.ordOf 5).resvAt = some l → sliceOf l = sliceOf op338.la)) ∧
    (5 < 32 ∧ (fr.ordOf 5).items = [] ∧ (fr.ordOf 5).short = [] ∧ lr0.released = false ∧ lr0.kind = OKind.ldresv ∧ (∀
      (l : LAddr), (fr.ordOf 5).resvAt = some l → sliceOf l = sliceOf lr0.la)) ∧
    (5 < 32 ∧ (fv.ordOf 5).items = [] ∧ (fv.ordOf 5).short = [] ∧ cb0.released = false ∧ cb0.kind = OKind.cbar) :=
  ⟨by decide +kernel,
   by decide +kernel,
   by decide +kernel,
   by decide +kernel,
   by decide +kernel,
   by refine ⟨?_, ?_, ?_, ?_, ?_, optForall _ _ (by decide +kernel)⟩ <;> decide +kernel,
   by refine ⟨?_, ?_, ?_, ?_, ?_, optForall _ _ (by decide +kernel)⟩ <;> decide +kernel,
   by decide +kernel⟩

/-- The hypotheses of the clauses of OtherRequestsUseTheOrderingUnit are met. -/
theorem witness_OtherRequestsUseTheOrderingUnit_2 :
    (5 < 32 ∧ (fv.ordOf 5).items = [] ∧ (fv.ordOf 5).short = [] ∧ rc0.released = false ∧ rc0.kind = OKind.resvClear ∧
      (fv.ordOf 5).resvAt = some op337) ∧
    (5 < 32 ∧ (fr.ordOf 5).items = [] ∧ (fr.ordOf 5).short = [] ∧ rc0.released = false ∧ rc0.kind = OKind.resvClear ∧
      (fr.ordOf 5).resvAt = none) :=
  ⟨by decide +kernel,
   by decide +kernel⟩

end W07

namespace W08

def L5 (s : State) : State := link (link s 5 active) 1 active
def t0 : Txn := { txn0 with who := .agent 5 none, blk := true, la := 0 }
def withT (t : Txn) : State := onFab (L5 sRgn) (fun f => { f with txns := [t] })
def ackH : Slot := BitVec.ofNat 128 (packNat [(0, 6, 0x20), (6, 12, 9), (18, 15, 3)])
def st339 : State := withT { t0 with ackDue := true, grant := .e }
def op340 : Txn := { t0 with ackDue := true, grant := .e }
def st341 : State := withT { t0 with ackDue := true, todo := [.ack] }
def op342 : Txn := { t0 with ackDue := true, todo := [.ack] }
def st343 : State := withT t0
def st344 : State := link (withT t0) 5 (fun l => { l with rxq := [⟨ackH, []⟩] })
def rspH (o : Op) (kept : Nat) : Slot := BitVec.ofNat 128 (packNat [(0, 6, o.code), (6, 12, 9), (18, 15, 3), (33, 3, kept)])
def tsn (o : Op) : Txn := { t0 with snoops := [{ sn0 with op := o }], todo := [.snoops] }
def st345 : State := withT (tsn .snpInv)
def op346 : Slot := rspH .rspI 0
def op347 : Instr := .rspi 1 (rspH .rspI 0)
def op348 : Txn := tsn .snpInv
def op349 : Snoop := { sn0 with op := .snpInv }
def st350 : State := withT (tsn .snpShared)
def op351 : Slot := rspH .rspS 1
def op352 : Instr := .rsps 1 (rspH .rspS 1)
def op353 : Txn := tsn .snpShared
def op354 : Snoop := { sn0 with op := .snpShared }
def st355 : State := withT (tsn .snpFwdShared)
def op356 : Slot := rspH .rspFwd 3
def op357 : Instr := .rspfwd 1 (rspH .rspFwd 3)
def op358 : Txn := tsn .snpFwdShared
def op359 : Snoop := { sn0 with op := .snpFwdShared }
def st360 : State := withT (tsn .snpOwn)
def op361 : Slot := rspH .rspWbCrossed 0
def op362 : Instr := .rspwbcrossed 1 (rspH .rspWbCrossed 0)
def op363 : Txn := tsn .snpOwn
def op364 : Snoop := { sn0 with op := .snpOwn }
def rspM (o : Op) (kept : Nat) : Slot := BitVec.ofNat 128 (packNat [(0, 6, o.code), (6, 12, 9), (18, 15, 3), (33, 3, kept), (37, 1, 1)])
def slotted (s : State) : State := onGran s (fun g => { g with slots := vset g.slots 2 ⟨some 1, none⟩ })
def st365 : State := slotted (withT (tsn .snpInv))
def op366 : Slot := rspM .rspI 0
def op367 : Instr := .rspi 1 (rspM .rspI 0)
def st368 : State := slotted (withT (tsn .snpShared))
def op369 : Slot := rspM .rspS 1
def op370 : Instr := .rsps 1 (rspM .rspS 1)
def st371 : State := slotted (withT (tsn .snpOwn))
def op372 : Slot := rspM .rspWbCrossed 0
def op373 : Instr := .rspwbcrossed 1 (rspM .rspWbCrossed 0)
def op374 : Slot := rspM .rspI 5
def op375 : Instr := .rspi 1 (rspM .rspI 5)
def op376 : Slot := rspH .rspI 6
def op377 : Instr := .rspi 1 (rspH .rspI 6)
def st378 : State := L5 sRgn
def dtH (ag : Nat) (la : Nat) : Slot := BitVec.ofNat 128 (packNat [(0, 6, 0x31), (6, 12, 9), (18, 15, 3), (36, 1, 1), (48, 46, la), (94, 6, ag)])
def op379 : Slot := dtH 32 (2 ^ 40)
def op380 : Line := 77
def op381 : Slot := dtH 31 (2 ^ 40)
def op382 : Slot := dtH 33 (2 ^ 40)
def st383 : State := onTwin (withT (tsn .snpOwn)) (fun t => { t with pair := .paired })
def op384 : Slot := dtH 63 (2 ^ 40)
def fS (o : Op) (resp : Op × Nat × Bool) (st : LSt) : Fabric :=
  let s := onGran (withT { tsn o with snoops := [{ sn0 with op := o, resp := some resp }] }) (fun g => { g with slots := vset g.slots 2 ⟨some 1, none⟩ })
  { s.fab with gran := s.fab.gran.write (2 * 2 ^ 18) 0 st }
def snr (o : Op) (resp : Op × Nat × Bool) (st : LSt) : Snoop := { sn0 with op := o, resp := some resp }
def tr (o : Op) (resp : Op × Nat × Bool) (st : LSt) : Txn := { tsn o with snoops := [snr o resp st] }
def lc : Nat := match (fS .snpInv (.rspI, 0, false) .s).gran.recordOf 1 0 with | some (_, l) => l | none => 0
def op385 : Fabric := fS .snpInv (.rspI, 0, false) .m
def op386 : Txn := tr .snpInv (.rspI, 0, false) .m
def op387 : Snoop := snr .snpInv (.rspI, 0, false) .m
def op388 : Fabric := fS .snpOwn (.rspI, 0, false) .e
def op389 : Txn := tr .snpOwn (.rspI, 0, false) .e
def op390 : Snoop := snr .snpOwn (.rspI, 0, false) .e
def op391 : Fabric := fS .snpShared (.rspI, 0, false) .e
def op392 : Txn := tr .snpShared (.rspI, 0, false) .e
def op393 : Snoop := snr .snpShared (.rspI, 0, false) .e
def op394 : Fabric := fS .snpInv (.rspI, 5, false) .o
def op395 : Txn := tr .snpInv (.rspI, 5, false) .o
def op396 : Snoop := snr .snpInv (.rspI, 5, false) .o
def op397 : Fabric := fS .snpShared (.rspS, 1, false) .e
def op398 : Txn := tr .snpShared (.rspS, 1, false) .e
def op399 : Snoop := snr .snpShared (.rspS, 1, false) .e
def op400 : Fabric := fS .snpShared (.rspS, 1, false) .m
def op401 : Txn := tr .snpShared (.rspS, 1, false) .m
def op402 : Snoop := snr .snpShared (.rspS, 1, false) .m
def op403 : Fabric := fS .snpFwdShared (.rspS, 1, false) .e
def op404 : Txn := tr .snpFwdShared (.rspS, 1, false) .e
def op405 : Snoop := snr .snpFwdShared (.rspS, 1, false) .e
def op406 : Fabric := fS .snpFwdShared (.rspFwd, 1, false) .e
def op407 : Txn := tr .snpFwdShared (.rspFwd, 1, false) .e
def op408 : Snoop := snr .snpFwdShared (.rspFwd, 1, false) .e
def op409 : Fabric := fS .snpFwdShared (.rspFwd, 1, false) .s
def op410 : Txn := tr .snpFwdShared (.rspFwd, 1, false) .s
def op411 : Snoop := snr .snpFwdShared (.rspFwd, 1, false) .s
def op412 : Fabric := fS .snpFwdOwn (.rspFwd, 0, false) .e
def op413 : Txn := tr .snpFwdOwn (.rspFwd, 0, false) .e
def op414 : Snoop := snr .snpFwdOwn (.rspFwd, 0, false) .e
def op415 : Fabric := fS .snpFwdOwn (.rspFwd, 0, false) .m
def op416 : Txn := tr .snpFwdOwn (.rspFwd, 0, false) .m
def op417 : Snoop := snr .snpFwdOwn (.rspFwd, 0, false) .m
def op418 : Fabric := fS .snpOwn (.rspFwd, 0, false) .m
def op419 : Txn := tr .snpOwn (.rspFwd, 0, false) .m
def op420 : Snoop := snr .snpOwn (.rspFwd, 0, false) .m
def op421 : Fabric := fS .snpShared (.rspFwd, 1, false) .o
def op422 : Txn := tr .snpShared (.rspFwd, 1, false) .o
def op423 : Snoop := snr .snpShared (.rspFwd, 1, false) .o

/-- The hypotheses of the clauses of ResponsesMeetTheirTracker are met. -/
theorem witness_ResponsesMeetTheirTracker :
    (st339.linkUp 5 = true ∧ hOp ackH = Op.compAck.code ∧ st339.first 5 Op.compAck { hdr := ackH, pay := [] } = true
      ∧ (List.find? (fun t => decide (t.htag = hHtag ackH) && decide (t.agent = some 5) && t.ackDue && decide
      ¬t.ackIn = true) st339.fab.txns = some op340)) ∧
    (st341.linkUp 5 = true ∧ hOp ackH = Op.compAck.code ∧ st341.first 5 Op.compAck { hdr := ackH, pay := [] } = true
      ∧ (List.find? (fun t => decide (t.htag = hHtag ackH) && decide (t.agent = some 5) && t.ackDue && decide
      ¬t.ackIn = true) st341.fab.txns = some op342)) ∧
    (st343.linkUp 5 = true ∧ hOp ackH = Op.compAck.code ∧ st343.first 5 Op.compAck { hdr := ackH, pay := [] } = true
      ∧ (∀ t ∈ st343.fab.txns, ¬(t.htag = hHtag ackH ∧ t.agent = some 5 ∧ t.ackDue = true ∧ t.ackIn = false))) ∧
    (st344.linkUp 5 = true ∧ hOp ackH = Op.compAck.code ∧ st344.first 5 Op.compAck { hdr := ackH, pay := [] } = true
      ∧ (∀ t ∈ st344.fab.txns, ¬(t.htag = hHtag ackH ∧ t.agent = some 5 ∧ t.ackDue = true ∧ t.ackIn = false))) ∧
    (st345.linkUp 1 = true ∧ responseOf Op.rspI 1 op346 = some op347 ∧ hOp op346 = Op.rspI.code ∧ st345.first 1
      Op.rspI { hdr := op346, pay := [] } = true ∧ (List.find? (fun t => decide (t.htag = hHtag op346))
      st345.fab.txns = some op348) ∧ (List.find? (fun x => decide (x.agent = 1) && decide ¬x.done = true)
      op348.snoops = some op349) ∧ op349.resp = none ∧ st345.fab.heldWb 1 op348.la = none ∧ rsLocmis op346 = false ∧
      keptOk op349.op Op.rspI (rsKept op346) = true) ∧
    (st350.linkUp 1 = true ∧ responseOf Op.rspS 1 op351 = some op352 ∧ hOp op351 = Op.rspS.code ∧ st350.first 1
      Op.rspS { hdr := op351, pay := [] } = true ∧ (List.find? (fun t => decide (t.htag = hHtag op351))
      st350.fab.txns = some op353) ∧ (List.find? (fun x => decide (x.agent = 1) && decide ¬x.done = true)
      op353.snoops = some op354) ∧ op354.resp = none ∧ st350.fab.heldWb 1 op353.la = none ∧ rsLocmis op351 = false ∧
      keptOk op354.op Op.rspS (rsKept op351) = true) ∧
    (st355.linkUp 1 = true ∧ responseOf Op.rspFwd 1 op356 = some op357 ∧ hOp op356 = Op.rspFwd.code ∧ st355.first 1
      Op.rspFwd { hdr := op356, pay := [] } = true ∧ (List.find? (fun t => decide (t.htag = hHtag op356))
      st355.fab.txns = some op358) ∧ (List.find? (fun x => decide (x.agent = 1) && decide ¬x.done = true)
      op358.snoops = some op359) ∧ op359.resp = none ∧ st355.fab.heldWb 1 op358.la = none ∧ rsLocmis op356 = false ∧
      keptOk op359.op Op.rspFwd (rsKept op356) = true) ∧
    (st360.linkUp 1 = true ∧ responseOf Op.rspWbCrossed 1 op361 = some op362 ∧ hOp op361 = Op.rspWbCrossed.code ∧
      st360.first 1 Op.rspWbCrossed { hdr := op361, pay := [] } = true ∧ (List.find? (fun t => decide (t.htag = hHtag
      op361)) st360.fab.txns = some op363) ∧ (List.find? (fun x => decide (x.agent = 1) && decide ¬x.done = true)
      op363.snoops = some op364) ∧ op364.resp = none ∧ st360.fab.heldWb 1 op363.la = none ∧ rsLocmis op361 = false ∧
      keptOk op364.op Op.rspWbCrossed (rsKept op361) = true) :=
  ⟨by decide +kernel,
   by decide +kernel,
   by decide +kernel,
   by decide +kernel,
   by decide +kernel,
   by decide +kernel,
   by decide +kernel,
   by decide +kernel⟩

/-- The hypotheses of the clauses of ResponsesMeetTheirTracker are met. -/
theorem witness_ResponsesMeetTheirTracker_2 :
    (st365.linkUp 1 = true ∧ responseOf Op.rspI 1 op366 = some op367 ∧ hOp op366 = Op.rspI.code ∧ st365.first 1
      Op.rspI { hdr := op366, pay := [] } = true ∧ (List.find? (fun t => decide (t.htag = hHtag op366))
      st365.fab.txns = some op348) ∧ (List.find? (fun x => decide (x.agent = 1) && decide ¬x.done = true)
      op348.snoops = some op349) ∧ op349.resp = none ∧ st365.fab.heldWb 1 op348.la = none ∧ rsLocmis op366 = true ∧
      keptOk op349.op Op.rspI (rsKept op366) = true ∧ st365.fab.twin.pair ≠ PairState.survivor ∧ op348.op ≠
      TOp.reconcile ∧ st365.fab.gran.slotOf 1 = some 2) ∧
    (st368.linkUp 1 = true ∧ responseOf Op.rspS 1 op369 = some op370 ∧ hOp op369 = Op.rspS.code ∧ st368.first 1
      Op.rspS { hdr := op369, pay := [] } = true ∧ (List.find? (fun t => decide (t.htag = hHtag op369))
      st368.fab.txns = some op353) ∧ (List.find? (fun x => decide (x.agent = 1) && decide ¬x.done = true)
      op353.snoops = some op354) ∧ op354.resp = none ∧ st368.fab.heldWb 1 op353.la = none ∧ rsLocmis op369 = true ∧
      keptOk op354.op Op.rspS (rsKept op369) = true ∧ st368.fab.twin.pair ≠ PairState.survivor ∧ op353.op ≠
      TOp.reconcile ∧ st368.fab.gran.slotOf 1 = some 2) ∧
    (st371.linkUp 1 = true ∧ responseOf Op.rspWbCrossed 1 op372 = some op373 ∧ hOp op372 = Op.rspWbCrossed.code ∧
      st371.first 1 Op.rspWbCrossed { hdr := op372, pay := [] } = true ∧ (List.find? (fun t => decide (t.htag = hHtag
      op372)) st371.fab.txns = some op363) ∧ (List.find? (fun x => decide (x.agent = 1) && decide ¬x.done = true)
      op363.snoops = some op364) ∧ op364.resp = none ∧ st371.fab.heldWb 1 op363.la = none ∧ rsLocmis op372 = true ∧
      keptOk op364.op Op.rspWbCrossed (rsKept op372) = true ∧ st371.fab.twin.pair ≠ PairState.survivor ∧ op363.op ≠
      TOp.reconcile ∧ st371.fab.gran.slotOf 1 = some 2) ∧
    (st365.linkUp 1 = true ∧ responseOf Op.rspI 1 op374 = some op375 ∧ hOp op374 = Op.rspI.code ∧ st365.first 1
      Op.rspI { hdr := op374, pay := [] } = true ∧ (List.find? (fun t => decide (t.htag = hHtag op374))
      st365.fab.txns = some op348) ∧ (List.find? (fun x => decide (x.agent = 1) && decide ¬x.done = true)
      op348.snoops = some op349) ∧ op349.resp = none ∧ st365.fab.heldWb 1 op348.la = none ∧ keptOk op349.op Op.rspI
      (rsKept op374) = false) ∧
    (st345.linkUp 1 = true ∧ responseOf Op.rspI 1 op376 = some op377 ∧ hOp op376 = Op.rspI.code ∧ st345.first 1
      Op.rspI { hdr := op376, pay := [] } = true ∧ (List.find? (fun t => decide (t.htag = hHtag op376))
      st345.fab.txns = some op348) ∧ (List.find? (fun x => decide (x.agent = 1) && decide ¬x.done = true)
      op348.snoops = some op349) ∧ op349.resp = none ∧ st345.fab.heldWb 1 op348.la = none ∧ keptOk op349.op Op.rspI
      (rsKept op376) = false) ∧
    (st378.linkUp 1 = true ∧ responseOf Op.rspFwd 1 op356 = some op357 ∧ hOp op356 = Op.rspFwd.code ∧ st378.first 1
      Op.rspFwd { hdr := op356, pay := [] } = true ∧ (∀ t ∈ st378.fab.txns, t.htag ≠ hHtag op356)) ∧
    (st360.linkUp 1 = true ∧ hOp op379 = Op.dataFwd.code ∧ st360.first 1 Op.dataFwd
      { hdr := op379, pay := dataSlots op380 (dtCrit op379) } = true ∧ st360.fab.alone = true ∧ dtAgent op379 = 32 ∧
      st360.cfg.regionOf (dtLaddr op379) = none ∧ (List.find? (fun t => decide (t.htag = hHtag op379)) st360.fab.txns
      = some op363) ∧ (List.find? (fun x => decide (x.agent = 1) && decide ¬x.done = true && (decide (x.op =
      Op.snpShared) || decide (x.op = Op.snpOwn))) op363.snoops = some op364) ∧ op364.dataIn = none) ∧
    (st360.linkUp 1 = true ∧ hOp op381 = Op.dataFwd.code ∧ st360.first 1 Op.dataFwd
      { hdr := op381, pay := dataSlots op380 (dtCrit op381) } = true ∧ st360.fab.alone = true ∧ dtAgent op381 < 32 ∧
      (∀ (r : Region), st360.cfg.regionOf (dtLaddr op381) = some r → dtTenant op381 = r.tenant)) :=
  ⟨by decide +kernel,
   by decide +kernel,
   by decide +kernel,
   by decide +kernel,
   by decide +kernel,
   by decide +kernel,
   by decide +kernel,
   by decide +kernel⟩

/-- The hypotheses of the clauses of ResponsesMeetTheirTracker are met. -/
theorem witness_ResponsesMeetTheirTracker_3 :
    (st360.linkUp 1 = true ∧ hOp op382 = Op.dataFwd.code ∧ st360.first 1 Op.dataFwd
      { hdr := op382, pay := dataSlots op380 (dtCrit op382) } = true ∧ 32 < dtAgent op382 ∧ st360.cfg.regionOf
      (dtLaddr op382) = none) ∧
    (st383.linkUp 1 = true ∧ hOp op384 = Op.dataFwd.code ∧ st383.first 1 Op.dataFwd
      { hdr := op384, pay := dataSlots op380 (dtCrit op384) } = true ∧ 32 < dtAgent op384 ∧ st383.cfg.regionOf
      (dtLaddr op384) = none) ∧
    (op385.mirrors = false ∧ op385.txnAt op386.slice op386.idx = some op386 ∧ (List.find? (fun x => decide (x.agent =
      op387.agent) && decide ¬x.done = true) op386.snoops = some op387) ∧ op387.att = false ∧ op387.dataIn = none ∧
      op385.gran.recordOf op387.agent op386.la = some (LSt.m, lc) ∧ op387.resp = some (Op.rspI, 0, false) ∧ (op387.op
      = Op.snpInv ∨ (LSt.m = LSt.s ∨ LSt.m = LSt.e) ∧ op387.isFwd = false)) ∧
    (op388.mirrors = false ∧ op388.txnAt op389.slice op389.idx = some op389 ∧ (List.find? (fun x => decide (x.agent =
      op390.agent) && decide ¬x.done = true) op389.snoops = some op390) ∧ op390.att = false ∧ op390.dataIn = none ∧
      op388.gran.recordOf op390.agent op389.la = some (LSt.e, lc) ∧ op390.resp = some (Op.rspI, 0, false) ∧ (op390.op
      = Op.snpInv ∨ (LSt.e = LSt.s ∨ LSt.e = LSt.e) ∧ op390.isFwd = false)) ∧
    (op391.mirrors = false ∧ op391.txnAt op392.slice op392.idx = some op392 ∧ (List.find? (fun x => decide (x.agent =
      op393.agent) && decide ¬x.done = true) op392.snoops = some op393) ∧ op393.att = false ∧ op393.dataIn = none ∧
      op391.gran.recordOf op393.agent op392.la = some (LSt.e, lc) ∧ op393.resp = some (Op.rspI, 0, false) ∧ (op393.op
      = Op.snpInv ∨ (LSt.e = LSt.s ∨ LSt.e = LSt.e) ∧ op393.isFwd = false)) ∧
    (op394.mirrors = false ∧ op394.txnAt op395.slice op395.idx = some op395 ∧ (List.find? (fun x => decide (x.agent =
      op396.agent) && decide ¬x.done = true) op395.snoops = some op396) ∧ op396.att = false ∧ op396.dataIn = none ∧
      op394.gran.recordOf op396.agent op395.la = some (LSt.o, lc) ∧ op396.resp = some (Op.rspI, 5, false) ∧ (op396.op
      = Op.snpInv ∨ (LSt.o = LSt.s ∨ LSt.o = LSt.e) ∧ op396.isFwd = false)) ∧
    (op397.mirrors = false ∧ op397.txnAt op398.slice op398.idx = some op398 ∧ (List.find? (fun x => decide (x.agent =
      op399.agent) && decide ¬x.done = true) op398.snoops = some op399) ∧ op399.att = false ∧ op399.dataIn = none ∧
      op397.gran.recordOf op399.agent op398.la = some (LSt.e, lc) ∧ op399.resp = some (Op.rspS, 1, false)) ∧
    (op400.mirrors = false ∧ op400.txnAt op401.slice op401.idx = some op401 ∧ (List.find? (fun x => decide (x.agent =
      op402.agent) && decide ¬x.done = true) op401.snoops = some op402) ∧ op402.att = false ∧ op402.dataIn = none ∧
      op400.gran.recordOf op402.agent op401.la = some (LSt.m, lc) ∧ op402.resp = some (Op.rspS, 1, false)) :=
  ⟨by decide +kernel,
   by decide +kernel,
   by decide +kernel,
   by decide +kernel,
   by decide +kernel,
   by decide +kernel,
   by decide +kernel,
   by decide +kernel⟩

/-- The hypotheses of the clauses of ResponsesMeetTheirTracker are met. -/
theorem witness_ResponsesMeetTheirTracker_4 :
    (op403.mirrors = false ∧ op403.txnAt op404.slice op404.idx = some op404 ∧ (List.find? (fun x => decide (x.agent =
      op405.agent) && decide ¬x.done = true) op404.snoops = some op405) ∧ op405.att = false ∧ op405.dataIn = none ∧
      op403.gran.recordOf op405.agent op404.la = some (LSt.e, lc) ∧ op405.resp = some (Op.rspS, 1, false)) ∧
    (op406.mirrors = false ∧ op406.txnAt op407.slice op407.idx = some op407 ∧ (List.find? (fun x => decide (x.agent =
      op408.agent) && decide ¬x.done = true) op407.snoops = some op408) ∧ op408.att = false ∧ op408.dataIn = none ∧
      op406.gran.recordOf op408.agent op407.la = some (LSt.e, lc) ∧ op408.resp = some (Op.rspFwd, 1, false) ∧
      op408.op = Op.snpFwdShared) ∧
    (op409.mirrors = false ∧ op409.txnAt op410.slice op410.idx = some op410 ∧ (List.find? (fun x => decide (x.agent =
      op411.agent) && decide ¬x.done = true) op410.snoops = some op411) ∧ op411.att = false ∧ op411.dataIn = none ∧
      op409.gran.recordOf op411.agent op410.la = some (LSt.s, lc) ∧ op411.resp = some (Op.rspFwd, 1, false) ∧
      op411.op = Op.snpFwdShared) ∧
    (op412.mirrors = false ∧ op412.txnAt op413.slice op413.idx = some op413 ∧ (List.find? (fun x => decide (x.agent =
      op414.agent) && decide ¬x.done = true) op413.snoops = some op414) ∧ op414.att = false ∧ op414.dataIn = none ∧
      op412.gran.recordOf op414.agent op413.la = some (LSt.e, lc) ∧ op414.resp = some (Op.rspFwd, 0, false) ∧
      op414.op = Op.snpFwdOwn) ∧
    (op415.mirrors = false ∧ op415.txnAt op416.slice op416.idx = some op416 ∧ (List.find? (fun x => decide (x.agent =
      op417.agent) && decide ¬x.done = true) op416.snoops = some op417) ∧ op417.att = false ∧ op417.dataIn = none ∧
      op415.gran.recordOf op417.agent op416.la = some (LSt.m, lc) ∧ op417.resp = some (Op.rspFwd, 0, false) ∧
      op417.op = Op.snpFwdOwn) ∧
    (op418.mirrors = false ∧ op418.txnAt op419.slice op419.idx = some op419 ∧ (List.find? (fun x => decide (x.agent =
      op420.agent) && decide ¬x.done = true) op419.snoops = some op420) ∧ op420.att = false ∧ op420.dataIn = none ∧
      op418.gran.recordOf op420.agent op419.la = some (LSt.m, lc) ∧ op420.resp = some (Op.rspFwd, 0, false) ∧
      op420.isFwd = false) ∧
    (op421.mirrors = false ∧ op421.txnAt op422.slice op422.idx = some op422 ∧ (List.find? (fun x => decide (x.agent =
      op423.agent) && decide ¬x.done = true) op422.snoops = some op423) ∧ op423.att = false ∧ op423.dataIn = none ∧
      op421.gran.recordOf op423.agent op422.la = some (LSt.o, lc) ∧ op423.resp = some (Op.rspFwd, 1, false) ∧
      op423.isFwd = false) :=
  ⟨by decide +kernel,
   by decide +kernel,
   by decide +kernel,
   by decide +kernel,
   by decide +kernel,
   by decide +kernel,
   by decide +kernel⟩

end W08

namespace W09

def L5 (s : State) : State := link (link s 5 active) 1 active
def t0 : Txn := { txn0 with who := .agent 5 none, blk := true, la := 0 }
def withT (t : Txn) : State := onFab (L5 sRgn) (fun f => { f with txns := [t] })
def cach (s : State) (a k : Nat) : State := onGran s (fun g => { g with slots := vset g.slots k ⟨some a, none⟩ })
def st424 : State := L5 sRgn
def dcl (kind sets ways uid : Nat) : Line := BitVec.ofNat 512 (leNat ([1, kind, sets, ways, 64, 0, 0, 0] ++ leBytes uid 8 ++ leBytes 64 2 ++ leBytes 64 2 ++ leBytes 320 2 ++ leBytes 4 2))
def sA : State := onFab (cach (link sRgn 0 (fun l => { active l with decl := some (dcl 1 6 4 9), slot := some 0 })) 0 0) (fun f => { f with arr := [arr0] })
def st425 : State := onFab sRgn (fun f => { f with holds := [⟨0, 0, 3⟩, ⟨0, 0, 4⟩] })
def op426 : LAddr := 0
def tsn (o : Op) (att : Bool) : Txn := { t0 with snoops := [{ sn0 with op := o, att := att }], todo := [.snoops] }
def st427 : State := withT (tsn .snpInv false)
def op428 : Txn := tsn .snpInv false
def op429 : Snoop := { sn0 with op := .snpInv }
def st430 : State := withT (tsn .snpFwdOwn true)
def op431 : Txn := tsn .snpFwdOwn true
def op432 : Snoop := { sn0 with op := .snpFwdOwn, att := true }
def wk (row : Nat) (es : Tab GEntry) : State := onGran sRgn (fun g => { g with slots := vset g.slots 2 ⟨some 5, some row⟩, entries := es })
def st433 : State := wk 3 []
def st434 : State := wk 3 [(2 * 2 ^ 18 + 3 * 16, ⟨5, .m⟩), (2 * 2 ^ 18 + 3 * 16 + 1, ⟨6, .e⟩), (2 * 2 ^ 18 + 9 * 16 + 1, ⟨7, .e⟩)]
def st435 : State := wk (2 ^ 14) []
def op436 : ℕ := 2 ^ 14
def td : Txn := { t0 with todo := [.record .s], hdr := BitVec.ofNat 128 (packNat [(0, 6, 1), (96, 14, 3), (110, 4, 1)]) }
def sD : State := onGran (withT td) (fun g => { g with slots := vset g.slots 2 ⟨some 5, none⟩, entries := [(2 * 2 ^ 18 + 3 * 16 + 1, ⟨64, .m⟩)], order := [2 * 2 ^ 18 + 3 * 16 + 1] })
def op437 : ℕ := 2 * 2 ^ 18 + 3 * 16 + 1
def op438 : GEntry := ⟨64, .m⟩
def st439 : State := withT { t0 with allocating := true, todo := [.alloc false] }
def op440 : Txn := { t0 with allocating := true, todo := [.alloc false] }
def st441 : State := withT { t0 with tagStage := 1, todo := [.tag] }
def op442 : Txn := { t0 with tagStage := 1, todo := [.tag] }
def bk (g : GrnBank → GrnBank) : State := onGran sRgn (fun x => { x with banks := vmod x.banks 7 g, queries := [55], entries := [(55, ⟨64, .m⟩)], order := [55] })
def st443 : State := onMem sRgn (fun m => { m with hq := [{ rq0 with who := .tags 7 3 }, rq0, { rq0 with who := .tags 7 3, again := true }] })
def st444 : State := onMem sRgn (fun m => { m with hq := [{ rq0 with who := .tags 7 3 }, rq0] })
def st445 : State := bk (fun b => { b with transient := 255 })
def st446 : State := bk (fun b => { b with transient := 65535 })
def st447 : State := bk (fun b => { b with transient := 255, corr := 255 })
def st448 : State := bk (fun b => { b with transient := 254, corr := 9 })
def st449 : State := bk (fun b => { b with lasting := 15 })
def st450 : State := bk (fun b => { b with lasting := 3 })
def st451 : State := cach (bk (fun b => { b with lasting := 15 })) 5 0
def st452 : State := bk id
def op453 : Fabric := (bk id).fab
def st454 : State := onTwin (bk (fun b => { b with lasting := 5 })) (fun t => { t with pair := .paired })
def st455 : State := bk (fun b => { b with rebuild := true, lasting := 3 })
def op456 : GEntry := ⟨128, .s⟩
def st457 : State := cach (bk id) 5 0
def st458 : State := onTwin (bk id) (fun t => { t with agentMap := [(9, 5, 0, 6, 4)] })
def m0 : Txn := { t0 with asked := true, todo := [.data, .comp .s .ok] }
def sM (h d : List MemReq) : State := onMem (withT m0) (fun m => { m with hq := h, dq := d, hbm := [(5, ⟨0x77, true⟩), (7, ⟨0x78, false⟩)], ddr := [(5, ⟨0x79, false⟩), (7, ⟨0x78, true⟩)] })
def r5 : MemReq := { rq0 with who := .txn 0 3 }
def r9 : MemReq := { rq0 with word := 5, write := true, data := 3, be := 1 }
def st459 : State := sM [r5, r9] []
def op460 : List MemReq := [r9]
def st461 : State := sM [] [r5, r9]
def st462 : State := sM [{ r5 with word := 7 }, r9] []
def op463 : MemReq := { r5 with word := 7 }
def op464 : ErrPat := ⟨2 ^ 640 - 1, 0⟩
def op465 : ErrPat := ⟨0x1 + 2 ^ 70 + 2 ^ 140 + 2 ^ 200, 0⟩
def st466 : State := sM [{ r5 with word := 7, again := true }, r9] []
def op467 : MemReq := { r5 with word := 7, again := true }
def w5 : MemReq := { r5 with write := true, data := 0x1234, be := allEn }
def w0 : Txn := { t0 with todo := [.endPoint, .comp .i .ok] }
def sW (h d : List MemReq) : State := onMem (withT w0) (fun m => { m with hq := h, dq := d, hbm := [(5, ⟨0x77, true⟩), (7, ⟨0x78, false⟩)], ddr := [(5, ⟨0x79, false⟩), (7, ⟨0x78, true⟩)] })
def st468 : State := sW [w5, r9] []
def st469 : State := sW [] [w5, r9]
def op470 : ErrPat := ⟨5, 6⟩
def op471 : ErrPat := ⟨7, 8⟩
def st472 : State := sW [] [{ w5 with be := 3 }, r9]
def op473 : MemReq := { w5 with be := 3 }
def mp : Txn := { t0 with mapAsked := true, todo := [.mapq] }
def st474 : State := withT mp
def fw : Txn := { t0 with todo := [.fillWait true, .comp .i .ok], wd := 5, wbe := 1 }
def st475 : State := onMem (withT mp) (fun m => { m with mapBad := [(0, true)] })
def st476 : State := withT fw
def op477 : List Micro := [.comp .i .ok]
def qs (h d : List MemReq) : State := onMem sRgn (fun m => { m with hq := h, dq := d, rbits := 3, openRows := [0, 3, 3], hbmRows := [0, 3, 8195], refresh := [(0, 3), (3, 4)], hbm := [(5, ⟨0x77, true⟩), (7, ⟨0x78, false⟩)], ddr := [(5, ⟨0x79, false⟩), (7, ⟨0x78, true⟩)] })
def st478 : State := qs [{ rq0 with word := 0 }] []
def op479 : ℕ := hbmBank 0
def st480 : State := qs [] [{ rq0 with word := 0 }]
def op481 : ℕ := ddrBank 3 0
def st482 : State := qs [] [{ rq0 with word := 0, write := true }]
def st483 : State := qs [] []
def st484 : State := qs [rq0, rq0] []
def op485 : List MemReq := [rq0]
def st486 : State := qs [] [rq0, rq0]
def wr5 : MemReq := { rq0 with write := true, acc := true, be := allEn, data := 9, pois := true }
def st487 : State := qs [wr5] []
def op488 : ℕ := MemReq.chan false wr5
def st489 : State := qs [] [wr5]
def op490 : ℕ := MemReq.chan true wr5
def st491 : State := qs [{ rq0 with cls := 2 }] []
def op492 : ℕ := MemReq.chan false rq0
def op493 : MemReq := { rq0 with cls := 2 }
def oz (o : Ord) : State := onFab sRgn (fun f => { f with ord := vset f.ord 5 o })
def st494 : State := oz { Ord.init with items := [{ item0 with released := true }, { item0 with id := 1, released := true }], tokens := [0, 1] }
def op495 : List ℕ := [1]
def op496 : OItem := { item0 with released := true }
def st497 : State := oz { Ord.init with items := [{ item0 with released := true, op := .rdUncached }], tokens := [0] }
def op498 : List ℕ := []
def op499 : OItem := { item0 with released := true, op := .rdUncached }
def st500 : State := oz { Ord.init with items := [{ item0 with released := true }], short := [0, 3], notices := [0] }
def st501 : State := onPfu sRgn (fun p => { p with queue := [pf0, pf0] })
def op502 : List Pf := [pf0]
def pfc : Pf := { pf0 with issued := true, cancelled := true, key := some (false, 3) }
def st503 : State := onMem (onPfu sRgn (fun p => { p with queue := [pfc] })) (fun m => { m with dq := [{ rq0 with who := .prefetch 1 64 }, rq0] })
def op504 : MemReq := { rq0 with who := .prefetch 1 64 }
def kP : Nat := 10 * setOf 64 + 3
def pSec : Sector := ⟨2, 0, 0, 0, 2, false, false, 0⟩
def pff : Pf := { pf0 with issued := true, key := some (false, kP) }
def sPf : State := onMem (onFab sRgn (fun f => { f with pfu := { f.pfu with queue := [pff] }, cache := f.cache.newSector kP pSec })) (fun m => { m with dq := [{ rq0 with who := .prefetch 1 64 }, rq0] })
def st505 : State := onPfu sRgn (fun p => { p with reports := [(31, true), (3, false)], counts := vset p.counts 31 (254, 3) })
def op506 : List (ℕ × Bool) := [(3, false)]
def st507 : State := onPfu sRgn (fun p => { p with reports := [(31, false), (3, false)], counts := vset p.counts 31 (255, 95) })
def st508 : State := onPfu sRgn (fun p => { p with training := [⟨3, 4, 64⟩, ⟨4, 4, 64⟩] })
def op509 : Train := ⟨3, 4, 64⟩
def op510 : List Train := [⟨4, 4, 64⟩]
def st511 : State := onPfu sRgn (fun p => { p with targets := [(3, 64)], stopped := true })
def op512 : LAddr := 64
def op513 : List (ℕ × LAddr) := []
def st514 : State := onPfu sRgn (fun p => { p with targets := [(3, 64)] })
def dd (op dst len : Nat) : Desc := Desc.new 5 1 (BitVec.ofNat 512 (leNat ([op, 1, 0, 0, 0, 0, 0, 0] ++ leBytes dst 8 ++ leBytes 0 8 ++ leBytes len 8)))
def hs (l : List Desc) (an : List HAns) : State := onHrw sRgn (fun h => { h with descs := l, answers := an })
def st515 : State := hs [dd 1 0 128] []
def op516 : Desc := dd 1 0 128
def dr (op dst len : Nat) : Desc := { dd op dst len with running := true }
def nI (s : State) (d : Desc) : Issue := (Fabric.nextIssue s.cfg s.fab d).getD ⟨0, 0, .inval, 0, 0, 0, false, 0, desc0⟩
theorem nI_some (s : State) (d : Desc) (h : (Fabric.nextIssue s.cfg s.fab d).isSome = true) :
    Fabric.nextIssue s.cfg s.fab d = some (nI s d) := eq_some_getD _ _ h
def st517 : State := hs [dr 5 0 128] []
def op518 : Desc := dr 5 0 128
def op519 : Issue := nI (hs [dr 5 0 128] []) (dr 5 0 128)
def st520 : State := hs [dr 7 4096 100] []
def op521 : Desc := dr 7 4096 100
def op522 : Issue := nI (hs [dr 7 4096 100] []) (dr 7 4096 100)
def h2 : State := onCfg (hs [dr 5 0 128, { dr 5 0 128 with ticket := 9, flight := [(0, 0, 0)] }] []) (fun c => { c with hrw := 0x2401 })
def op523 : Issue := nI h2 (dr 5 0 128)
def an0 : HAns := ⟨5, 0, 0, false, true, some 3, 0, true, false, 0⟩
def st524 : State := hs [{ dr 1 0 128 with flight := [(0, 0, 0)], nextK := 1 }] [an0]
def op525 : Desc := { dr 1 0 128 with flight := [(0, 0, 0)], nextK := 1 }
def st526 : State := hs [{ dr 1 0 128 with flight := [(0, 9, 0)], nextK := 1, recording := true }] [an0]
def op527 : Desc := { dr 1 0 128 with flight := [(0, 9, 0)], nextK := 1, recording := true }
def capS : State := onBring sRgn (fun b => { b with cap := 6144 })
def pS : State := onMem sRgn (fun m => { m with unmarked := [(0, ())] })
def op528 : ℕ := ddrChan 0
def ptw : Nat := (Fabric.patrolWord sRgn.cfg sRgn.fab 0 (Fabric.nextPlace sRgn.cfg sRgn.fab 0 1290 (vget sRgn.fab.gln.hbmPos 0 0))).getD 0
def st529 : State := onGln sRgn (fun g => { g with stopped := true })
def st530 : State := onMem sRgn (fun m => { m with dq := [{ rq0 with who := .patrol }, rq0] })
def op531 : MemReq := { rq0 with who := .patrol }
def st532 : State := onMem sRgn (fun m => { m with hq := [{ rq0 with who := .patrol }, rq0] })
def st533 : State := onGln sRgn (fun g => { g with repairs := [{ rep0 with state := 2 }, rep0, { rep0 with row := 3 }] })
def op534 : List Repair := [{ rep0 with row := 3 }]
def st535 : State := onGln sRgn (fun g => { g with repairs := rep0 :: (List.range 64).map (fun k => ⟨1, k, k, 10, 1, 0⟩) })
def op536 : List Repair := []

/-- The hypotheses of the clauses of HomeSlicesAndTheGranaryWork are met. -/
theorem witness_HomeSlicesAndTheGranaryWork :
    (7 < 8 ∧ st424.on (10 + 7) = true ∧ (st424.fab.pfu.queue = [] ∧ st424.fab.placers 7 = [] ∧ Fabric.settle
      st424.cfg st424.fab = st424.fab) ∧ (∀ x ∈ st424.fab.arr, sliceOf x.la ≠ 7)) ∧
    (0 < 8 ∧ sA.on (10 + 0) = true ∧ (sA.fab.pfu.queue = [] ∧ sA.fab.placers 0 = [] ∧ Fabric.settle sA.cfg sA.fab =
      sA.fab) ∧ sA.fab.pfu.record = [] ∧ sA.fab.slow = false ∧ sA.fab.twin.pair = PairState.single ∧ sA.fab.arr =
      [arr0] ∧ sliceOf arr0.la = 0 ∧ sA.fab.freeTracker 0 = some 0 ∧ arr0.op = TOp.req Op.rdShared ∧ (∃ a, arr0.who =
      Who.agent a none ∧ sA.fab.caching a = true)) ∧
    (7 < 8 ∧ st425.on (10 + 7) = true ∧ st425.on 10 = true) ∧
    (0 < 8 ∧ st427.on (10 + 0) = true ∧ st427.fab.txnAt 0 3 = some op428 ∧ (List.find? (fun x => decide (x.agent = 1)
      && decide ¬x.done = true) op428.snoops = some op429) ∧ op429.att = false) ∧
    (0 < 8 ∧ st430.on (10 + 0) = true ∧ st430.fab.txnAt 0 3 = some op431 ∧ (List.find? (fun x => decide (x.agent = 1)
      && decide ¬x.done = true) op431.snoops = some op432) ∧ op432.att = true) ∧
    (7 < 8 ∧ st433.on (10 + 7) = true ∧ st433.on 10 = true ∧ 2 < 16 ∧ (vget st433.fab.gran.slots
      { agent := none, walk := none } 2).walk = some 3 ∧ 3 < 2 ^ 14) ∧
    (7 < 8 ∧ st434.on (10 + 7) = true ∧ st434.on 10 = true ∧ 2 < 16 ∧ (vget st434.fab.gran.slots
      { agent := none, walk := none } 2).walk = some 3 ∧ 3 < 2 ^ 14) ∧
    (7 < 8 ∧ st435.on (10 + 7) = true ∧ st435.on 10 = true ∧ 2 < 16 ∧ (vget st435.fab.gran.slots
      { agent := none, walk := none } 2).walk = some op436 ∧ 2 ^ 14 ≤ op436 ∧ st435.fab.gran.count 2 = 0 ∧
      st435.fab.arr = [] ∧ st435.fab.txns = []) :=
  ⟨by refine ⟨?_, ?_, ⟨by decide +kernel, by decide +kernel, Fabric.settle_idle _ _ (by decide +kernel)⟩, ?_⟩ <;> decide +kernel,
   by refine ⟨?_, ?_, ⟨by decide +kernel, by decide +kernel, Fabric.settle_idle _ _ (by decide +kernel)⟩, ?_, ?_, ?_, ?_, ?_, ?_, ?_, ⟨0, rfl, by decide +kernel⟩⟩ <;> decide +kernel,
   by decide +kernel,
   by decide +kernel,
   by decide +kernel,
   by decide +kernel,
   by decide +kernel,
   by decide +kernel⟩

/-- The hypotheses of the clauses of HomeSlicesAndTheGranaryWork are met. -/
theorem witness_HomeSlicesAndTheGranaryWork_2 :
    (0 < 8 ∧ sD.on (10 + 0) = true ∧ sD.fab.txnAt 0 3 = some td ∧ sD.fab.displacing td = some (op437, op438)) ∧
    (0 < 8 ∧ st439.on (10 + 0) = true ∧ st439.fab.txnAt 0 3 = some op440 ∧ op440.allocating = true) ∧
    (0 < 8 ∧ st441.on (10 + 0) = true ∧ st441.fab.txnAt 0 3 = some op442 ∧ op442.tagStage = 1) ∧
    (7 < 8 ∧ st443.on (10 + 7) = true) ∧
    (7 < 8 ∧ st444.on (10 + 7) = true) ∧
    (7 < 8 ∧ st445.on (10 + 7) = true ∧ st445.on 10 = true ∧ GRead.good ≠ GRead.bad) ∧
    (7 < 8 ∧ st446.on (10 + 7) = true ∧ st446.on 10 = true ∧ GRead.good ≠ GRead.bad) ∧
    (7 < 8 ∧ st447.on (10 + 7) = true ∧ st447.on 10 = true ∧ GRead.corrected ≠ GRead.bad) :=
  ⟨by decide +kernel,
   by decide +kernel,
   by decide +kernel,
   by decide +kernel,
   by decide +kernel,
   by decide +kernel,
   by decide +kernel,
   by decide +kernel⟩

/-- The hypotheses of the clauses of HomeSlicesAndTheGranaryWork are met. -/
theorem witness_HomeSlicesAndTheGranaryWork_3 :
    (0 < 8 ∧ st448.on (10 + 0) = true ∧ st448.on 10 = true ∧ GRead.corrected ≠ GRead.bad) ∧
    (7 < 8 ∧ st449.on (10 + 7) = true ∧ st449.on 10 = true ∧ GWord.link ≠ GWord.entry) ∧
    (7 < 8 ∧ st450.on (10 + 7) = true ∧ st450.on 10 = true ∧ GWord.bucket ≠ GWord.entry) ∧
    (7 < 8 ∧ st450.on (10 + 7) = true ∧ st450.on 10 = true ∧ st450.fab.mirrors = false) ∧
    (7 < 8 ∧ st451.on (10 + 7) = true ∧ st451.on 10 = true ∧ st451.fab.mirrors = false) ∧
    (7 < 8 ∧ st452.on (10 + 7) = true ∧ st452.on 10 = true ∧ op453.gran.entries.find 55 = some op438 ∧
      op453.gran.agentOf (locSlot 55) = none) ∧
    (7 < 8 ∧ st454.on (10 + 7) = true ∧ st454.on 10 = true ∧ st454.fab.mirrors = true) ∧
    (7 < 8 ∧ st455.on (10 + 7) = true ∧ st455.on 10 = true ∧ (vget st455.fab.gran.banks GrnBank.zero 7).rebuild =
      true) :=
  ⟨by decide +kernel,
   by decide +kernel,
   by decide +kernel,
   by decide +kernel,
   by decide +kernel,
   by decide +kernel,
   by decide +kernel,
   by decide +kernel⟩

/-- The hypotheses of the clauses of HomeSlicesAndTheGranaryWork are met. -/
theorem witness_HomeSlicesAndTheGranaryWork_4 :
    (7 < 8 ∧ st452.on (10 + 7) = true ∧ st452.on 10 = true ∧ 55 ∈ st452.fab.gran.queries) ∧
    (7 < 8 ∧ st457.on (10 + 7) = true ∧ st457.on 10 = true ∧ 55 ∈ st457.fab.gran.queries) ∧
    (7 < 8 ∧ st452.on (10 + 7) = true ∧ st452.on 10 = true ∧ st452.on 8 = true) ∧
    (7 < 8 ∧ st458.on (10 + 7) = true ∧ st458.on 10 = true ∧ st458.on 8 = true) :=
  ⟨by decide +kernel,
   by decide +kernel,
   by decide +kernel,
   by decide +kernel⟩

/-- The hypotheses of the clauses of MemoriesReadAndAcceptWrites are met. -/
theorem witness_MemoriesReadAndAcceptWrites :
    (0 < 8 ∧ st461.on 10 = true ∧ st461.on (10 + 0) = true ∧ st461.fab.txnAt 0 3 = some m0 ∧ m0.patrol = false ∧
      st461.fab.mem.dq = r5 :: op460 ∧ r5.write = false ∧ r5.again = false ∧ r5.who = Owner.txn 0 3) ∧
    (0 < 8 ∧ st462.on 10 = true ∧ st462.on (10 + 0) = true ∧ st462.fab.txnAt 0 3 = some m0 ∧ m0.patrol = false ∧
      st462.fab.mem.hq = op463 :: op460 ∧ op463.write = false ∧ op463.again = false ∧ op463.who = Owner.txn 0 3 ∧
      (decodeWord false (getWord st462.fab.mem.hbm op463.word).data (getWord st462.fab.mem.hbm op463.word).pm
      op464).usable = false) ∧
    (0 < 8 ∧ st459.on 10 = true ∧ st459.on (10 + 0) = true ∧ st459.fab.txnAt 0 3 = some m0 ∧ m0.patrol = false ∧
      st459.fab.mem.hq = r5 :: op460 ∧ r5.write = false ∧ r5.again = false ∧ r5.who = Owner.txn 0 3 ∧ (decodeWord
      false (getWord st459.fab.mem.hbm r5.word).data (getWord st459.fab.mem.hbm r5.word).pm op465).usable = false) ∧
    (0 < 8 ∧ st466.on 10 = true ∧ st466.on (10 + 0) = true ∧ st466.fab.txnAt 0 3 = some m0 ∧ m0.patrol = false ∧
      st466.fab.mem.hq = op467 :: op460 ∧ op467.write = false ∧ op467.again = true ∧ op467.who = Owner.txn 0 3 ∧
      (getWord st466.fab.mem.hbm op467.word).pm = false ∧ op467.pois = false) ∧
    (0 < 8 ∧ st468.on 10 = true ∧ st468.on (10 + 0) = true ∧ st468.fab.txnAt 0 3 = some w0 ∧ w0.patrol = false ∧
      st468.fab.mem.hq = w5 :: op460 ∧ w5.write = true ∧ w5.acc = false ∧ w5.who = Owner.txn 0 3) ∧
    (0 < 8 ∧ st469.on 10 = true ∧ st469.on (10 + 0) = true ∧ st469.fab.txnAt 0 3 = some w0 ∧ w0.patrol = false ∧
      st469.fab.mem.dq = w5 :: op460 ∧ w5.write = true ∧ w5.acc = false ∧ w5.be = allEn ∧ w5.who = Owner.txn 0 3) ∧
    (0 < 8 ∧ st472.on 10 = true ∧ st472.on (10 + 0) = true ∧ st472.fab.txnAt 0 3 = some w0 ∧ w0.patrol = false ∧
      st472.fab.mem.dq = op473 :: op460 ∧ op473.write = true ∧ op473.acc = false ∧ op473.be ≠ allEn ∧ op473.be ≠ 0 ∧
      (getWord st472.fab.mem.ddr op473.word).pm = false ∧ op473.who = Owner.txn 0 3) ∧
    (0 < 8 ∧ st474.on 10 = true ∧ st474.on (10 + 0) = true ∧ st474.fab.txnAt 0 3 = some mp ∧ mp.patrol = false ∧ 3 <
      4096 ∧ mp.mapAsked = true) :=
  ⟨by decide +kernel,
   by decide +kernel,
   by decide +kernel,
   by decide +kernel,
   by decide +kernel,
   by decide +kernel,
   by decide +kernel,
   by decide +kernel⟩

/-- The hypotheses of the clauses of MemoriesReadAndAcceptWrites are met. -/
theorem witness_MemoriesReadAndAcceptWrites_2 :
    (0 < 8 ∧ st475.on 10 = true ∧ st475.on (10 + 0) = true ∧ st475.fab.txnAt 0 3 = some mp ∧ mp.patrol = false ∧ 3 <
      4096 ∧ mp.mapAsked = true) ∧
    (0 < 8 ∧ st476.on 10 = true ∧ st476.on (10 + 0) = true ∧ st476.fab.txnAt 0 3 = some fw ∧ fw.patrol = false ∧
      fw.todo = Micro.fillWait true :: op477 ∧ st476.fab.mirrors = false ∧ st476.fab.twin.tracking = false) :=
  ⟨by decide +kernel,
   by decide +kernel⟩

/-- The hypotheses of the clauses of ChannelsRefreshAgeCloseAndDrain are met. -/
theorem witness_ChannelsRefreshAgeCloseAndDrain :
    (st478.on 10 = true ∧ (∃ r ∈ st478.fab.mem.hq, hbmBank r.word = 0) ∧ st478.fab.mem.refresh.get 0 0 < 8) ∧
    (st478.on 10 = true ∧ (∃ r ∈ st478.fab.mem.hq, hbmBank r.word = op479) ∧ st478.fab.mem.refresh.get 0 op479 < 4) ∧
    (st478.on 10 = true ∧ (∀ r ∈ st478.fab.mem.hq, hbmBank r.word ≠ 3)) ∧
    (st478.on 10 = true ∧ (∃ r ∈ st478.fab.mem.hq, hbmBank r.word = op479) ∧ 3 ≤ st478.fab.mem.refresh.get 0 op479) ∧
    (st480.on 10 = true ∧ (∃ r ∈ st480.fab.mem.dq, r.write = false ∧ refreshRank (ddrBank st480.fab.mem.rbits r.word)
      = refreshRank op481) ∧ st480.fab.mem.refresh.get 0 (2 ^ 20 + op481) < 4) ∧
    (st482.on 10 = true ∧ ((∀ r ∈ st482.fab.mem.dq, r.write = false → refreshRank (ddrBank st482.fab.mem.rbits
      r.word) ≠ refreshRank op481) ∨ 4 ≤ st482.fab.mem.refresh.get 0 (2 ^ 20 + op481))) ∧
    (st480.on 10 = true ∧ ((∀ r ∈ st480.fab.mem.dq, r.write = false → refreshRank (ddrBank st480.fab.mem.rbits
      r.word) ≠ refreshRank op481) ∨ 0 ≤ st480.fab.mem.refresh.get 0 (2 ^ 20 + op481))) ∧
    (st483.on 10 = true ∧ ((∀ r ∈ st483.fab.mem.dq, r.write = false → refreshRank (ddrBank st483.fab.mem.rbits
      r.word) ≠ refreshRank 5) ∨ 4 ≤ st483.fab.mem.refresh.get 0 (2 ^ 20 + 5))) :=
  ⟨by decide +kernel,
   by decide +kernel,
   by decide +kernel,
   by decide +kernel,
   by decide +kernel,
   by decide +kernel,
   by decide +kernel,
   by decide +kernel⟩

/-- The hypotheses of the clauses of ChannelsRefreshAgeCloseAndDrain are met. -/
theorem witness_ChannelsRefreshAgeCloseAndDrain_2 :
    (st484.on 10 = true ∧ st484.fab.mem.hq = rq0 :: op485 ∧ rq0.aged = false) ∧
    (st486.on 10 = true ∧ st486.fab.mem.dq = rq0 :: op485 ∧ rq0.aged = false) ∧
    (st487.on 10 = true ∧ st487.fab.mem.hq = [wr5] ∧ MemReq.chan false wr5 = op488 ∧ wr5.write = true ∧ wr5.acc =
      true) ∧
    (st489.on 10 = true ∧ st489.fab.mem.dq = [wr5] ∧ MemReq.chan true wr5 = op490 ∧ wr5.write = true ∧ wr5.acc =
      true) ∧
    (st491.on 10 = true ∧ st491.fab.mem.hq = [op493] ∧ MemReq.chan false op493 = op492 ∧ op493.write = false ∧
      op493.cls ≤ 2) :=
  ⟨by decide +kernel,
   by decide +kernel,
   by decide +kernel,
   by decide +kernel,
   by decide +kernel⟩

/-- The hypotheses of the clauses of TokensNoticesAndPrefetches are met. -/
theorem witness_TokensNoticesAndPrefetches :
    (st494.on 10 = true ∧ 5 < 32 ∧ st494.linkOn 5 = true ∧ (st494.fab.ordOf 5).tokens = 0 :: op495 ∧ (List.find? (fun
      z => decide (z.id = 0)) (st494.fab.ordOf 5).items = some op496)) ∧
    (st497.on 10 = true ∧ 5 < 32 ∧ st497.linkOn 5 = true ∧ (st497.fab.ordOf 5).tokens = 0 :: op498 ∧ (List.find? (fun
      z => decide (z.id = 0)) (st497.fab.ordOf 5).items = some op499)) ∧
    (st500.on 10 = true ∧ 5 < 32 ∧ st500.linkOn 5 = true ∧ (st500.fab.ordOf 5).notices = 0 :: op498) ∧
    (st501.on 10 = true ∧ st501.fab.pfu.queue = pf0 :: op502 ∧ pf0.issued = false ∧ pf0.slice < 8) ∧
    (st503.on 10 = true ∧ st503.fab.pfu.queue = [pfc] ∧ pfc.issued = true ∧ pfc.cancelled = true ∧ pfc.promoted =
      false ∧ pfc.slice < 8 ∧ st503.fab.mem.dq = op504 :: op485 ∧ op504.write = false ∧ op504.again = false ∧
      op504.who = Owner.prefetch pfc.slice pfc.la) ∧
    (sPf.on 10 = true ∧ sPf.fab.pfu.queue = [pff] ∧ sPf.fab.pfu.record = [] ∧ pff.issued = true ∧ pff.cancelled =
      false ∧ pff.promoted = false ∧ pff.key = some (false, kP) ∧ sPf.fab.cache.find sPf.cfg false pff.la =
      TagRes.sector kP ∧ (sPf.fab.cache.bits (TagRes.sector kP) (subOf pff.la)).1 = false ∧ sPf.fab.mem.mapLost
      (backPage op504.word) = false ∧ sPf.fab.mem.dq = op504 :: op485 ∧ op504.write = false ∧ op504.again = false ∧
      op504.pois = false ∧ (getWord sPf.fab.mem.ddr op504.word).pm = false ∧ op504.who = Owner.prefetch pff.slice
      pff.la) ∧
    (st505.on 10 = true ∧ st505.fab.pfu.reports = (31, true) :: op506 ∧ 31 < 32 ∧ (vget st505.fab.pfu.counts (0, 0)
      31).1 < 255) ∧
    (st507.on 10 = true ∧ st507.fab.pfu.reports = (31, false) :: op506 ∧ 31 < 32 ∧ (vget st507.fab.pfu.counts (0, 0)
      31).1 = 255 ∧ st507.fab.pfu.mode.toNat.testBit 31 = false ∧ (vget st507.fab.pfu.counts (0, 0) 31).2 + b2n false
      < st507.cfg.accLo) :=
  ⟨by decide +kernel,
   by decide +kernel,
   by decide +kernel,
   by decide +kernel,
   by decide +kernel,
   by decide +kernel,
   by decide +kernel,
   by decide +kernel⟩

/-- The hypotheses of the clauses of TokensNoticesAndPrefetches are met. -/
theorem witness_TokensNoticesAndPrefetches_2 :
    (st508.on 10 = true ∧ st508.fab.pfu.training = op509 :: op510 ∧ st508.fab.pfu.streams = []) ∧
    (st511.on 10 = true ∧ st511.fab.pfu.targets = (3, op512) :: op513 ∧ st511.fab.pfu.stopped = true) ∧
    (st514.on 10 = true ∧ st514.fab.pfu.targets = (3, op512) :: op513 ∧ st514.fab.pfu.stopped = false ∧
      st514.fab.alone = true ∧ st514.fab.pfu.queue = [] ∧ Fabric.candidateDrop st514.cfg st514.fab
      (st514.cfg.regionOf op512) op512 = false) :=
  ⟨by decide +kernel,
   by decide +kernel,
   by decide +kernel⟩

/-- The hypotheses of the clauses of TheHarrowAndTheGleanerWork are met. -/
theorem witness_TheHarrowAndTheGleanerWork :
    (st515.on 31 = true ∧ st515.fab.hrw.descs = [op516] ∧ op516.queue < 17 ∧ op516.mirror = false ∧ op516.running =
      false ∧ op516.recording = false ∧ op516.ending = false ∧ op516.stop = 0 ∧ op516.gate = none ∧
      st515.fab.hrw.ring.length < 256 ∧ st515.fab.hrw.paused = false ∧ 0 < st515.cfg.activeMax) ∧
    (st517.on 31 = true ∧ st517.fab.homeOfAll = true ∧ op518.marks = [] ∧ op518.rescan = false ∧ st517.fab.desc
      op518.ticket = some op518 ∧ op518.running = true ∧ Fabric.nextIssue st517.cfg st517.fab op518 = some op519 ∧
      st517.fab.hrw.inFlight (sliceOf (BitVec.ofNat 46 op519.la)) < st517.cfg.linesInflight) ∧
    (st520.on 31 = true ∧ st520.fab.homeOfAll = true ∧ op521.marks = [] ∧ op521.rescan = false ∧ st520.fab.desc
      op521.ticket = some op521 ∧ op521.running = true ∧ Fabric.nextIssue st520.cfg st520.fab op521 = some op522 ∧
      st520.fab.hrw.inFlight (sliceOf (BitVec.ofNat 46 op522.la)) < st520.cfg.linesInflight) ∧
    (h2.on 31 = true ∧ h2.fab.homeOfAll = true ∧ op518.marks = [] ∧ op518.rescan = false ∧ h2.fab.desc op518.ticket =
      some op518 ∧ op518.running = true ∧ Fabric.nextIssue h2.cfg h2.fab op518 = some op523 ∧ h2.cfg.linesInflight ≤
      h2.fab.hrw.inFlight (sliceOf (BitVec.ofNat 46 op523.la))) ∧
    (st524.on 31 = true ∧ st524.fab.hrw.answers = [an0] ∧ st524.fab.desc an0.ticket = some op525 ∧ op525.flight =
      [(an0.k, 0, 0)] ∧ 0 ≠ 9 ∧ (op525.op = 1 ∨ op525.op = 2 ∨ op525.op = 3) ∧ st524.fab.mirrors = false) ∧
    (st526.on 31 = true ∧ st526.fab.hrw.answers = [an0] ∧ st526.fab.desc an0.ticket = some op527 ∧ op527.flight =
      [(an0.k, 9, 0)]) ∧
    (pS.on 31 = true ∧ pS.cfg.patrolEn = true ∧ pS.fab.gln.stopped = false ∧ Fabric.nextDdr pS.cfg pS.fab op528 (vget
      pS.fab.gln.ddrPos 0 op528) = some 0) ∧
    (sRgn.on 31 = true ∧ sRgn.cfg.patrolEn = true ∧ sRgn.fab.gln.stopped = false ∧ Fabric.patrolWord sRgn.cfg
      sRgn.fab 0 (Fabric.nextPlace sRgn.cfg sRgn.fab 0 1290 (vget sRgn.fab.gln.hbmPos 0 0)) = some ptw) :=
  ⟨by decide +kernel,
   by refine ⟨?_, ?_, ?_, ?_, ?_, ?_, nI_some _ _ (by decide +kernel), ?_⟩ <;> decide +kernel,
   by refine ⟨?_, ?_, ?_, ?_, ?_, ?_, nI_some _ _ (by decide +kernel), ?_⟩ <;> decide +kernel,
   by refine ⟨?_, ?_, ?_, ?_, ?_, ?_, nI_some _ _ (by decide +kernel), ?_⟩ <;> decide +kernel,
   by decide +kernel,
   by decide +kernel,
   by decide +kernel,
   by decide +kernel⟩

/-- The hypotheses of the clauses of TheHarrowAndTheGleanerWork are met. -/
theorem witness_TheHarrowAndTheGleanerWork_2 :
    (st529.on 31 = true ∧ (st529.cfg.patrolEn = false ∨ st529.fab.gln.stopped = true)) ∧
    (st530.on 31 = true ∧ st530.fab.mem.dq = op531 :: op485 ∧ op531.write = false ∧ op531.again = false ∧ op531.who =
      Owner.patrol) ∧
    (st532.on 31 = true ∧ st532.fab.mem.hq = op531 :: op485 ∧ op531.write = false ∧ op531.again = false ∧ op531.who =
      Owner.patrol ∧ (∀ (w : ℕ) (mirror : Bool), mapAt op531.word = some (w, mirror) → (w, !mirror) ∉
      st532.fab.mem.mapBad)) ∧
    (st533.on 31 = true ∧ st533.stw.up = true ∧ (List.filter (fun r => decide (r.state = 0)) st533.fab.gln.repairs =
      rep0 :: op534) ∧ st533.fab.gln.pendingCount < 64 ∧ rep0.block < 10) ∧
    (st535.on 31 = true ∧ st535.stw.up = true ∧ (List.filter (fun r => decide (r.state = 0)) st535.fab.gln.repairs =
      rep0 :: op536) ∧ 64 ≤ st535.fab.gln.pendingCount) :=
  ⟨by decide +kernel,
   by decide +kernel,
   by refine ⟨?_, ?_, ?_, ?_, ?_, (fun _ _ _ => List.not_mem_nil)⟩ <;> decide +kernel,
   by decide +kernel,
   by decide +kernel⟩

end W09

namespace W10

def tw (g : Twin → Twin) : State := onTwin sTwin g
def tl (st : LinkState) : State := onFab sTwin (fun f => { f with tlink := { f.tlink with st := st } })
def op537 : Hello := greet sTwin
def st538 : State := tw (fun t => { t with role := 3, pair := .failover })
def op539 : Hello := { greet sTwin with strap := true }
def st540 : State := tl .declare
def op541 : Hello := greet (tl .declare)
def st542 : State := tw (fun t => { t with pair := .paired })
def st543 : State := tw (fun t => { t with pair := .hello })
def op544 : Hello := { greet sTwin with digest := sTwin.ownHello.digest + 1 }
def st545 : State := tw (fun t => { t with pair := .survivor })
def st546 : State := tw (fun t => { t with pair := .isolated })
def st547 : State := tl .fenced
def st548 : State := tl .recovery
def st549 : State := onFab (tw (fun t => { t with role := 1 })) (fun f => { f with time := 77 })
def st550 : State := tw (fun t => { t with role := 3 })
def st551 : State := tw (fun t => { t with role := 2 })
def tm (n : Nat) : State := onFab (tw (fun t => { t with role := 2 })) (fun f => { f with time := BitVec.ofNat 64 n })
def st552 : State := tm 101
def op553 : Word64 := 98
def st554 : State := tm 99
def st555 : State := tm 102
def st556 : State := tm 98
def st557 : State := tm 5
def op558 : Word64 := 0xFFFFFFFFFFFFFFFF
def am (s : State) : State := onTwin (link s 31 (fun l => { active l with decl := some 0x0900000000000000, withhold := true, live := [3] })) (fun t => { t with agentMap := [(9, 3, 2, 6, 4), (8, 3, 2, 6, 4)] })
def dclU (uid : Nat) : Line := BitVec.ofNat 512 (leNat ([1, 1, 6, 4, 64, 0, 0, 0] ++ leBytes uid 8))
def am2 : State := onFab (link (link sTwin 31 (fun l => { active l with decl := some (dclU 9), withhold := true, live := [3] })) 0 (fun l => { active l with decl := some (dclU 8), withhold := true })) (fun f => { f with draining := false })
def st559 : State := onFab sTwin (fun f => { f with tlink := { f.tlink with rxq := [⟨0, []⟩] } })
def st560 : State := am sTwin
def op561 : Word64 := 9
def st562 : State := onFab (am sTwin) (fun f => { f with draining := true })
def st563 : State := tw (fun t => { t with pair := .resync, rejoiner := true })
def st564 : State := tw (fun t => { t with pair := .resync, rejoiner := false, full := true })
def st565 : State := onFab (tw (fun t => { t with pair := .resync, rejoiner := false, full := true, percent := 35 })) (fun f => { f with mem := { f.mem with ddr := [(5, ⟨7, false⟩)] } })
def pr (g : Twin → Twin) : State := tw (fun t => g { t with pair := .paired, role := 2, outstanding := [rec0] })
def gb (s : State) : Instr × Fabric := (Instr.twinGoodbye, s.fab.ctlTaken 4)
def hb (s : State) : Instr × Fabric := (Instr.hbTimeout, s.fab)
def u0 : State := tw (fun t => { t with pair := .hello })
def u1 : State := tw (fun t => { t with pair := .paired, witness := 1 })
def u2 : State := tw (fun t => { t with pair := .paired, witness := 0, strap := false })
def u2b : State := tw (fun t => { t with pair := .paired, witness := 3, strap := false })
def u3 : State := pr (fun t => { t with witness := 2, strap := false })
def u3b : State := pr (fun t => { t with witness := 0, strap := true })
def u4 : State := pr (fun t => { t with step := 2 })
def u5 : State := tw (fun t => { t with pair := .resync, rejoiner := false })
def u6 : State := tw (fun t => { t with pair := .resync, rejoiner := true })
def u8 : State := tw (fun t => { t with pair := .survivor })
def op566 : Instr × Fabric := gb u0
def op567 : Instr × Fabric := hb u0
def op568 : Instr × Fabric := hb u1
def op569 : Instr × Fabric := hb u2
def op570 : Instr × Fabric := gb u2b
def op571 : Instr × Fabric := gb u3
def op572 : Instr × Fabric := hb u3b
def op573 : Instr × Fabric := hb u4
def op574 : Instr × Fabric := hb u5
def st575 : State := link u6 3 active
def op576 : Instr × Fabric := hb (link u6 3 active)
def op577 : Instr × Fabric := gb u6
def op578 : Instr × Fabric := hb u8
def st579 : State := pr (fun t => { t with step := 2, witness := 1 })
def st580 : State := tw (fun t => { t with pair := .waiting })
def st581 : State := link (pr (fun t => { t with step := 2, witness := 1 })) 3 active
def st582 : State := tw (fun t => { t with pair := .failover, step := 4 })
def st583 : State := tw (fun t => { t with pair := .failover, step := 4, backlog := [rec0] })
def st584 : State := tw (fun t => { t with pair := .failover, step := 5, role := 1 })
def st585 : State := tw (fun t => { t with pair := .survivor, step := 7, resendOpen := true, stbyWalk := true })
def rcT : Txn := { txn0 with who := .reconcile 5 3, op := .reconcile, todo := [.ack], blk := true, value := 0 }
def wt (t : Txn) : State := onFab (tw (fun t => { t with pair := .survivor, step := 7, resendOpen := true })) (fun f => { f with txns := [t] })
def st586 : State := wt rcT
def snO : Snoop := { sn0 with op := .snpOwn, resp := some (.rspI, 0, false), done := true }
def rcI : Txn := { rcT with value := 1, snoops := [snO] }
def st587 : State := wt rcI
def sec1 : State := onFab (tw (fun t => { t with stbyWalk := true, resendOpen := true })) (fun f => { f with cache := { f.cache with sectors := [(0, { Sector.new 0 0 0 with stby := true })] } })
def st588 : State := tw (fun t => { t with stbyWalk := true, step := 7 })
def st589 : State := tw (fun t => { t with expect := Vector.replicate 10 (2 ^ 24 - 1) })
def op590 : TRec := { rec0 with src := 9, lseq := 2 ^ 24 - 1 }
def op591 : TRec := { rec0 with lseq := 1 }
def st592 : State := tw (fun t => { t with backlog := [rec0] })
def bl (r : TRec) : State :=
  let c : Cfg := { sRgn.cfg with twn := 1 }
  { onTwin (onFab sRgn (fun f => { f with tlink := active f.tlink })) (fun t => { t with backlog := [r, rec0] }) with cfg := c }
def rg64 : Region := match (bl rec0).cfg.regionOf 64 with | some r => r | none => (RgnWords.zero).region 0
def r8 : TRec := { rec0 with rtype := 8, gch := none, txn := none, la := 64, rseq := 1 }
def st593 : State := onMem (bl r8) (fun m => { m with unmarked := [(3, ())] })
def op594 : List TRec := [rec0]
def st595 : State := onMem (bl { r8 with rseq := 0 }) (fun m => { m with unmarked := [(1, ()), (3, ())] })
def op596 : TRec := { r8 with rseq := 0 }
def gc0 : Gch := ⟨0, 0, 0, some (2, .m, 5, 3)⟩
def r3 : TRec := { rec0 with rtype := 3, txn := none, data := none, gch := some gc0, la := 64 }
def slt (s : State) : State := onTwin (onGran s (fun g => { g with slots := vset g.slots 4 ⟨some 5, none⟩ })) (fun t => { t with agentMap := [(0, 3, 2, 6, 4)] })
def slt2 : State := link (slt (bl r3)) 5 (fun l => { active l with decl := some (dclU 9), slot := some 4 })
def slt3 : State := onTwin slt2 (fun t => { t with agentMap := [(9, 3, 2, 6, 4)] })
def op597 : ℕ := (slt3.fab.slotHere 2).getD 99
def r6 : TRec := { rec0 with rtype := 6, gch := none, txn := none, data := some (77, true), la := 64 }
def cs : State := onFab (bl r6) (fun f => { f with cache := { f.cache with sectors := [((Machine.setOf r6.la) * 10 + 3, { Sector.new 0 0 0 with tag := BitVec.ofNat _ (tagOf r6.la), valid := 1 })] } })
def op598 : Line := 77
def op599 : ℕ := (cs.fab.cache.findSector (Machine.setOf r6.la) (tagOf r6.la)).getD 9
def x4 : TxSlot := ⟨7, 1, .m, .ok, true, 0⟩
def r4 : TRec := { rec0 with rtype := 4, gch := none, txn := some x4, data := none }
def o4 : State := onTwin (bl r4) (fun t => { t with opens := [{ r4 with txn := some { x4 with htag := 8 } }, r4], dups := [(7, (0, 0)), (8, (0, 0))], dedup := [(3, ⟨0, 1, .m, .ok, true, 0, 7, 0, false, true, false⟩), (4, ⟨0, 1, .m, .ok, true, 0, 8, 0, true, true, false⟩)] })
def st600 : State := pr (fun t => { t with outstanding := [rec0, { rec0 with lseq := 1 }, { rec0 with src := 3 }] })
def st601 : State := pr (fun t => { t with outstanding := [rec0, { rec0 with lseq := 1 }, { rec0 with src := 3 }], late := [{ rec0 with src := 4 }] })

/-- The hypotheses of the clauses of TheTwinGreetsAndKeepsTime are met. -/
theorem witness_TheTwinGreetsAndKeepsTime :
    (sTwin.on 8 = true ∧ sTwin.cfg.twinEn = true ∧ sTwin.fab.tlink.st = LinkState.active ∧ sTwin.fab.twin.pair ≠
      PairState.paired ∧ sTwin.fab.twin.pair ≠ PairState.isolated ∧ (sTwin.ownHello.digest = op537.digest ∧
      sTwin.ownHello.fwMajor = op537.fwMajor ∧ sTwin.ownHello.fwMinor = op537.fwMinor ∧ sTwin.ownHello.capGib =
      op537.capGib ∧ sTwin.ownHello.epoch = op537.epoch ∧ sTwin.ownHello.time = op537.time ∧ sTwin.ownHello.survived
      = op537.survived) ∧ helloRole sTwin.ownHello op537 = some false) ∧
    (st538.on 8 = true ∧ st538.cfg.twinEn = true ∧ st538.fab.tlink.st = LinkState.active ∧ st538.fab.twin.pair ≠
      PairState.paired ∧ st538.fab.twin.pair ≠ PairState.isolated ∧ (st538.ownHello.digest = op539.digest ∧
      st538.ownHello.fwMajor = op539.fwMajor ∧ st538.ownHello.fwMinor = op539.fwMinor ∧ st538.ownHello.capGib =
      op539.capGib ∧ st538.ownHello.epoch = op539.epoch ∧ st538.ownHello.time = op539.time ∧ st538.ownHello.survived
      = op539.survived) ∧ helloRole st538.ownHello op539 = some false) ∧
    (st540.on 8 = true ∧ st540.cfg.twinEn = true ∧ st540.fab.tlink.st = LinkState.declare ∧ st540.fab.twin.pair ≠
      PairState.isolated ∧ (st540.ownHello.digest = op541.digest ∧ st540.ownHello.fwMajor = op541.fwMajor ∧
      st540.ownHello.fwMinor = op541.fwMinor ∧ st540.ownHello.capGib = op541.capGib ∧ st540.ownHello.epoch =
      op541.epoch ∧ st540.ownHello.time = op541.time ∧ st540.ownHello.survived = op541.survived) ∧ helloRole
      st540.ownHello op541 = some false) ∧
    (st542.on 8 = true ∧ st542.cfg.twinEn = true ∧ st542.fab.tlink.st = LinkState.active ∧ st542.fab.twin.pair =
      PairState.paired) ∧
    (st543.on 8 = true ∧ st543.cfg.twinEn = true ∧ st543.fab.tlink.st = LinkState.active ∧ st543.fab.twin.pair ≠
      PairState.paired ∧ st543.ownHello.digest ≠ op544.digest) ∧
    (st545.on 8 = true ∧ st545.cfg.twinEn = true ∧ st545.fab.tlink.st = LinkState.active ∧ st545.fab.twin.pair ≠
      PairState.paired ∧ st545.ownHello.digest ≠ op544.digest) ∧
    (st546.on 8 = true ∧ st546.cfg.twinEn = true ∧ st546.fab.tlink.st = LinkState.active ∧ st546.fab.twin.pair ≠
      PairState.paired ∧ st546.ownHello.digest ≠ op544.digest) ∧
    (st547.on 8 = true ∧ (st547.cfg.twinEn = false ∨ st547.fab.tlink.st ≠ LinkState.declare ∧ st547.fab.tlink.st ≠
      LinkState.active)) :=
  ⟨by refine ⟨?_, ?_, ?_, ?_, ?_, ⟨rfl, by decide +kernel, by decide +kernel, by decide +kernel, by decide +kernel, by decide +kernel, by decide +kernel⟩, ?_⟩ <;> decide +kernel,
   by refine ⟨?_, ?_, ?_, ?_, ?_, ⟨rfl, by decide +kernel, by decide +kernel, by decide +kernel, by decide +kernel, by decide +kernel, by decide +kernel⟩, ?_⟩ <;> decide +kernel,
   by refine ⟨?_, ?_, ?_, ?_, ⟨rfl, by decide +kernel, by decide +kernel, by decide +kernel, by decide +kernel, by decide +kernel, by decide +kernel⟩, ?_⟩ <;> decide +kernel,
   by decide +kernel,
   by refine ⟨?_, ?_, ?_, ?_, ne_succ _⟩ <;> decide +kernel,
   by refine ⟨?_, ?_, ?_, ?_, ne_succ _⟩ <;> decide +kernel,
   by refine ⟨?_, ?_, ?_, ?_, ne_succ _⟩ <;> decide +kernel,
   by decide +kernel⟩

/-- The hypotheses of the clauses of TheTwinGreetsAndKeepsTime are met. -/
theorem witness_TheTwinGreetsAndKeepsTime_2 :
    (sUp.on 8 = true ∧ (sUp.cfg.twinEn = false ∨ sUp.fab.tlink.st ≠ LinkState.declare ∧ sUp.fab.tlink.st ≠
      LinkState.active)) ∧
    (st548.on 8 = true ∧ (st548.cfg.twinEn = false ∨ st548.fab.tlink.st ≠ LinkState.active)) ∧
    (sUp.on 8 = true ∧ (sUp.cfg.twinEn = false ∨ sUp.fab.tlink.st ≠ LinkState.active)) ∧
    (st549.on 8 = true ∧ (st549.fab.twin.role = 1 ∨ st549.fab.twin.role = 3) ∧ st549.fab.tlink.st = LinkState.active) ∧
    (st550.on 8 = true ∧ (st550.fab.twin.role = 1 ∨ st550.fab.twin.role = 3) ∧ st550.fab.tlink.st = LinkState.active) ∧
    (st551.on 8 = true ∧ (st551.fab.twin.role ≠ 1 ∧ st551.fab.twin.role ≠ 3 ∨ st551.fab.tlink.st ≠ LinkState.active)) ∧
    (st548.on 8 = true ∧ (st548.fab.twin.role ≠ 1 ∧ st548.fab.twin.role ≠ 3 ∨ st548.fab.tlink.st ≠ LinkState.active)) ∧
    (st552.on 8 = true ∧ st552.fab.twin.role = 2 ∧ (BitVec.toNat op553 + 5 / 2 ≤ BitVec.toNat st552.fab.time + 1 ∧
      BitVec.toNat st552.fab.time ≤ BitVec.toNat op553 + 5 / 2 + 1)) :=
  ⟨by decide +kernel,
   by decide +kernel,
   by decide +kernel,
   by decide +kernel,
   by decide +kernel,
   by decide +kernel,
   by decide +kernel,
   by decide +kernel⟩

/-- The hypotheses of the clauses of TheTwinGreetsAndKeepsTime are met. -/
theorem witness_TheTwinGreetsAndKeepsTime_3 :
    (st554.on 8 = true ∧ st554.fab.twin.role = 2 ∧ (BitVec.toNat op553 + 5 / 2 ≤ BitVec.toNat st554.fab.time + 1 ∧
      BitVec.toNat st554.fab.time ≤ BitVec.toNat op553 + 5 / 2 + 1)) ∧
    (st555.on 8 = true ∧ st555.fab.twin.role = 2 ∧ (BitVec.toNat st555.fab.time + 1 < BitVec.toNat op553 + 5 / 2 ∨
      BitVec.toNat op553 + 5 / 2 + 1 < BitVec.toNat st555.fab.time)) ∧
    (st556.on 8 = true ∧ st556.fab.twin.role = 2 ∧ (BitVec.toNat st556.fab.time + 1 < BitVec.toNat op553 + 5 / 2 ∨
      BitVec.toNat op553 + 5 / 2 + 1 < BitVec.toNat st556.fab.time)) ∧
    (st557.on 8 = true ∧ st557.fab.twin.role = 2 ∧ (BitVec.toNat st557.fab.time + 1 < BitVec.toNat op558 + 5 / 2 ∨
      BitVec.toNat op558 + 5 / 2 + 1 < BitVec.toNat st557.fab.time)) ∧
    (sTwin.on 8 = true ∧ sTwin.fab.twin.role ≠ 2) ∧
    (st559.on 8 = true ∧ (∀ m ∈ st559.fab.tlink.rxq, ¬(13 ≤ bitsOf (BitVec.toNat m.hdr) 0 4 ∧ bitsOf (BitVec.toNat
      m.hdr) 4 4 = 6))) ∧
    (st560.on 8 = true) ∧
    (st562.on 8 = true ∧ st562.fab.draining = true) :=
  ⟨by decide +kernel,
   by decide +kernel,
   by decide +kernel,
   by decide +kernel,
   by decide +kernel,
   by decide +kernel,
   by decide +kernel,
   by decide +kernel⟩

/-- The hypotheses of the clauses of TheTwinGreetsAndKeepsTime are met. -/
theorem witness_TheTwinGreetsAndKeepsTime_4 :
    (am2.on 8 = true ∧ am2.fab.draining = false) ∧
    (sTwin.on 8 = true ∧ sTwin.fab.twin.pair ≠ PairState.resync) ∧
    (st563.on 8 = true ∧ st563.fab.twin.pair = PairState.resync) ∧
    (st564.on 8 = true ∧ st564.fab.twin.pair = PairState.resync) ∧
    (st565.on 8 = true ∧ st565.fab.twin.pair = PairState.resync) :=
  ⟨by decide +kernel,
   by decide +kernel,
   by decide +kernel,
   by decide +kernel,
   by decide +kernel⟩

/-- The hypotheses of the clauses of LosingThePartnerIsDecided are met. -/
theorem witness_LosingThePartnerIsDecided :
    (u0.on 8 = true ∧ u0.cfg.twinEn = true ∧ op566 ∈ [(Instr.twinGoodbye, u0.fab.ctlTaken 4), (Instr.hbTimeout,
      u0.fab)] ∧ u0.fab.twin.pair = PairState.hello) ∧
    (u0.on 8 = true ∧ u0.cfg.twinEn = true ∧ op567 ∈ [(Instr.twinGoodbye, u0.fab.ctlTaken 4), (Instr.hbTimeout,
      u0.fab)] ∧ u0.fab.twin.pair = PairState.hello) ∧
    (u1.on 8 = true ∧ u1.cfg.twinEn = true ∧ op568 ∈ [(Instr.twinGoodbye, u1.fab.ctlTaken 4), (Instr.hbTimeout,
      u1.fab)] ∧ u1.fab.twin.pair = PairState.paired ∧ u1.fab.twin.step = 0 ∧ u1.fab.twin.witness = 1) ∧
    (u2.on 8 = true ∧ u2.cfg.twinEn = true ∧ op569 ∈ [(Instr.twinGoodbye, u2.fab.ctlTaken 4), (Instr.hbTimeout,
      u2.fab)] ∧ u2.fab.twin.pair = PairState.paired ∧ u2.fab.twin.step = 0 ∧ u2.fab.twin.witness ≠ 1 ∧
      u2.fab.twin.witness ≠ 2 ∧ u2.fab.twin.strap = false) ∧
    (u2b.on 8 = true ∧ u2b.cfg.twinEn = true ∧ op570 ∈ [(Instr.twinGoodbye, u2b.fab.ctlTaken 4), (Instr.hbTimeout,
      u2b.fab)] ∧ u2b.fab.twin.pair = PairState.paired ∧ u2b.fab.twin.step = 0 ∧ u2b.fab.twin.witness ≠ 1 ∧
      u2b.fab.twin.witness ≠ 2 ∧ u2b.fab.twin.strap = false) ∧
    (u3.on 8 = true ∧ u3.cfg.twinEn = true ∧ op571 ∈ [(Instr.twinGoodbye, u3.fab.ctlTaken 4), (Instr.hbTimeout,
      u3.fab)] ∧ u3.fab.twin.pair = PairState.paired ∧ u3.fab.twin.step = 0 ∧ (u3.fab.twin.witness = 2 ∨
      u3.fab.twin.witness ≠ 1 ∧ u3.fab.twin.strap = true)) ∧
    (u3b.on 8 = true ∧ u3b.cfg.twinEn = true ∧ op572 ∈ [(Instr.twinGoodbye, u3b.fab.ctlTaken 4), (Instr.hbTimeout,
      u3b.fab)] ∧ u3b.fab.twin.pair = PairState.paired ∧ u3b.fab.twin.step = 0 ∧ (u3b.fab.twin.witness = 2 ∨
      u3b.fab.twin.witness ≠ 1 ∧ u3b.fab.twin.strap = true)) ∧
    (u4.on 8 = true ∧ u4.cfg.twinEn = true ∧ op573 ∈ [(Instr.twinGoodbye, u4.fab.ctlTaken 4), (Instr.hbTimeout,
      u4.fab)] ∧ u4.fab.twin.pair = PairState.paired ∧ u4.fab.twin.step ≠ 0) :=
  ⟨by refine ⟨?_, ?_, by first | exact List.Mem.head _ | exact List.Mem.tail _ (List.Mem.head _), ?_⟩ <;> decide +kernel,
   by refine ⟨?_, ?_, by first | exact List.Mem.head _ | exact List.Mem.tail _ (List.Mem.head _), ?_⟩ <;> decide +kernel,
   by refine ⟨?_, ?_, by first | exact List.Mem.head _ | exact List.Mem.tail _ (List.Mem.head _), ?_, ?_, ?_⟩ <;> decide +kernel,
   by refine ⟨?_, ?_, by first | exact List.Mem.head _ | exact List.Mem.tail _ (List.Mem.head _), ?_, ?_, ?_, ?_, ?_⟩ <;> decide +kernel,
   by refine ⟨?_, ?_, by first | exact List.Mem.head _ | exact List.Mem.tail _ (List.Mem.head _), ?_, ?_, ?_, ?_, ?_⟩ <;> decide +kernel,
   by refine ⟨?_, ?_, by first | exact List.Mem.head _ | exact List.Mem.tail _ (List.Mem.head _), ?_, ?_, ?_⟩ <;> decide +kernel,
   by refine ⟨?_, ?_, by first | exact List.Mem.head _ | exact List.Mem.tail _ (List.Mem.head _), ?_, ?_, ?_⟩ <;> decide +kernel,
   by refine ⟨?_, ?_, by first | exact List.Mem.head _ | exact List.Mem.tail _ (List.Mem.head _), ?_, ?_⟩ <;> decide +kernel⟩

/-- The hypotheses of the clauses of LosingThePartnerIsDecided are met. -/
theorem witness_LosingThePartnerIsDecided_2 :
    (u5.on 8 = true ∧ u5.cfg.twinEn = true ∧ op574 ∈ [(Instr.twinGoodbye, u5.fab.ctlTaken 4), (Instr.hbTimeout,
      u5.fab)] ∧ u5.fab.twin.pair = PairState.resync ∧ u5.fab.twin.rejoiner = false) ∧
    (st575.on 8 = true ∧ st575.cfg.twinEn = true ∧ op576 ∈ [(Instr.twinGoodbye, st575.fab.ctlTaken 4),
      (Instr.hbTimeout, st575.fab)] ∧ st575.fab.twin.pair = PairState.resync ∧ st575.fab.twin.rejoiner = true) ∧
    (u6.on 8 = true ∧ u6.cfg.twinEn = true ∧ op577 ∈ [(Instr.twinGoodbye, u6.fab.ctlTaken 4), (Instr.hbTimeout,
      u6.fab)] ∧ u6.fab.twin.pair = PairState.resync ∧ u6.fab.twin.rejoiner = true ∧ (∀ a < 32, (u6.fab.link a).st ≠
      LinkState.active ∧ (u6.fab.link a).st ≠ LinkState.recovery)) ∧
    (u8.on 8 = true ∧ u8.cfg.twinEn = true ∧ op578 ∈ [(Instr.twinGoodbye, u8.fab.ctlTaken 4), (Instr.hbTimeout,
      u8.fab)] ∧ u8.fab.twin.pair ≠ PairState.hello ∧ u8.fab.twin.pair ≠ PairState.paired ∧ u8.fab.twin.pair ≠
      PairState.resync) ∧
    (st579.on 8 = true ∧ st579.cfg.twinEn = true ∧ ((if true = true then if true = true then 2 else 1 else 0) = 2 ∧
      (st579.fab.twin.step = 2 ∨ st579.fab.twin.pair = PairState.waiting))) ∧
    (st580.on 8 = true ∧ st580.cfg.twinEn = true ∧ ((if true = true then if true = true then 2 else 1 else 0) = 2 ∧
      (st580.fab.twin.step = 2 ∨ st580.fab.twin.pair = PairState.waiting))) ∧
    (st579.on 8 = true ∧ st579.cfg.twinEn = true ∧ (¬((if false = false then if false = true then 2 else 1 else 0) =
      2 ∧ (st579.fab.twin.step = 2 ∨ st579.fab.twin.pair = PairState.waiting)))) ∧
    (sTwin.on 8 = true ∧ sTwin.cfg.twinEn = true ∧ (¬((if true = false then if true = true then 2 else 1 else 0) = 2
      ∧ (sTwin.fab.twin.step = 2 ∨ sTwin.fab.twin.pair = PairState.waiting)))) :=
  ⟨by refine ⟨?_, ?_, by first | exact List.Mem.head _ | exact List.Mem.tail _ (List.Mem.head _), ?_, ?_⟩ <;> decide +kernel,
   by refine ⟨?_, ?_, by first | exact List.Mem.head _ | exact List.Mem.tail _ (List.Mem.head _), ?_, ?_⟩ <;> decide +kernel,
   by refine ⟨?_, ?_, by first | exact List.Mem.head _ | exact List.Mem.tail _ (List.Mem.head _), ?_, ?_, ?_⟩ <;> decide +kernel,
   by refine ⟨?_, ?_, by first | exact List.Mem.head _ | exact List.Mem.tail _ (List.Mem.head _), ?_, ?_, ?_⟩ <;> decide +kernel,
   by decide +kernel,
   by decide +kernel,
   by decide +kernel,
   by decide +kernel⟩

/-- The hypotheses of the clauses of LosingThePartnerIsDecided are met. -/
theorem witness_LosingThePartnerIsDecided_3 :
    (sTwin.on 8 = true ∧ sTwin.cfg.twinEn = true ∧ sTwin.fab.twin.step ≠ 2) ∧
    (st581.on 8 = true ∧ st581.cfg.twinEn = true ∧ st581.fab.twin.step = 2) ∧
    (st579.on 8 = true ∧ st579.cfg.twinEn = true ∧ st579.fab.twin.step = 2 ∧ (∀ a < 32, (st579.fab.link a).st ≠
      LinkState.active ∧ (st579.fab.link a).st ≠ LinkState.recovery) ∧ st579.fab.twin.pair ≠ PairState.isolated) ∧
    (sTwin.on 8 = true ∧ sTwin.cfg.twinEn = true ∧ sTwin.fab.twin.step ≠ 4) ∧
    (st582.on 8 = true ∧ st582.cfg.twinEn = true ∧ st582.fab.twin.step = 4 ∧ st582.fab.twin.backlog = []) ∧
    (st583.on 8 = true ∧ st583.cfg.twinEn = true ∧ st583.fab.twin.step = 4 ∧ st583.fab.twin.backlog = [rec0]) ∧
    (sTwin.on 8 = true ∧ sTwin.cfg.twinEn = true ∧ sTwin.fab.twin.step ≠ 5) ∧
    (st584.on 8 = true ∧ st584.cfg.twinEn = true ∧ st584.fab.twin.step = 5 ∧ st584.fab.twin.opens = [] ∧
      st584.fab.txns = [] ∧ (∀ a < 32, st584.fab.notTwin a = false)) :=
  ⟨by decide +kernel,
   by decide +kernel,
   by decide +kernel,
   by decide +kernel,
   by decide +kernel,
   by decide +kernel,
   by decide +kernel,
   by decide +kernel⟩

/-- The hypotheses of the clauses of LosingThePartnerIsDecided are met. -/
theorem witness_LosingThePartnerIsDecided_4 :
    (sTwin.on 8 = true ∧ sTwin.cfg.twinEn = true ∧ sTwin.fab.twin.resendOpen = false) ∧
    (st585.on 8 = true ∧ st585.cfg.twinEn = true ∧ st585.fab.twin.resendOpen = true ∧ (∀ t ∈ st585.fab.txns, t.op ≠
      TOp.reconcile)) ∧
    (st586.on 8 = true ∧ st586.cfg.twinEn = true ∧ st586.fab.twin.resendOpen = true ∧ st586.fab.txns = [rcT] ∧ rcT.op
      = TOp.reconcile ∧ rcT.value = 0) ∧
    (st587.on 8 = true ∧ st587.cfg.twinEn = true ∧ st587.fab.twin.resendOpen = true ∧ st587.fab.txns = [rcI] ∧ rcI.op
      = TOp.reconcile ∧ rcI.value = 1 ∧ rcI.snoops = [snO] ∧ snO.op = Op.snpOwn ∧ snO.resp = some (Op.rspI, 0, false)
      ∧ rcI.todo = [Micro.ack]) ∧
    (sTwin.on 8 = true ∧ sTwin.cfg.twinEn = true ∧ sTwin.fab.twin.stbyWalk = false) ∧
    (sec1.on 8 = true ∧ sec1.cfg.twinEn = true ∧ sec1.fab.twin.stbyWalk = true) ∧
    (st588.on 8 = true ∧ st588.cfg.twinEn = true ∧ st588.fab.twin.stbyWalk = true) :=
  ⟨by decide +kernel,
   by decide +kernel,
   by decide +kernel,
   by decide +kernel,
   by decide +kernel,
   by decide +kernel,
   by decide +kernel⟩

/-- The hypotheses of the clauses of LogRecordsAreTakenAndApplied are met. -/
theorem witness_LogRecordsAreTakenAndApplied :
    (sTwin.on 8 = true ∧ sTwin.fab.tlink.st = LinkState.active ∧ vget sTwin.fab.twin.expect 0 rec0.src = rec0.lseq) ∧
    (st589.on 8 = true ∧ st589.fab.tlink.st = LinkState.active ∧ vget st589.fab.twin.expect 0 op590.src = op590.lseq) ∧
    (sTwin.on 8 = true ∧ sTwin.fab.tlink.st = LinkState.active ∧ vget sTwin.fab.twin.expect 0 op591.src ≠ op591.lseq) ∧
    (st548.on 8 = true ∧ st548.fab.tlink.st ≠ LinkState.active) ∧
    (sTwin.on 8 = true ∧ (∀ r ∈ sTwin.fab.twin.backlog, r.src ≠ 3)) ∧
    (st592.on 8 = true ∧ (∀ r ∈ st592.fab.twin.backlog, r.src ≠ 3)) ∧
    (st593.on 8 = true ∧ st593.fab.twin.backlog = r8 :: op594 ∧ r8.rtype = 8 ∧ r8.gch = none ∧ r8.txn = none ∧
      st593.cfg.regionOf r8.la = some rg64) ∧
    (st595.on 8 = true ∧ st595.fab.twin.backlog = op596 :: op594 ∧ op596.rtype = 8 ∧ op596.gch = none ∧ op596.txn =
      none ∧ st595.cfg.regionOf op596.la = some rg64) :=
  ⟨by decide +kernel,
   by decide +kernel,
   by decide +kernel,
   by decide +kernel,
   by decide +kernel,
   by decide +kernel,
   by decide +kernel,
   by decide +kernel⟩

/-- The hypotheses of the clauses of LogRecordsAreTakenAndApplied are met. -/
theorem witness_LogRecordsAreTakenAndApplied_2 :
    (slt3.on 8 = true ∧ slt3.fab.twin.backlog = r3 :: op594 ∧ r3.rtype = 3 ∧ r3.txn = none ∧ r3.data = none ∧ r3.gch
      = some gc0 ∧ gc0.remove = 0 ∧ gc0.toS = 0 ∧ gc0.write = some (2, LSt.m, 5, 3) ∧ slt3.fab.slotHere 2 = some
      op597) ∧
    (cs.on 8 = true ∧ cs.fab.twin.backlog = r6 :: op594 ∧ r6.rtype = 6 ∧ r6.gch = none ∧ r6.txn = none ∧ r6.data =
      some (op598, true) ∧ cs.cfg.regionOf r6.la = some rg64 ∧ rg64.line = false ∧ rg64.typ.cacheable = true ∧
      cs.cfg.cacheEn (sliceOf r6.la) = true ∧ cs.fab.cache.findSector (Machine.setOf r6.la) (tagOf r6.la) = some
      op599) ∧
    (o4.on 8 = true ∧ o4.fab.twin.backlog = r4 :: op594 ∧ r4.rtype = 4 ∧ r4.gch = none ∧ r4.txn = some x4 ∧ r4.data =
      none) ∧
    (sTwin.on 8 = true ∧ sTwin.fab.unacked (9, 5) = false) ∧
    (st600.on 8 = true ∧ st600.fab.unacked (2, 0) = true ∧ st600.fab.twin.late = []) ∧
    (st601.on 8 = true ∧ st601.fab.unacked (2, 0) = true) :=
  ⟨by decide +kernel,
   by decide +kernel,
   by decide +kernel,
   by decide +kernel,
   by decide +kernel,
   by decide +kernel⟩

end W10

namespace W11

def at_ (n : Nat) (g : Stw → Stw) : State := onStw sRgn (fun w => g { w with step := n, before := sRgn.cfg, staged := sRgn.cfg })
def dq (d : Desc) (s : State) : State := onHrw s (fun h => { h with descs := [d] })
def vn (s : State) : State := onTwin s (fun t => { t with pair := .paired, role := 1 })
def vf (s : State) : State := onTwin (vn s) (fun t => { t with late := [rec0] })
def vu (s : State) : State := onStw (onTwin (vn s) (fun t => { t with outstanding := [rec0] })) (fun w => { w with stepGate := some (2, 0) })
def va (s : State) : State := onStw (vn s) (fun w => { w with stepGate := some (3, 9) })
def st602 : State := onStw sRgn (fun w => { w with preclean := true, waiting := [(.apply 3, 0)] })
def st603 : State := dq { desc0 with queue := 50 } (onStw sRgn (fun w => { w with preclean := true }))
def st604 : State := at_ 1 id
def st605 : State := vf (at_ 1 id)
def st606 : State := vn (at_ 1 id)
def st607 : State := vu (at_ 1 id)
def op608 : ℕ × ℕ := (2, 0)
def st609 : State := va (at_ 1 id)
def op610 : ℕ × ℕ := (3, 9)
def st611 : State := at_ 1 (fun w => { w with by_ := .stop 16 })
def st612 : State := vn (at_ 1 (fun w => { w with by_ := .stop 16 }))
def st613 : State := at_ 2 id
def st614 : State := vf (at_ 2 id)
def st615 : State := vn (at_ 2 id)
def st616 : State := vu (at_ 2 id)
def st617 : State := va (at_ 2 id)
def st618 : State := onFab (at_ 2 id) (fun f => { f with txns := [txn0] })
def st619 : State := at_ 3 id
def st620 : State := vf (at_ 3 id)
def st621 : State := vn (at_ 3 id)
def st622 : State := vu (at_ 3 id)
def st623 : State := va (at_ 3 id)
def st624 : State := onFab (at_ 3 id) (fun f => { f with ord := vset f.ord 31 { Ord.init with short := [4] } })
def st625 : State := onWgb (at_ 4 id) (fun w => { w with powered := true, tcxoOk := true, len := 900 })
def st626 : State := at_ 4 id
def st627 : State := vn (at_ 4 (fun w => { w with by_ := .stop 16 }))
def st628 : State := vn (at_ 4 id)
def st629 : State := va (at_ 4 id)
def st630 : State := onTwin (vn (at_ 4 id)) (fun t => { t with outstanding := [rec0] })
def st631 : State := vf (at_ 4 (fun w => { w with by_ := .stop 16 }))
def st632 : State := onWgb (at_ 5 id) (fun w => { w with powered := true, tcxoOk := true, short := some 3 })
def st633 : State := at_ 5 id
def st634 : State := vf (at_ 5 id)
def st635 : State := vn (at_ 5 id)
def st636 : State := vu (at_ 5 id)
def st637 : State := va (at_ 5 id)
def st638 : State := at_ 6 (fun w => { w with by_ := .apply 3, opts := 6 })
def st639 : State := vf (at_ 6 (fun w => { w with by_ := .apply 3, opts := 6 }))
def st640 : State := vn (at_ 6 (fun w => { w with by_ := .apply 3, opts := 6 }))
def st641 : State := vu (at_ 6 (fun w => { w with by_ := .apply 3, opts := 6 }))
def st642 : State := va (at_ 6 (fun w => { w with by_ := .apply 3, opts := 6 }))
def st643 : State := at_ 6 (fun w => { w with by_ := .joint })
def st644 : State := at_ 6 (fun w => { w with by_ := .stop 16 })
def st645 : State := vn (at_ 6 (fun w => { w with by_ := .stop 16 }))
def st646 : State := vn (at_ 7 id)
def st647 : State := at_ 8 id
def st648 : State := vn (at_ 8 id)
def st649 : State := onStw sUp (fun w => { w with up := false, preclean := true })
def st650 : State := at_ 7 (fun w => { w with sub := 5, rewrite := true })
def sbJ (n : Nat) : State := at_ 7 (fun w => { w with sub := n, by_ := .joint })
def sb (n : Nat) (g : Stw → Stw) : State := at_ 7 (fun w => g { w with sub := n, by_ := .apply 3 })
def off (c : Cfg) : Cfg := { c with tag := Vector.replicate 8 0x00140070 }
def rg1 : RgnWords := ⟨0x1021, 0, 0, 0xFFF, 0, 0⟩
def chg (c : Cfg) : Cfg := { c with rgn := vset c.rgn 0 ⟨0x1021, 0, 0, 0xEFF, 0, 0⟩ }
def st651 : State := sb 1 id
def op652 : List Bool := []
def st653 : State := vf (sb 1 id)
def st654 : State := vn (sb 1 id)
def st655 : State := vu (sb 1 id)
def st656 : State := va (sb 1 id)
def st657 : State := sb 1 (fun w => { w with opts := 2 })
def st658 : State := vf (sb 1 (fun w => { w with opts := 2 }))
def st659 : State := vn (sb 1 (fun w => { w with opts := 2 }))
def st660 : State := vu (sb 1 (fun w => { w with opts := 2 }))
def st661 : State := va (sb 1 (fun w => { w with opts := 2 }))
def st662 : State := sb 1 (fun w => { w with staged := off w.before })
def st663 : State := sb 1 (fun w => { w with staged := chg w.before })
def st664 : State := vf (sb 1 (fun w => { w with staged := chg w.before }))
def st665 : State := vn (sb 1 (fun w => { w with staged := chg w.before }))
def st666 : State := vu (sb 1 (fun w => { w with staged := chg w.before }))
def st667 : State := va (sb 1 (fun w => { w with staged := chg w.before }))
def ch1 (c : Cfg) : Cfg := { c with rgn := vset c.rgn 0 ⟨0x1021, 0, 0, 0x7FFFFFF, 0, 0⟩ }
def st668 : State := sb 1 (fun w => { w with before := ch1 w.before })
def op669 : RgnWords := ⟨0x1021, 0, 0, 0x7FFFFFF, 0, 0⟩
def cb (c : Cfg) : Cfg := { c with tag := Vector.replicate 8 0x00140073 }
def st670 : State := (sb 1 (fun w => { w with staged := cb w.before }))
def st671 : State := vf (sb 1 (fun w => { w with staged := cb w.before }))
def st672 : State := vn (sb 1 (fun w => { w with staged := cb w.before }))
def st673 : State := vu (sb 1 (fun w => { w with staged := cb w.before }))
def st674 : State := va (sb 1 (fun w => { w with staged := cb w.before }))
def st675 : State := dq { desc0 with queue := 50 } (sb 2 id)
def st676 : State := sb 2 id
def st677 : State := vf (sb 2 id)
def st678 : State := vn (sb 2 id)
def st679 : State := vu (sb 2 id)
def st680 : State := va (sb 2 id)
def st681 : State := sb 2 (fun w => { w with staged := chg (off w.before) })
def dirty (s : State) : State := onFab s (fun f => { f with cache := { f.cache with sectors := [(0, { Sector.new 0 0 0 with valid := 1, dirty := 1 })] } })
def st682 : State := dirty (sb 2 (fun w => { w with staged := off w.before }))
def stp : State := dirty (sb 2 (fun w => { w with by_ := .stop 16 }))
def st683 : State := put stp 16 0x0B01 []
def st684 : State := onGln (sb 3 id) (fun g => { g with repairs := [rep0] })
def st685 : State := vf (onGln (sb 3 id) (fun g => { g with repairs := [rep0] }))
def st686 : State := vn (onGln (sb 3 id) (fun g => { g with repairs := [rep0] }))
def st687 : State := vu (onGln (sb 3 id) (fun g => { g with repairs := [rep0] }))
def st688 : State := va (onGln (sb 3 id) (fun g => { g with repairs := [rep0] }))
def rp1 : Repair := { rep0 with state := 1 }
def st689 : State := (onGln (sb 3 id) (fun g => { g with repairs := [rp1] }))
def st690 : State := vf (onGln (sb 3 id) (fun g => { g with repairs := [rp1] }))
def st691 : State := vn (onGln (sb 3 id) (fun g => { g with repairs := [rp1] }))
def st692 : State := vu (onGln (sb 3 id) (fun g => { g with repairs := [rp1] }))
def st693 : State := va (onGln (sb 3 id) (fun g => { g with repairs := [rp1] }))
def st694 : State := onGln (sb 3 id) (fun g => { g with repairs := [rp1] })
def op695 : List Bool := [false]
def st696 : State := onGln (sb 3 id) (fun g => { g with repairs := [{ rp1 with block := 9 }] })
def op697 : List Bool := [true]
def op698 : Repair := { rp1 with block := 9 }
def st699 : State := onGln (sb 3 id) (fun g => { g with repairs := [{ rp1 with block := 9 }], faulty := [(9, (sb 3 id).fab.rankOf rp1.loc, rp1.dram)] })
def st700 : State := onGln (sb 3 id) (fun g => { g with repairs := [{ rp1 with block := 10 }] })
def op701 : Repair := { rp1 with block := 10 }
def st702 : State := (sb 4 (fun w => { w with staged := chg w.before }))
def st703 : State := vf (sb 4 (fun w => { w with staged := chg w.before }))
def st704 : State := vn (sb 4 (fun w => { w with staged := chg w.before }))
def st705 : State := vu (sb 4 (fun w => { w with staged := chg w.before }))
def st706 : State := va (sb 4 (fun w => { w with staged := chg w.before }))
def st707 : State := sb 5 (fun w => { w with rewrite := true })
def st708 : State := onGran (sb 5 id) (fun g => { g with slots := vset g.slots 15 ⟨none, some 3⟩ })
def st709 : State := sb 5 id
def st710 : State := vf (sb 5 id)
def st711 : State := vn (sb 5 id)
def st712 : State := vu (sb 5 id)
def st713 : State := va (sb 5 id)
def st714 : State := sb 6 id
def st715 : State := vf (sb 6 id)
def st716 : State := vn (sb 6 id)
def st717 : State := vu (sb 6 id)
def st718 : State := va (sb 6 id)
def st719 : State := sb 6 (fun w => { w with joint := true })
def tg (s : State) : State := onTwin (onFab s (fun f => { f with tlink := active f.tlink })) (fun t => { t with pair := .paired, role := 1 })
def st720 : State := tg (sb 6 id)
def st721 : State := va (tg (sb 6 id))
def st722 : State := vf (tg (sb 6 id))
def st723 : State := onTwin (tg (sb 6 id)) (fun t => { t with role := 2 })
def st724 : State := tg (sb 7 id)
def st725 : State := (put (sb 7 id) 3 0x0201 [])
def st726 : State := vf (put (sb 7 id) 3 0x0201 [])
def st727 : State := vn (put (sb 7 id) 3 0x0201 [])
def st728 : State := vu (put (sb 7 id) 3 0x0201 [])
def st729 : State := va (put (sb 7 id) 3 0x0201 [])
def st730 : State := put (sb 7 id) 3 0x0201 []
def st731 : State := tg (sbJ 7)
def st732 : State := sbJ 7
def st733 : State := vu (sb 7 id)

/-- The hypotheses of the clauses of DrainStepsEndInOrder are met. -/
theorem witness_DrainStepsEndInOrder :
    (st602.stw.up = true ∧ st602.stw.preclean = true ∧ st602.fab.queue1Empty = true) ∧
    (sUp.stw.up = true ∧ (sUp.stw.preclean = false ∨ sUp.fab.queue1Empty = false)) ∧
    (st603.stw.up = true ∧ (st603.stw.preclean = false ∨ st603.fab.queue1Empty = false)) ∧
    (st604.stw.up = true ∧ st604.stw.step = 1 ∧ (st604.fab.mirrors = false ∨ st604.stw.stopping = true)) ∧
    (st605.stw.up = true ∧ st605.stw.step = 1 ∧ st605.fab.mirrors = true ∧ st605.stw.stopping = false ∧
      st605.stw.stepGate = none ∧ st605.fab.logFull = true) ∧
    (st606.stw.up = true ∧ st606.stw.step = 1 ∧ st606.fab.mirrors = true ∧ st606.stw.stopping = false ∧
      st606.stw.stepGate = none ∧ st606.fab.logFull = false) ∧
    (st607.stw.up = true ∧ st607.stw.step = 1 ∧ st607.fab.mirrors = true ∧ st607.stw.stopping = false ∧
      st607.stw.stepGate = some op608 ∧ st607.fab.unacked op608 = true) ∧
    (st609.stw.up = true ∧ st609.stw.step = 1 ∧ st609.fab.mirrors = true ∧ st609.stw.stopping = false ∧
      st609.stw.stepGate = some op610 ∧ st609.fab.unacked op610 = false) :=
  ⟨by decide +kernel,
   by decide +kernel,
   by decide +kernel,
   by decide +kernel,
   by decide +kernel,
   by decide +kernel,
   by decide +kernel,
   by decide +kernel⟩

/-- The hypotheses of the clauses of DrainStepsEndInOrder are met. -/
theorem witness_DrainStepsEndInOrder_2 :
    (st611.stw.up = true ∧ st611.stw.step = 1 ∧ (st611.fab.mirrors = false ∨ st611.stw.stopping = true)) ∧
    (st612.stw.up = true ∧ st612.stw.step = 1 ∧ (st612.fab.mirrors = false ∨ st612.stw.stopping = true)) ∧
    (st613.stw.up = true ∧ st613.stw.step = 2 ∧ (Fabric.flow st613.cfg (Fabric.harrowCut st613.cfg
      st613.fab)).drained = true ∧ (st613.fab.mirrors = false ∨ st613.stw.stopping = true)) ∧
    (st614.stw.up = true ∧ st614.stw.step = 2 ∧ (Fabric.flow st614.cfg (Fabric.harrowCut st614.cfg
      st614.fab)).drained = true ∧ st614.fab.mirrors = true ∧ st614.stw.stopping = false ∧ st614.stw.stepGate = none
      ∧ st614.fab.logFull = true) ∧
    (st615.stw.up = true ∧ st615.stw.step = 2 ∧ (Fabric.flow st615.cfg (Fabric.harrowCut st615.cfg
      st615.fab)).drained = true ∧ st615.fab.mirrors = true ∧ st615.stw.stopping = false ∧ st615.stw.stepGate = none
      ∧ st615.fab.logFull = false) ∧
    (st616.stw.up = true ∧ st616.stw.step = 2 ∧ (Fabric.flow st616.cfg (Fabric.harrowCut st616.cfg
      st616.fab)).drained = true ∧ st616.fab.mirrors = true ∧ st616.stw.stopping = false ∧ st616.stw.stepGate = some
      op608 ∧ st616.fab.unacked op608 = true) ∧
    (st617.stw.up = true ∧ st617.stw.step = 2 ∧ (Fabric.flow st617.cfg (Fabric.harrowCut st617.cfg
      st617.fab)).drained = true ∧ st617.fab.mirrors = true ∧ st617.stw.stopping = false ∧ st617.stw.stepGate = some
      op610 ∧ st617.fab.unacked op610 = false) ∧
    (st618.stw.up = true ∧ st618.stw.step = 2 ∧ (Fabric.flow st618.cfg (Fabric.harrowCut st618.cfg
      st618.fab)).drained = false) :=
  ⟨by decide +kernel,
   by decide +kernel,
   by decide +kernel,
   by decide +kernel,
   by decide +kernel,
   by decide +kernel,
   by decide +kernel,
   by decide +kernel⟩

/-- The hypotheses of the clauses of DrainStepsEndInOrder are met. -/
theorem witness_DrainStepsEndInOrder_3 :
    (st619.stw.up = true ∧ st619.stw.step = 3 ∧ st619.fab.buffersClear = true ∧ (st619.fab.mirrors = false ∨
      st619.stw.stopping = true)) ∧
    (st620.stw.up = true ∧ st620.stw.step = 3 ∧ st620.fab.buffersClear = true ∧ st620.fab.mirrors = true ∧
      st620.stw.stopping = false ∧ st620.stw.stepGate = none ∧ st620.fab.logFull = true) ∧
    (st621.stw.up = true ∧ st621.stw.step = 3 ∧ st621.fab.buffersClear = true ∧ st621.fab.mirrors = true ∧
      st621.stw.stopping = false ∧ st621.stw.stepGate = none ∧ st621.fab.logFull = false) ∧
    (st622.stw.up = true ∧ st622.stw.step = 3 ∧ st622.fab.buffersClear = true ∧ st622.fab.mirrors = true ∧
      st622.stw.stopping = false ∧ st622.stw.stepGate = some op608 ∧ st622.fab.unacked op608 = true) ∧
    (st623.stw.up = true ∧ st623.stw.step = 3 ∧ st623.fab.buffersClear = true ∧ st623.fab.mirrors = true ∧
      st623.stw.stopping = false ∧ st623.stw.stepGate = some op610 ∧ st623.fab.unacked op610 = false) ∧
    (st624.stw.up = true ∧ st624.stw.step = 3 ∧ st624.fab.buffersClear = false) ∧
    (st625.stw.up = true ∧ st625.stw.step = 4 ∧ (st625.fab.mirrors = false ∨ st625.fab.twin.outstanding = [] ∧
      st625.fab.twin.late = [] ∧ st625.stw.stopping = true)) ∧
    (st626.stw.up = true ∧ st626.stw.step = 4 ∧ (st626.fab.mirrors = false ∨ st626.fab.twin.outstanding = [] ∧
      st626.fab.twin.late = [] ∧ st626.stw.stopping = true)) :=
  ⟨by decide +kernel,
   by decide +kernel,
   by decide +kernel,
   by decide +kernel,
   by decide +kernel,
   by decide +kernel,
   by decide +kernel,
   by decide +kernel⟩

/-- The hypotheses of the clauses of DrainStepsEndInOrder are met. -/
theorem witness_DrainStepsEndInOrder_4 :
    (st627.stw.up = true ∧ st627.stw.step = 4 ∧ (st627.fab.mirrors = false ∨ st627.fab.twin.outstanding = [] ∧
      st627.fab.twin.late = [] ∧ st627.stw.stopping = true)) ∧
    (st628.stw.up = true ∧ st628.stw.step = 4 ∧ st628.fab.mirrors = true ∧ st628.fab.twin.outstanding = [] ∧
      st628.fab.twin.late = [] ∧ st628.stw.stopping = false ∧ st628.stw.stepGate = none) ∧
    (st629.stw.up = true ∧ st629.stw.step = 4 ∧ st629.fab.mirrors = true ∧ st629.fab.twin.outstanding = [] ∧
      st629.fab.twin.late = [] ∧ st629.stw.stopping = false ∧ st629.stw.stepGate = some op610) ∧
    (st630.stw.up = true ∧ st630.stw.step = 4 ∧ (¬(st630.fab.twin.outstanding = [] ∧ st630.fab.twin.late = [])) ∧
      st630.fab.mirrors = true) ∧
    (st631.stw.up = true ∧ st631.stw.step = 4 ∧ (¬(st631.fab.twin.outstanding = [] ∧ st631.fab.twin.late = [])) ∧
      st631.fab.mirrors = true) ∧
    (st632.stw.up = true ∧ st632.stw.step = 5 ∧ st632.wgb.powered = true ∧ st632.wgb.tcxoOk = true ∧
      st632.wgb.short.isSome = true) ∧
    (st633.stw.up = true ∧ st633.stw.step = 5 ∧ (st633.wgb.powered = false ∨ st633.wgb.tcxoOk = false ∨
      st633.wgb.short = none)) ∧
    (st634.stw.up = true ∧ st634.stw.step = 5 ∧ (st634.wgb.powered = false ∨ st634.wgb.tcxoOk = false ∨
      st634.wgb.short = none)) :=
  ⟨by decide +kernel,
   by decide +kernel,
   by decide +kernel,
   by decide +kernel,
   by decide +kernel,
   by decide +kernel,
   by decide +kernel,
   by decide +kernel⟩

/-- The hypotheses of the clauses of DrainStepsEndInOrder are met. -/
theorem witness_DrainStepsEndInOrder_5 :
    (st635.stw.up = true ∧ st635.stw.step = 5 ∧ (st635.wgb.powered = false ∨ st635.wgb.tcxoOk = false ∨
      st635.wgb.short = none)) ∧
    (st636.stw.up = true ∧ st636.stw.step = 5 ∧ (st636.wgb.powered = false ∨ st636.wgb.tcxoOk = false ∨
      st636.wgb.short = none)) ∧
    (st637.stw.up = true ∧ st637.stw.step = 5 ∧ (st637.wgb.powered = false ∨ st637.wgb.tcxoOk = false ∨
      st637.wgb.short = none)) ∧
    (st638.stw.up = true ∧ st638.stw.step = 6 ∧ (∀ (m : ℕ), st638.stw.by_ ≠ DrainBy.stop m) ∧ (st638.fab.mirrors =
      false ∨ st638.stw.stopping = true)) ∧
    (st639.stw.up = true ∧ st639.stw.step = 6 ∧ (∀ (m : ℕ), st639.stw.by_ ≠ DrainBy.stop m) ∧ st639.fab.mirrors =
      true ∧ st639.stw.stopping = false ∧ st639.stw.stepGate = none ∧ st639.fab.logFull = true) ∧
    (st640.stw.up = true ∧ st640.stw.step = 6 ∧ (∀ (m : ℕ), st640.stw.by_ ≠ DrainBy.stop m) ∧ st640.fab.mirrors =
      true ∧ st640.stw.stopping = false ∧ st640.stw.stepGate = none ∧ st640.fab.logFull = false) ∧
    (st641.stw.up = true ∧ st641.stw.step = 6 ∧ (∀ (m : ℕ), st641.stw.by_ ≠ DrainBy.stop m) ∧ st641.fab.mirrors =
      true ∧ st641.stw.stopping = false ∧ st641.stw.stepGate = some op608 ∧ st641.fab.unacked op608 = true) ∧
    (st642.stw.up = true ∧ st642.stw.step = 6 ∧ (∀ (m : ℕ), st642.stw.by_ ≠ DrainBy.stop m) ∧ st642.fab.mirrors =
      true ∧ st642.stw.stopping = false ∧ st642.stw.stepGate = some op610 ∧ st642.fab.unacked op610 = false) :=
  ⟨by decide +kernel,
   by decide +kernel,
   by decide +kernel,
   by refine ⟨?_, ?_, (fun _ h => nomatch h), ?_⟩ <;> decide +kernel,
   by refine ⟨?_, ?_, (fun _ h => nomatch h), ?_, ?_, ?_, ?_⟩ <;> decide +kernel,
   by refine ⟨?_, ?_, (fun _ h => nomatch h), ?_, ?_, ?_, ?_⟩ <;> decide +kernel,
   by refine ⟨?_, ?_, (fun _ h => nomatch h), ?_, ?_, ?_, ?_⟩ <;> decide +kernel,
   by refine ⟨?_, ?_, (fun _ h => nomatch h), ?_, ?_, ?_, ?_⟩ <;> decide +kernel⟩

/-- The hypotheses of the clauses of DrainStepsEndInOrder are met. -/
theorem witness_DrainStepsEndInOrder_6 :
    (st643.stw.up = true ∧ st643.stw.step = 6 ∧ (∀ (m : ℕ), st643.stw.by_ ≠ DrainBy.stop m) ∧ (st643.fab.mirrors =
      false ∨ st643.stw.stopping = true)) ∧
    (st644.stw.up = true ∧ st644.stw.step = 6 ∧ st644.stw.by_ = DrainBy.stop 16) ∧
    (st645.stw.up = true ∧ st645.stw.step = 6 ∧ st645.stw.by_ = DrainBy.stop 16) ∧
    (sUp.stw.up = true ∧ (sUp.stw.step = 0 ∨ sUp.stw.step = 7)) ∧
    (st646.stw.up = true ∧ (st646.stw.step = 0 ∨ st646.stw.step = 7)) ∧
    (st647.stw.up = true ∧ st647.stw.step = 8 ∧ st647.stw.waiting = []) ∧
    (st648.stw.up = true ∧ st648.stw.step = 8 ∧ st648.stw.waiting = []) ∧
    (st649.stw.up = false ∧ Instr.precleanEnd ∈ [Instr.precleanEnd, Instr.drainStepEnd, Instr.tenantRewriteEnd]) :=
  ⟨by refine ⟨?_, ?_, (fun _ h => nomatch h), ?_⟩ <;> decide +kernel,
   by decide +kernel,
   by decide +kernel,
   by decide +kernel,
   by decide +kernel,
   by decide +kernel,
   by decide +kernel,
   by decide +kernel⟩

/-- The hypotheses of the clauses of DrainStepsEndInOrder are met. -/
theorem witness_DrainStepsEndInOrder_7 :
    (sUp.stw.up = true ∧ sUp.stw.rewrite = false) ∧
    (st650.stw.up = true ∧ st650.stw.rewrite = true) :=
  ⟨by decide +kernel,
   by decide +kernel⟩

/-- The hypotheses of the clauses of DrainSubstepsApplyTheConfiguration are met. -/
theorem witness_DrainSubstepsApplyTheConfiguration :
    (st651.stw.up = true ∧ st651.stw.step = 7 ∧ (st651.stw.sub = 1 ∧ (∀ (m : ℕ), st651.stw.by_ ≠ DrainBy.stop m) ∧
      st651.stw.opts.testBit 2 = false) ∧ (List.filter (fun r => r.rtype.cacheable) (st651.stw.before.changed
      st651.stw.staged) = []) ∧ (st651.stw.staged.coberGib = st651.stw.before.coberGib ∧ st651.stw.staged.coberWays =
      st651.stw.before.coberWays) ∧ st651.stw.opts.testBit 1 = false ∧ (¬∃ i < 8, st651.stw.before.cacheEn i = true ∧
      st651.stw.staged.cacheEn i = false) ∧ (st651.fab.mirrors = false ∨ st651.stw.stopping = true)) ∧
    (st653.stw.up = true ∧ st653.stw.step = 7 ∧ (st653.stw.sub = 1 ∧ (∀ (m : ℕ), st653.stw.by_ ≠ DrainBy.stop m) ∧
      st653.stw.opts.testBit 2 = false) ∧ (List.filter (fun r => r.rtype.cacheable) (st653.stw.before.changed
      st653.stw.staged) = []) ∧ (st653.stw.staged.coberGib = st653.stw.before.coberGib ∧ st653.stw.staged.coberWays =
      st653.stw.before.coberWays) ∧ st653.stw.opts.testBit 1 = false ∧ (¬∃ i < 8, st653.stw.before.cacheEn i = true ∧
      st653.stw.staged.cacheEn i = false) ∧ st653.fab.mirrors = true ∧ st653.stw.stopping = false ∧
      st653.stw.stepGate = none ∧ st653.fab.logFull = true) ∧
    (st654.stw.up = true ∧ st654.stw.step = 7 ∧ (st654.stw.sub = 1 ∧ (∀ (m : ℕ), st654.stw.by_ ≠ DrainBy.stop m) ∧
      st654.stw.opts.testBit 2 = false) ∧ (List.filter (fun r => r.rtype.cacheable) (st654.stw.before.changed
      st654.stw.staged) = []) ∧ (st654.stw.staged.coberGib = st654.stw.before.coberGib ∧ st654.stw.staged.coberWays =
      st654.stw.before.coberWays) ∧ st654.stw.opts.testBit 1 = false ∧ (¬∃ i < 8, st654.stw.before.cacheEn i = true ∧
      st654.stw.staged.cacheEn i = false) ∧ st654.fab.mirrors = true ∧ st654.stw.stopping = false ∧
      st654.stw.stepGate = none ∧ st654.fab.logFull = false) ∧
    (st655.stw.up = true ∧ st655.stw.step = 7 ∧ (st655.stw.sub = 1 ∧ (∀ (m : ℕ), st655.stw.by_ ≠ DrainBy.stop m) ∧
      st655.stw.opts.testBit 2 = false) ∧ (List.filter (fun r => r.rtype.cacheable) (st655.stw.before.changed
      st655.stw.staged) = []) ∧ (st655.stw.staged.coberGib = st655.stw.before.coberGib ∧ st655.stw.staged.coberWays =
      st655.stw.before.coberWays) ∧ st655.stw.opts.testBit 1 = false ∧ (¬∃ i < 8, st655.stw.before.cacheEn i = true ∧
      st655.stw.staged.cacheEn i = false) ∧ st655.fab.mirrors = true ∧ st655.stw.stopping = false ∧
      st655.stw.stepGate = some op608 ∧ st655.fab.unacked op608 = true) ∧
    (st656.stw.up = true ∧ st656.stw.step = 7 ∧ (st656.stw.sub = 1 ∧ (∀ (m : ℕ), st656.stw.by_ ≠ DrainBy.stop m) ∧
      st656.stw.opts.testBit 2 = false) ∧ (List.filter (fun r => r.rtype.cacheable) (st656.stw.before.changed
      st656.stw.staged) = []) ∧ (st656.stw.staged.coberGib = st656.stw.before.coberGib ∧ st656.stw.staged.coberWays =
      st656.stw.before.coberWays) ∧ st656.stw.opts.testBit 1 = false ∧ (¬∃ i < 8, st656.stw.before.cacheEn i = true ∧
      st656.stw.staged.cacheEn i = false) ∧ st656.fab.mirrors = true ∧ st656.stw.stopping = false ∧
      st656.stw.stepGate = some op610 ∧ st656.fab.unacked op610 = false) ∧
    (st657.stw.up = true ∧ st657.stw.step = 7 ∧ (st657.stw.sub = 1 ∧ (∀ (m : ℕ), st657.stw.by_ ≠ DrainBy.stop m) ∧
      st657.stw.opts.testBit 2 = false) ∧ (List.filter (fun r => r.rtype.cacheable) (st657.stw.before.changed
      st657.stw.staged) = []) ∧ (st657.stw.staged.coberGib = st657.stw.before.coberGib ∧ st657.stw.staged.coberWays =
      st657.stw.before.coberWays) ∧ (st657.stw.opts.testBit 1 = true ∨ ∃ i < 8, st657.stw.before.cacheEn i = true ∧
      st657.stw.staged.cacheEn i = false) ∧ (st657.fab.mirrors = false ∨ st657.stw.stopping = true)) ∧
    (st658.stw.up = true ∧ st658.stw.step = 7 ∧ (st658.stw.sub = 1 ∧ (∀ (m : ℕ), st658.stw.by_ ≠ DrainBy.stop m) ∧
      st658.stw.opts.testBit 2 = false) ∧ (List.filter (fun r => r.rtype.cacheable) (st658.stw.before.changed
      st658.stw.staged) = []) ∧ (st658.stw.staged.coberGib = st658.stw.before.coberGib ∧ st658.stw.staged.coberWays =
      st658.stw.before.coberWays) ∧ (st658.stw.opts.testBit 1 = true ∨ ∃ i < 8, st658.stw.before.cacheEn i = true ∧
      st658.stw.staged.cacheEn i = false) ∧ st658.fab.mirrors = true ∧ st658.stw.stopping = false ∧
      st658.stw.stepGate = none ∧ st658.fab.logFull = true) ∧
    (st659.stw.up = true ∧ st659.stw.step = 7 ∧ (st659.stw.sub = 1 ∧ (∀ (m : ℕ), st659.stw.by_ ≠ DrainBy.stop m) ∧
      st659.stw.opts.testBit 2 = false) ∧ (List.filter (fun r => r.rtype.cacheable) (st659.stw.before.changed
      st659.stw.staged) = []) ∧ (st659.stw.staged.coberGib = st659.stw.before.coberGib ∧ st659.stw.staged.coberWays =
      st659.stw.before.coberWays) ∧ (st659.stw.opts.testBit 1 = true ∨ ∃ i < 8, st659.stw.before.cacheEn i = true ∧
      st659.stw.staged.cacheEn i = false) ∧ st659.fab.mirrors = true ∧ st659.stw.stopping = false ∧
      st659.stw.stepGate = none ∧ st659.fab.logFull = false) :=
  ⟨by refine ⟨?_, ?_, ⟨by decide +kernel, (fun _ h => nomatch h), by decide +kernel⟩, ?_, ?_, ?_, ?_, ?_⟩ <;> decide +kernel,
   by refine ⟨?_, ?_, ⟨by decide +kernel, (fun _ h => nomatch h), by decide +kernel⟩, ?_, ?_, ?_, ?_, ?_, ?_, ?_, ?_⟩ <;> decide +kernel,
   by refine ⟨?_, ?_, ⟨by decide +kernel, (fun _ h => nomatch h), by decide +kernel⟩, ?_, ?_, ?_, ?_, ?_, ?_, ?_, ?_⟩ <;> decide +kernel,
   by refine ⟨?_, ?_, ⟨by decide +kernel, (fun _ h => nomatch h), by decide +kernel⟩, ?_, ?_, ?_, ?_, ?_, ?_, ?_, ?_⟩ <;> decide +kernel,
   by refine ⟨?_, ?_, ⟨by decide +kernel, (fun _ h => nomatch h), by decide +kernel⟩, ?_, ?_, ?_, ?_, ?_, ?_, ?_, ?_⟩ <;> decide +kernel,
   by refine ⟨?_, ?_, ⟨by decide +kernel, (fun _ h => nomatch h), by decide +kernel⟩, ?_, ?_, ?_, ?_⟩ <;> decide +kernel,
   by refine ⟨?_, ?_, ⟨by decide +kernel, (fun _ h => nomatch h), by decide +kernel⟩, ?_, ?_, ?_, ?_, ?_, ?_, ?_⟩ <;> decide +kernel,
   by refine ⟨?_, ?_, ⟨by decide +kernel, (fun _ h => nomatch h), by decide +kernel⟩, ?_, ?_, ?_, ?_, ?_, ?_, ?_⟩ <;> decide +kernel⟩

/-- The hypotheses of the clauses of DrainSubstepsApplyTheConfiguration are met. -/
theorem witness_DrainSubstepsApplyTheConfiguration_2 :
    (st660.stw.up = true ∧ st660.stw.step = 7 ∧ (st660.stw.sub = 1 ∧ (∀ (m : ℕ), st660.stw.by_ ≠ DrainBy.stop m) ∧
      st660.stw.opts.testBit 2 = false) ∧ (List.filter (fun r => r.rtype.cacheable) (st660.stw.before.changed
      st660.stw.staged) = []) ∧ (st660.stw.staged.coberGib = st660.stw.before.coberGib ∧ st660.stw.staged.coberWays =
      st660.stw.before.coberWays) ∧ (st660.stw.opts.testBit 1 = true ∨ ∃ i < 8, st660.stw.before.cacheEn i = true ∧
      st660.stw.staged.cacheEn i = false) ∧ st660.fab.mirrors = true ∧ st660.stw.stopping = false ∧
      st660.stw.stepGate = some op608 ∧ st660.fab.unacked op608 = true) ∧
    (st661.stw.up = true ∧ st661.stw.step = 7 ∧ (st661.stw.sub = 1 ∧ (∀ (m : ℕ), st661.stw.by_ ≠ DrainBy.stop m) ∧
      st661.stw.opts.testBit 2 = false) ∧ (List.filter (fun r => r.rtype.cacheable) (st661.stw.before.changed
      st661.stw.staged) = []) ∧ (st661.stw.staged.coberGib = st661.stw.before.coberGib ∧ st661.stw.staged.coberWays =
      st661.stw.before.coberWays) ∧ (st661.stw.opts.testBit 1 = true ∨ ∃ i < 8, st661.stw.before.cacheEn i = true ∧
      st661.stw.staged.cacheEn i = false) ∧ st661.fab.mirrors = true ∧ st661.stw.stopping = false ∧
      st661.stw.stepGate = some op610 ∧ st661.fab.unacked op610 = false) ∧
    (st662.stw.up = true ∧ st662.stw.step = 7 ∧ (st662.stw.sub = 1 ∧ (∀ (m : ℕ), st662.stw.by_ ≠ DrainBy.stop m) ∧
      st662.stw.opts.testBit 2 = false) ∧ (List.filter (fun r => r.rtype.cacheable) (st662.stw.before.changed
      st662.stw.staged) = []) ∧ (st662.stw.staged.coberGib = st662.stw.before.coberGib ∧ st662.stw.staged.coberWays =
      st662.stw.before.coberWays) ∧ (st662.stw.opts.testBit 1 = true ∨ ∃ i < 8, st662.stw.before.cacheEn i = true ∧
      st662.stw.staged.cacheEn i = false) ∧ (st662.fab.mirrors = false ∨ st662.stw.stopping = true)) ∧
    (st663.stw.up = true ∧ st663.stw.step = 7 ∧ (st663.stw.sub = 1 ∧ (∀ (m : ℕ), st663.stw.by_ ≠ DrainBy.stop m) ∧
      st663.stw.opts.testBit 2 = false) ∧ (List.filter (fun r => r.rtype.cacheable) (st663.stw.before.changed
      st663.stw.staged) = [rg1]) ∧ rg1.base ≤ rg1.limit ∧ rg1.limit < rg1.base + 2 ^ 27 ∧ (st663.stw.staged.coberGib
      = st663.stw.before.coberGib ∧ st663.stw.staged.coberWays = st663.stw.before.coberWays) ∧ st663.stw.opts.testBit
      1 = false ∧ (¬∃ i < 8, st663.stw.before.cacheEn i = true ∧ st663.stw.staged.cacheEn i = false) ∧
      (st663.fab.mirrors = false ∨ st663.stw.stopping = true)) ∧
    (st664.stw.up = true ∧ st664.stw.step = 7 ∧ (st664.stw.sub = 1 ∧ (∀ (m : ℕ), st664.stw.by_ ≠ DrainBy.stop m) ∧
      st664.stw.opts.testBit 2 = false) ∧ (List.filter (fun r => r.rtype.cacheable) (st664.stw.before.changed
      st664.stw.staged) = [rg1]) ∧ rg1.base ≤ rg1.limit ∧ rg1.limit < rg1.base + 2 ^ 27 ∧ (st664.stw.staged.coberGib
      = st664.stw.before.coberGib ∧ st664.stw.staged.coberWays = st664.stw.before.coberWays) ∧ st664.stw.opts.testBit
      1 = false ∧ (¬∃ i < 8, st664.stw.before.cacheEn i = true ∧ st664.stw.staged.cacheEn i = false) ∧
      st664.fab.mirrors = true ∧ st664.stw.stopping = false ∧ st664.stw.stepGate = none ∧ st664.fab.logFull = true) ∧
    (st665.stw.up = true ∧ st665.stw.step = 7 ∧ (st665.stw.sub = 1 ∧ (∀ (m : ℕ), st665.stw.by_ ≠ DrainBy.stop m) ∧
      st665.stw.opts.testBit 2 = false) ∧ (List.filter (fun r => r.rtype.cacheable) (st665.stw.before.changed
      st665.stw.staged) = [rg1]) ∧ rg1.base ≤ rg1.limit ∧ rg1.limit < rg1.base + 2 ^ 27 ∧ (st665.stw.staged.coberGib
      = st665.stw.before.coberGib ∧ st665.stw.staged.coberWays = st665.stw.before.coberWays) ∧ st665.stw.opts.testBit
      1 = false ∧ (¬∃ i < 8, st665.stw.before.cacheEn i = true ∧ st665.stw.staged.cacheEn i = false) ∧
      st665.fab.mirrors = true ∧ st665.stw.stopping = false ∧ st665.stw.stepGate = none ∧ st665.fab.logFull = false) ∧
    (st666.stw.up = true ∧ st666.stw.step = 7 ∧ (st666.stw.sub = 1 ∧ (∀ (m : ℕ), st666.stw.by_ ≠ DrainBy.stop m) ∧
      st666.stw.opts.testBit 2 = false) ∧ (List.filter (fun r => r.rtype.cacheable) (st666.stw.before.changed
      st666.stw.staged) = [rg1]) ∧ rg1.base ≤ rg1.limit ∧ rg1.limit < rg1.base + 2 ^ 27 ∧ (st666.stw.staged.coberGib
      = st666.stw.before.coberGib ∧ st666.stw.staged.coberWays = st666.stw.before.coberWays) ∧ st666.stw.opts.testBit
      1 = false ∧ (¬∃ i < 8, st666.stw.before.cacheEn i = true ∧ st666.stw.staged.cacheEn i = false) ∧
      st666.fab.mirrors = true ∧ st666.stw.stopping = false ∧ st666.stw.stepGate = some op608 ∧ st666.fab.unacked
      op608 = true) ∧
    (st667.stw.up = true ∧ st667.stw.step = 7 ∧ (st667.stw.sub = 1 ∧ (∀ (m : ℕ), st667.stw.by_ ≠ DrainBy.stop m) ∧
      st667.stw.opts.testBit 2 = false) ∧ (List.filter (fun r => r.rtype.cacheable) (st667.stw.before.changed
      st667.stw.staged) = [rg1]) ∧ rg1.base ≤ rg1.limit ∧ rg1.limit < rg1.base + 2 ^ 27 ∧ (st667.stw.staged.coberGib
      = st667.stw.before.coberGib ∧ st667.stw.staged.coberWays = st667.stw.before.coberWays) ∧ st667.stw.opts.testBit
      1 = false ∧ (¬∃ i < 8, st667.stw.before.cacheEn i = true ∧ st667.stw.staged.cacheEn i = false) ∧
      st667.fab.mirrors = true ∧ st667.stw.stopping = false ∧ st667.stw.stepGate = some op610 ∧ st667.fab.unacked
      op610 = false) :=
  ⟨by refine ⟨?_, ?_, ⟨by decide +kernel, (fun _ h => nomatch h), by decide +kernel⟩, ?_, ?_, ?_, ?_, ?_, ?_, ?_⟩ <;> decide +kernel,
   by refine ⟨?_, ?_, ⟨by decide +kernel, (fun _ h => nomatch h), by decide +kernel⟩, ?_, ?_, ?_, ?_, ?_, ?_, ?_⟩ <;> decide +kernel,
   by refine ⟨?_, ?_, ⟨by decide +kernel, (fun _ h => nomatch h), by decide +kernel⟩, ?_, ?_, ?_, ?_⟩ <;> decide +kernel,
   by refine ⟨?_, ?_, ⟨by decide +kernel, (fun _ h => nomatch h), by decide +kernel⟩, ?_, ?_, ?_, ?_, ?_, ?_, ?_⟩ <;> decide +kernel,
   by refine ⟨?_, ?_, ⟨by decide +kernel, (fun _ h => nomatch h), by decide +kernel⟩, ?_, ?_, ?_, ?_, ?_, ?_, ?_, ?_, ?_, ?_⟩ <;> decide +kernel,
   by refine ⟨?_, ?_, ⟨by decide +kernel, (fun _ h => nomatch h), by decide +kernel⟩, ?_, ?_, ?_, ?_, ?_, ?_, ?_, ?_, ?_, ?_⟩ <;> decide +kernel,
   by refine ⟨?_, ?_, ⟨by decide +kernel, (fun _ h => nomatch h), by decide +kernel⟩, ?_, ?_, ?_, ?_, ?_, ?_, ?_, ?_, ?_, ?_⟩ <;> decide +kernel,
   by refine ⟨?_, ?_, ⟨by decide +kernel, (fun _ h => nomatch h), by decide +kernel⟩, ?_, ?_, ?_, ?_, ?_, ?_, ?_, ?_, ?_, ?_⟩ <;> decide +kernel⟩

/-- The hypotheses of the clauses of DrainSubstepsApplyTheConfiguration are met. -/
theorem witness_DrainSubstepsApplyTheConfiguration_3 :
    (st668.stw.up = true ∧ st668.stw.step = 7 ∧ (st668.stw.sub = 1 ∧ (∀ (m : ℕ), st668.stw.by_ ≠ DrainBy.stop m) ∧
      st668.stw.opts.testBit 2 = false) ∧ (List.filter (fun r => r.rtype.cacheable) (st668.stw.before.changed
      st668.stw.staged) = [op669]) ∧ op669.base ≤ op669.limit ∧ op669.limit < op669.base + 2 ^ 27 ∧
      (st668.stw.staged.coberGib = st668.stw.before.coberGib ∧ st668.stw.staged.coberWays =
      st668.stw.before.coberWays) ∧ st668.stw.opts.testBit 1 = false ∧ (¬∃ i < 8, st668.stw.before.cacheEn i = true ∧
      st668.stw.staged.cacheEn i = false) ∧ (st668.fab.mirrors = false ∨ st668.stw.stopping = true)) ∧
    (st670.stw.up = true ∧ st670.stw.step = 7 ∧ (st670.stw.sub = 1 ∧ (∀ (m : ℕ), st670.stw.by_ ≠ DrainBy.stop m) ∧
      st670.stw.opts.testBit 2 = false) ∧ (List.filter (fun r => r.rtype.cacheable) (st670.stw.before.changed
      st670.stw.staged) = []) ∧ (¬(st670.stw.staged.coberGib = st670.stw.before.coberGib ∧ st670.stw.staged.coberWays
      = st670.stw.before.coberWays)) ∧ st670.stw.opts.testBit 1 = false ∧ (¬∃ i < 8, st670.stw.before.cacheEn i =
      true ∧ st670.stw.staged.cacheEn i = false)) ∧
    (st671.stw.up = true ∧ st671.stw.step = 7 ∧ (st671.stw.sub = 1 ∧ (∀ (m : ℕ), st671.stw.by_ ≠ DrainBy.stop m) ∧
      st671.stw.opts.testBit 2 = false) ∧ (List.filter (fun r => r.rtype.cacheable) (st671.stw.before.changed
      st671.stw.staged) = []) ∧ (¬(st671.stw.staged.coberGib = st671.stw.before.coberGib ∧ st671.stw.staged.coberWays
      = st671.stw.before.coberWays)) ∧ st671.stw.opts.testBit 1 = false ∧ (¬∃ i < 8, st671.stw.before.cacheEn i =
      true ∧ st671.stw.staged.cacheEn i = false)) ∧
    (st672.stw.up = true ∧ st672.stw.step = 7 ∧ (st672.stw.sub = 1 ∧ (∀ (m : ℕ), st672.stw.by_ ≠ DrainBy.stop m) ∧
      st672.stw.opts.testBit 2 = false) ∧ (List.filter (fun r => r.rtype.cacheable) (st672.stw.before.changed
      st672.stw.staged) = []) ∧ (¬(st672.stw.staged.coberGib = st672.stw.before.coberGib ∧ st672.stw.staged.coberWays
      = st672.stw.before.coberWays)) ∧ st672.stw.opts.testBit 1 = false ∧ (¬∃ i < 8, st672.stw.before.cacheEn i =
      true ∧ st672.stw.staged.cacheEn i = false)) ∧
    (st673.stw.up = true ∧ st673.stw.step = 7 ∧ (st673.stw.sub = 1 ∧ (∀ (m : ℕ), st673.stw.by_ ≠ DrainBy.stop m) ∧
      st673.stw.opts.testBit 2 = false) ∧ (List.filter (fun r => r.rtype.cacheable) (st673.stw.before.changed
      st673.stw.staged) = []) ∧ (¬(st673.stw.staged.coberGib = st673.stw.before.coberGib ∧ st673.stw.staged.coberWays
      = st673.stw.before.coberWays)) ∧ st673.stw.opts.testBit 1 = false ∧ (¬∃ i < 8, st673.stw.before.cacheEn i =
      true ∧ st673.stw.staged.cacheEn i = false)) ∧
    (st674.stw.up = true ∧ st674.stw.step = 7 ∧ (st674.stw.sub = 1 ∧ (∀ (m : ℕ), st674.stw.by_ ≠ DrainBy.stop m) ∧
      st674.stw.opts.testBit 2 = false) ∧ (List.filter (fun r => r.rtype.cacheable) (st674.stw.before.changed
      st674.stw.staged) = []) ∧ (¬(st674.stw.staged.coberGib = st674.stw.before.coberGib ∧ st674.stw.staged.coberWays
      = st674.stw.before.coberWays)) ∧ st674.stw.opts.testBit 1 = false ∧ (¬∃ i < 8, st674.stw.before.cacheEn i =
      true ∧ st674.stw.staged.cacheEn i = false)) ∧
    (st675.stw.up = true ∧ st675.stw.step = 7 ∧ st675.stw.sub = 2 ∧ st675.fab.queue1Empty = false) ∧
    (st676.stw.up = true ∧ st676.stw.step = 7 ∧ st676.stw.sub = 2 ∧ (∀ (m : ℕ), st676.stw.by_ ≠ DrainBy.stop m) ∧
      st676.fab.queue1Empty = true ∧ ((¬∃ i < 8, st676.stw.before.cacheEn i = true ∧ st676.stw.staged.cacheEn i =
      false) ∨ st676.dirtySum = 0) ∧ (st676.fab.mirrors = false ∨ st676.stw.stopping = true)) :=
  ⟨by refine ⟨?_, ?_, ⟨by decide +kernel, (fun _ h => nomatch h), by decide +kernel⟩, ?_, ?_, ?_, ?_, ?_, ?_, ?_⟩ <;> decide +kernel,
   by refine ⟨?_, ?_, ⟨by decide +kernel, (fun _ h => nomatch h), by decide +kernel⟩, ?_, ?_, ?_, ?_⟩ <;> decide +kernel,
   by refine ⟨?_, ?_, ⟨by decide +kernel, (fun _ h => nomatch h), by decide +kernel⟩, ?_, ?_, ?_, ?_⟩ <;> decide +kernel,
   by refine ⟨?_, ?_, ⟨by decide +kernel, (fun _ h => nomatch h), by decide +kernel⟩, ?_, ?_, ?_, ?_⟩ <;> decide +kernel,
   by refine ⟨?_, ?_, ⟨by decide +kernel, (fun _ h => nomatch h), by decide +kernel⟩, ?_, ?_, ?_, ?_⟩ <;> decide +kernel,
   by refine ⟨?_, ?_, ⟨by decide +kernel, (fun _ h => nomatch h), by decide +kernel⟩, ?_, ?_, ?_, ?_⟩ <;> decide +kernel,
   by decide +kernel,
   by refine ⟨?_, ?_, ?_, (fun _ h => nomatch h), ?_, ?_, ?_⟩ <;> decide +kernel⟩

/-- The hypotheses of the clauses of DrainSubstepsApplyTheConfiguration are met. -/
theorem witness_DrainSubstepsApplyTheConfiguration_4 :
    (st677.stw.up = true ∧ st677.stw.step = 7 ∧ st677.stw.sub = 2 ∧ (∀ (m : ℕ), st677.stw.by_ ≠ DrainBy.stop m) ∧
      st677.fab.queue1Empty = true ∧ ((¬∃ i < 8, st677.stw.before.cacheEn i = true ∧ st677.stw.staged.cacheEn i =
      false) ∨ st677.dirtySum = 0) ∧ st677.fab.mirrors = true ∧ st677.stw.stopping = false ∧ st677.stw.stepGate =
      none ∧ st677.fab.logFull = true) ∧
    (st678.stw.up = true ∧ st678.stw.step = 7 ∧ st678.stw.sub = 2 ∧ (∀ (m : ℕ), st678.stw.by_ ≠ DrainBy.stop m) ∧
      st678.fab.queue1Empty = true ∧ ((¬∃ i < 8, st678.stw.before.cacheEn i = true ∧ st678.stw.staged.cacheEn i =
      false) ∨ st678.dirtySum = 0) ∧ st678.fab.mirrors = true ∧ st678.stw.stopping = false ∧ st678.stw.stepGate =
      none ∧ st678.fab.logFull = false) ∧
    (st679.stw.up = true ∧ st679.stw.step = 7 ∧ st679.stw.sub = 2 ∧ (∀ (m : ℕ), st679.stw.by_ ≠ DrainBy.stop m) ∧
      st679.fab.queue1Empty = true ∧ ((¬∃ i < 8, st679.stw.before.cacheEn i = true ∧ st679.stw.staged.cacheEn i =
      false) ∨ st679.dirtySum = 0) ∧ st679.fab.mirrors = true ∧ st679.stw.stopping = false ∧ st679.stw.stepGate =
      some op608 ∧ st679.fab.unacked op608 = true) ∧
    (st680.stw.up = true ∧ st680.stw.step = 7 ∧ st680.stw.sub = 2 ∧ (∀ (m : ℕ), st680.stw.by_ ≠ DrainBy.stop m) ∧
      st680.fab.queue1Empty = true ∧ ((¬∃ i < 8, st680.stw.before.cacheEn i = true ∧ st680.stw.staged.cacheEn i =
      false) ∨ st680.dirtySum = 0) ∧ st680.fab.mirrors = true ∧ st680.stw.stopping = false ∧ st680.stw.stepGate =
      some op610 ∧ st680.fab.unacked op610 = false) ∧
    (st681.stw.up = true ∧ st681.stw.step = 7 ∧ st681.stw.sub = 2 ∧ (∀ (m : ℕ), st681.stw.by_ ≠ DrainBy.stop m) ∧
      st681.fab.queue1Empty = true ∧ ((¬∃ i < 8, st681.stw.before.cacheEn i = true ∧ st681.stw.staged.cacheEn i =
      false) ∨ st681.dirtySum = 0) ∧ (st681.fab.mirrors = false ∨ st681.stw.stopping = true)) ∧
    (st682.stw.up = true ∧ st682.stw.step = 7 ∧ st682.stw.sub = 2 ∧ (∀ (m : ℕ), st682.stw.by_ ≠ DrainBy.stop m) ∧ (∃
      i < 8, st682.stw.before.cacheEn i = true ∧ st682.stw.staged.cacheEn i = false) ∧ st682.dirtySum ≠ 0) ∧
    (st683.stw.up = true ∧ st683.stw.step = 7 ∧ st683.stw.sub = 2 ∧ st683.stw.by_ = DrainBy.stop 16 ∧
      st683.fab.queue1Empty = true ∧ st683.fab.mem.dq = [] ∧ 16 < 17 ∧ (st683.stw.mb 16).discard = false ∧
      (st683.stw.mb 16).rerun = false ∧ (st683.stw.mb 16).faults = 0 ∧ st683.stw.waiting = []) ∧
    (st684.stw.up = true ∧ st684.stw.step = 7 ∧ st684.stw.sub = 3 ∧ (∀ r ∈ st684.fab.gln.repairs, r.state ≠ 1) ∧
      (st684.fab.mirrors = false ∨ st684.stw.stopping = true)) :=
  ⟨by refine ⟨?_, ?_, ?_, (fun _ h => nomatch h), ?_, ?_, ?_, ?_, ?_, ?_⟩ <;> decide +kernel,
   by refine ⟨?_, ?_, ?_, (fun _ h => nomatch h), ?_, ?_, ?_, ?_, ?_, ?_⟩ <;> decide +kernel,
   by refine ⟨?_, ?_, ?_, (fun _ h => nomatch h), ?_, ?_, ?_, ?_, ?_, ?_⟩ <;> decide +kernel,
   by refine ⟨?_, ?_, ?_, (fun _ h => nomatch h), ?_, ?_, ?_, ?_, ?_, ?_⟩ <;> decide +kernel,
   by refine ⟨?_, ?_, ?_, (fun _ h => nomatch h), ?_, ?_, ?_⟩ <;> decide +kernel,
   by refine ⟨?_, ?_, ?_, (fun _ h => nomatch h), ?_, ?_⟩ <;> decide +kernel,
   by decide +kernel,
   by decide +kernel⟩

/-- The hypotheses of the clauses of DrainSubstepsApplyTheConfiguration are met. -/
theorem witness_DrainSubstepsApplyTheConfiguration_5 :
    (st685.stw.up = true ∧ st685.stw.step = 7 ∧ st685.stw.sub = 3 ∧ (∀ r ∈ st685.fab.gln.repairs, r.state ≠ 1) ∧
      st685.fab.mirrors = true ∧ st685.stw.stopping = false ∧ st685.stw.stepGate = none ∧ st685.fab.logFull = true) ∧
    (st686.stw.up = true ∧ st686.stw.step = 7 ∧ st686.stw.sub = 3 ∧ (∀ r ∈ st686.fab.gln.repairs, r.state ≠ 1) ∧
      st686.fab.mirrors = true ∧ st686.stw.stopping = false ∧ st686.stw.stepGate = none ∧ st686.fab.logFull = false) ∧
    (st687.stw.up = true ∧ st687.stw.step = 7 ∧ st687.stw.sub = 3 ∧ (∀ r ∈ st687.fab.gln.repairs, r.state ≠ 1) ∧
      st687.fab.mirrors = true ∧ st687.stw.stopping = false ∧ st687.stw.stepGate = some op608 ∧ st687.fab.unacked
      op608 = true) ∧
    (st688.stw.up = true ∧ st688.stw.step = 7 ∧ st688.stw.sub = 3 ∧ (∀ r ∈ st688.fab.gln.repairs, r.state ≠ 1) ∧
      st688.fab.mirrors = true ∧ st688.stw.stopping = false ∧ st688.stw.stepGate = some op610 ∧ st688.fab.unacked
      op610 = false) ∧
    (st689.stw.up = true ∧ st689.stw.step = 7 ∧ st689.stw.sub = 3 ∧ st689.fab.gln.repairs = [rp1] ∧ rp1.state = 1) ∧
    (st690.stw.up = true ∧ st690.stw.step = 7 ∧ st690.stw.sub = 3 ∧ st690.fab.gln.repairs = [rp1] ∧ rp1.state = 1) ∧
    (st691.stw.up = true ∧ st691.stw.step = 7 ∧ st691.stw.sub = 3 ∧ st691.fab.gln.repairs = [rp1] ∧ rp1.state = 1) ∧
    (st692.stw.up = true ∧ st692.stw.step = 7 ∧ st692.stw.sub = 3 ∧ st692.fab.gln.repairs = [rp1] ∧ rp1.state = 1) :=
  ⟨by decide +kernel,
   by decide +kernel,
   by decide +kernel,
   by decide +kernel,
   by decide +kernel,
   by decide +kernel,
   by decide +kernel,
   by decide +kernel⟩

/-- The hypotheses of the clauses of DrainSubstepsApplyTheConfiguration are met. -/
theorem witness_DrainSubstepsApplyTheConfiguration_6 :
    (st693.stw.up = true ∧ st693.stw.step = 7 ∧ st693.stw.sub = 3 ∧ st693.fab.gln.repairs = [rp1] ∧ rp1.state = 1) ∧
    (st694.stw.up = true ∧ st694.stw.step = 7 ∧ st694.stw.sub = 3 ∧ st694.fab.gln.repairs = [rp1] ∧ rp1.state = 1) ∧
    (st696.stw.up = true ∧ st696.stw.step = 7 ∧ st696.stw.sub = 3 ∧ st696.fab.gln.repairs = [op698] ∧ op698.state =
      1) ∧
    (st699.stw.up = true ∧ st699.stw.step = 7 ∧ st699.stw.sub = 3 ∧ st699.fab.gln.repairs = [op698] ∧ op698.state =
      1) ∧
    (st700.stw.up = true ∧ st700.stw.step = 7 ∧ st700.stw.sub = 3 ∧ st700.fab.gln.repairs = [op701] ∧ op701.state =
      1) ∧
    (st702.stw.up = true ∧ st702.stw.step = 7 ∧ st702.stw.sub = 4) ∧
    (st703.stw.up = true ∧ st703.stw.step = 7 ∧ st703.stw.sub = 4) ∧
    (st704.stw.up = true ∧ st704.stw.step = 7 ∧ st704.stw.sub = 4) :=
  ⟨by decide +kernel,
   by decide +kernel,
   by decide +kernel,
   by decide +kernel,
   by decide +kernel,
   by decide +kernel,
   by decide +kernel,
   by decide +kernel⟩

/-- The hypotheses of the clauses of DrainSubstepsApplyTheConfiguration are met. -/
theorem witness_DrainSubstepsApplyTheConfiguration_7 :
    (st705.stw.up = true ∧ st705.stw.step = 7 ∧ st705.stw.sub = 4) ∧
    (st706.stw.up = true ∧ st706.stw.step = 7 ∧ st706.stw.sub = 4) ∧
    (st707.stw.up = true ∧ st707.stw.step = 7 ∧ st707.stw.sub = 5 ∧ (st707.stw.rewrite = true ∨
      (st707.fab.gran.slots.toList.any fun c => c.walk.isSome) = true)) ∧
    (st708.stw.up = true ∧ st708.stw.step = 7 ∧ st708.stw.sub = 5 ∧ (st708.stw.rewrite = true ∨
      (st708.fab.gran.slots.toList.any fun c => c.walk.isSome) = true)) ∧
    (st709.stw.up = true ∧ st709.stw.step = 7 ∧ st709.stw.sub = 5 ∧ st709.stw.rewrite = false ∧
      ((st709.fab.gran.slots.toList.any fun c => c.walk.isSome) = false) ∧ (st709.fab.mirrors = false ∨
      st709.stw.stopping = true)) ∧
    (st710.stw.up = true ∧ st710.stw.step = 7 ∧ st710.stw.sub = 5 ∧ st710.stw.rewrite = false ∧
      ((st710.fab.gran.slots.toList.any fun c => c.walk.isSome) = false) ∧ st710.fab.mirrors = true ∧
      st710.stw.stopping = false ∧ st710.stw.stepGate = none ∧ st710.fab.logFull = true) ∧
    (st711.stw.up = true ∧ st711.stw.step = 7 ∧ st711.stw.sub = 5 ∧ st711.stw.rewrite = false ∧
      ((st711.fab.gran.slots.toList.any fun c => c.walk.isSome) = false) ∧ st711.fab.mirrors = true ∧
      st711.stw.stopping = false ∧ st711.stw.stepGate = none ∧ st711.fab.logFull = false) ∧
    (st712.stw.up = true ∧ st712.stw.step = 7 ∧ st712.stw.sub = 5 ∧ st712.stw.rewrite = false ∧
      ((st712.fab.gran.slots.toList.any fun c => c.walk.isSome) = false) ∧ st712.fab.mirrors = true ∧
      st712.stw.stopping = false ∧ st712.stw.stepGate = some op608 ∧ st712.fab.unacked op608 = true) :=
  ⟨by decide +kernel,
   by decide +kernel,
   by decide +kernel,
   by decide +kernel,
   by decide +kernel,
   by decide +kernel,
   by decide +kernel,
   by decide +kernel⟩

/-- The hypotheses of the clauses of DrainSubstepsApplyTheConfiguration are met. -/
theorem witness_DrainSubstepsApplyTheConfiguration_8 :
    (st713.stw.up = true ∧ st713.stw.step = 7 ∧ st713.stw.sub = 5 ∧ st713.stw.rewrite = false ∧
      ((st713.fab.gran.slots.toList.any fun c => c.walk.isSome) = false) ∧ st713.fab.mirrors = true ∧
      st713.stw.stopping = false ∧ st713.stw.stepGate = some op610 ∧ st713.fab.unacked op610 = false) ∧
    (st714.stw.up = true ∧ st714.stw.step = 7 ∧ st714.stw.sub = 6 ∧ (0 = 0 ∨ st714.together = false) ∧
      (st714.fab.mirrors = false ∨ st714.stw.stopping = true)) ∧
    (st715.stw.up = true ∧ st715.stw.step = 7 ∧ st715.stw.sub = 6 ∧ (0 = 0 ∨ st715.together = false) ∧
      st715.fab.mirrors = true ∧ st715.stw.stopping = false ∧ st715.stw.stepGate = none ∧ st715.fab.logFull = true) ∧
    (st716.stw.up = true ∧ st716.stw.step = 7 ∧ st716.stw.sub = 6 ∧ (0 = 0 ∨ st716.together = false) ∧
      st716.fab.mirrors = true ∧ st716.stw.stopping = false ∧ st716.stw.stepGate = none ∧ st716.fab.logFull = false) ∧
    (st717.stw.up = true ∧ st717.stw.step = 7 ∧ st717.stw.sub = 6 ∧ (0 = 0 ∨ st717.together = false) ∧
      st717.fab.mirrors = true ∧ st717.stw.stopping = false ∧ st717.stw.stepGate = some op608 ∧ st717.fab.unacked
      op608 = true) ∧
    (st718.stw.up = true ∧ st718.stw.step = 7 ∧ st718.stw.sub = 6 ∧ (0 = 0 ∨ st718.together = false) ∧
      st718.fab.mirrors = true ∧ st718.stw.stopping = false ∧ st718.stw.stepGate = some op610 ∧ st718.fab.unacked
      op610 = false) ∧
    (st714.stw.up = true ∧ st714.stw.step = 7 ∧ st714.stw.sub = 6 ∧ (1 = 0 ∨ st714.together = false) ∧
      (st714.fab.mirrors = false ∨ st714.stw.stopping = true)) ∧
    (st719.stw.up = true ∧ st719.stw.step = 7 ∧ st719.stw.sub = 6 ∧ (0 = 0 ∨ st719.together = false) ∧
      (st719.fab.mirrors = false ∨ st719.stw.stopping = true)) :=
  ⟨by decide +kernel,
   by decide +kernel,
   by decide +kernel,
   by decide +kernel,
   by decide +kernel,
   by decide +kernel,
   by decide +kernel,
   by decide +kernel⟩

/-- The hypotheses of the clauses of DrainSubstepsApplyTheConfiguration are met. -/
theorem witness_DrainSubstepsApplyTheConfiguration_9 :
    (st720.stw.up = true ∧ st720.stw.step = 7 ∧ st720.stw.sub = 6 ∧ 1 ≠ 0 ∧ st720.together = true) ∧
    (st720.stw.up = true ∧ st720.stw.step = 7 ∧ st720.stw.sub = 6 ∧ 2 ≠ 0 ∧ st720.together = true) ∧
    (st721.stw.up = true ∧ st721.stw.step = 7 ∧ st721.stw.sub = 6 ∧ 2 ≠ 0 ∧ st721.together = true) ∧
    (st722.stw.up = true ∧ st722.stw.step = 7 ∧ st722.stw.sub = 6 ∧ 2 ≠ 0 ∧ st722.together = true) ∧
    (st723.stw.up = true ∧ st723.stw.step = 7 ∧ st723.stw.sub = 6 ∧ 2 ≠ 0 ∧ st723.together = true) ∧
    (st724.stw.up = true ∧ st724.stw.step = 7 ∧ st724.stw.sub = 7 ∧ st724.stw.done7g = false ∧ st724.together = true
      ∧ false = false) ∧
    (st724.stw.up = true ∧ st724.stw.step = 7 ∧ st724.stw.sub = 7 ∧ (st724.together = false ∨ true = true)) ∧
    (st725.stw.up = true ∧ st725.stw.step = 7 ∧ st725.stw.sub = 7 ∧ (st725.together = false ∨ true = true)) :=
  ⟨by decide +kernel,
   by decide +kernel,
   by decide +kernel,
   by decide +kernel,
   by decide +kernel,
   by decide +kernel,
   by decide +kernel,
   by decide +kernel⟩

/-- The hypotheses of the clauses of DrainSubstepsApplyTheConfiguration are met. -/
theorem witness_DrainSubstepsApplyTheConfiguration_10 :
    (st726.stw.up = true ∧ st726.stw.step = 7 ∧ st726.stw.sub = 7 ∧ (st726.together = false ∨ true = true)) ∧
    (st727.stw.up = true ∧ st727.stw.step = 7 ∧ st727.stw.sub = 7 ∧ (st727.together = false ∨ true = true)) ∧
    (st728.stw.up = true ∧ st728.stw.step = 7 ∧ st728.stw.sub = 7 ∧ (st728.together = false ∨ true = true)) ∧
    (st729.stw.up = true ∧ st729.stw.step = 7 ∧ st729.stw.sub = 7 ∧ (st729.together = false ∨ true = true)) ∧
    (st730.stw.up = true ∧ st730.stw.step = 7 ∧ st730.stw.sub = 7 ∧ (st730.together = false ∨ false = true)) ∧
    (st731.stw.up = true ∧ st731.stw.step = 7 ∧ st731.stw.sub = 7 ∧ (st731.together = false ∨ true = true)) ∧
    (st732.stw.up = true ∧ st732.stw.step = 7 ∧ st732.stw.sub = 7 ∧ (st732.together = false ∨ true = true)) ∧
    (st733.stw.up = true ∧ st733.stw.step = 7 ∧ st733.stw.sub = 7 ∧ (st733.together = false ∨ true = true)) :=
  ⟨by decide +kernel,
   by decide +kernel,
   by decide +kernel,
   by decide +kernel,
   by decide +kernel,
   by decide +kernel,
   by decide +kernel,
   by decide +kernel⟩

end W11

namespace W12

def dclC : Line := BitVec.ofNat 512 (leNat ([1, 1, 6, 4, 64, 0, 0, 0] ++ leBytes 9 8 ++ leBytes 64 2 ++ leBytes 64 2 ++ leBytes 320 2 ++ leBytes 4 2))
def dclN : Line := BitVec.ofNat 512 (leNat ([1, 0x10, 0, 0, 64, 0, 0, 0] ++ leBytes 9 8 ++ leBytes 64 2 ++ leBytes 64 2 ++ leBytes 320 2 ++ leBytes 4 2))
def sC : State := onGran (link sRgn 31 (fun l => { active l with decl := some dclC, slot := some 0, live := [3] })) (fun g => { g with slots := vset g.slots 0 ⟨some 31, none⟩ })
def sN : State := link sRgn 31 (fun l => { active l with decl := some dclN, live := [3] })
def lnH (op txid la cset cway : Nat) : Slot := BitVec.ofNat 128 (packNat [(0, 6, op), (6, 12, txid), (18, 46, la), (96, 14, cset), (110, 4, cway), (120, 8, if la < 64 * 4096 then 1 else 0)])
def unH (op txid addr len : Nat) : Slot := BitVec.ofNat 128 (packNat [(0, 6, op), (6, 12, txid), (18, 52, addr), (102, 7, len)])
def op734 : Slot := lnH 1 5 (64 * 0xFFF + 63) 63 3
def op735 : Line := 7
def op736 : BitVec 64 := 0
def op737 : Instr := .rdshared 31 (lnH 1 5 (64 * 0xFFF + 63) 63 3) false
def op738 : Slot := lnH 3 5 (64 * 0x1FFF) 0 0
def op739 : Instr := .rdonce 31 (lnH 3 5 (64 * 0x1FFF) 0 0) true
def op740 : Slot := lnH 3 5 (64 * 0x1FFF + 63) 0 0
def op741 : Slot := 0
def op742 : Instr := .rdonce 31 (lnH 3 5 (64 * 0x1FFF + 63) 0 0) false
def op743 : Slot := unH Op.rdUncached.code 5 (4096 * 0x2FFF + 4032) 64
def op744 : Instr := .rduncached 31 (unH Op.rdUncached.code 5 (4096 * 0x2FFF + 4032) 64) false
def op745 : Slot := lnH 3 3 0 0 0
def op746 : Instr := .rdonce 31 (lnH 3 3 0 0 0) false
def st747 : State := link sN 31 (fun l => { l with trk := List.range 4096 })
def op748 : Slot := lnH 3 5 0 0 0
def op749 : Instr := .rdonce 31 (lnH 3 5 0 0 0) false
def st750 : State := onFab sN (fun f => { f with draining := true })
def op751 : Slot := lnH 1 5 0 0 0
def op752 : Instr := .rdshared 31 (lnH 1 5 0 0 0) false
def op753 : Slot := unH Op.ldResv.code 5 64 8
def op754 : Instr := .ldresv 31 (unH Op.ldResv.code 5 64 8) false
def op755 : Slot := unH Op.rdUncached.code 5 63 2
def op756 : Instr := .rduncached 31 (unH Op.rdUncached.code 5 63 2) false
def op757 : Slot := unH Op.rdUncached.code 5 (4096 * 0x3000) 8
def op758 : Instr := .rduncached 31 (unH Op.rdUncached.code 5 (4096 * 0x3000) 8) false
def st759 : State := onTwin sN (fun t => { t with pair := .paired, role := 2 })
def op760 : Slot := lnH 3 5 1 0 0
def op761 : Instr := .rdonce 31 (lnH 3 5 1 0 0) false
def st762 : State := onTwin sN (fun t => { t with pair := .waiting, role := 2 })

/-- The hypotheses of the clauses of ResetLeavesTheResetValues are met. -/
theorem witness_ResetLeavesTheResetValues :
    (15 < 16) ∧
    (7 < 8) ∧
    (63 < 64 ∧ 5 < 6) ∧
    (31 < 32) ∧
    (255 < 256) :=
  ⟨by decide +kernel,
   by decide +kernel,
   by decide +kernel,
   by decide +kernel,
   by decide +kernel⟩

/-- The hypotheses of the clauses of SmbusMailboxTransactions are met. -/
theorem witness_SmbusMailboxTransactions_2 :
    (sUp.on 28 = true) :=
  by decide +kernel

/-- The hypotheses of the clauses of StagedEntriesFollowTheirRule are met. -/
theorem witness_StagedEntriesFollowTheirRule_3 :
    (7 < 8) :=
  by decide +kernel

/-- The hypotheses of the clauses of CachingRequestsReachTheirSlice are met. -/
theorem witness_CachingRequestsReachTheirSlice :
    (requestOf Op.rdShared 31 op734 op735 op736 0 false = some op737 ∧ Op.rdShared.isLine = true ∧ hOp op734 =
      Op.rdShared.code ∧ sC.linkUp 31 = true ∧ sC.newTxid 31 op734 = true ∧ sC.first 31 Op.rdShared
      { hdr := op734, pay := reqPay Op.rdShared op735 op736 0 } = true ∧ sC.portClear = true ∧ sC.fab.alone = true ∧
      (sC.fab.draining = false ∨ Op.rdShared.cls = clsEVC) ∧ (sC.fab.link 31).decl = some dclC ∧ dclCaching dclC =
      true ∧ (if Op.rdShared.cachingOnly = true then lnCset op734 < 2 ^ dclSets dclC ∧ lnCway op734 < dclWays dclC
      else lnCset op734 = 0 ∧ lnCway op734 = 0) ∧ (Op.rdShared.cls = clsREQ → ∃ r, sC.cfg.regionOf (lnLaddr op734) =
      some r ∧ if Op.rdShared.cachingOnly = true then r.typ.cacheable = true else r.typ ≠ RType.dev) ∧ (∀ (r :
      Region), sC.cfg.regionOf (lnLaddr op734) = some r → lnTenant op734 = r.tenant)) ∧
    (requestOf Op.rdOnce 31 op738 op735 op736 0 true = some op739 ∧ Op.rdOnce.isLine = true ∧ hOp op738 =
      Op.rdOnce.code ∧ sC.linkUp 31 = true ∧ sC.newTxid 31 op738 = true ∧ sC.first 31 Op.rdOnce
      { hdr := op738, pay := reqPay Op.rdOnce op735 op736 0 } = true ∧ sC.portClear = true ∧ sC.fab.alone = true ∧
      (sC.fab.draining = false ∨ Op.rdOnce.cls = clsEVC) ∧ (sC.fab.link 31).decl = some dclC ∧ dclCaching dclC = true
      ∧ (if Op.rdOnce.cachingOnly = true then lnCset op738 < 2 ^ dclSets dclC ∧ lnCway op738 < dclWays dclC else
      lnCset op738 = 0 ∧ lnCway op738 = 0) ∧ (Op.rdOnce.cls = clsREQ → ∃ r, sC.cfg.regionOf (lnLaddr op738) = some r
      ∧ if Op.rdOnce.cachingOnly = true then r.typ.cacheable = true else r.typ ≠ RType.dev) ∧ (∀ (r : Region),
      sC.cfg.regionOf (lnLaddr op738) = some r → lnTenant op738 = r.tenant)) :=
  ⟨by decide +kernel,
   by decide +kernel⟩

/-- The hypotheses of the clauses of OtherRequestsUseTheOrderingUnit are met. -/
theorem witness_OtherRequestsUseTheOrderingUnit_3 :
    (requestOf Op.rdOnce 31 op740 op735 op736 op741 false = some op742 ∧ hOp op740 = Op.rdOnce.code ∧ sN.linkUp 31 =
      true ∧ sN.newTxid 31 op740 = true ∧ sN.first 31 Op.rdOnce
      { hdr := op740, pay := reqPay Op.rdOnce op735 op736 op741 } = true ∧ sN.portClear = true ∧ sN.fab.alone = true
      ∧ sN.fab.draining = false ∧ (sN.fab.link 31).decl = some dclN ∧ (if dclCaching dclN = true then
      Op.rdOnce.isLine = false ∧ Op.rdOnce ≠ Op.ldResv ∧ Op.rdOnce ≠ Op.stCond else Op.rdOnce.cachingOnly = false) ∧
      (if Op.rdOnce.isLine = true then lnCset op740 = 0 ∧ lnCway op740 = 0 else uncachedFieldsOk Op.rdOnce op740 =
      true) ∧ (Op.rdOnce.addressed = true → ∃ r, sN.cfg.regionOf (reqLaddr Op.rdOnce op740) = some r ∧ (Op.rdOnce =
      Op.rdUncached ∨ Op.rdOnce = Op.wrUncached ∨ r.typ ≠ RType.dev) ∧ (Op.rdOnce.carries = true → reqTenant
      Op.rdOnce op740 = r.tenant))) ∧
    (requestOf Op.rdUncached 31 op743 op735 op736 op741 false = some op744 ∧ hOp op743 = Op.rdUncached.code ∧
      sC.linkUp 31 = true ∧ sC.newTxid 31 op743 = true ∧ sC.first 31 Op.rdUncached
      { hdr := op743, pay := reqPay Op.rdUncached op735 op736 op741 } = true ∧ sC.portClear = true ∧ sC.fab.alone =
      true ∧ sC.fab.draining = false ∧ (sC.fab.link 31).decl = some dclC ∧ (if dclCaching dclC = true then
      Op.rdUncached.isLine = false ∧ Op.rdUncached ≠ Op.ldResv ∧ Op.rdUncached ≠ Op.stCond else
      Op.rdUncached.cachingOnly = false) ∧ (if Op.rdUncached.isLine = true then lnCset op743 = 0 ∧ lnCway op743 = 0
      else uncachedFieldsOk Op.rdUncached op743 = true) ∧ (Op.rdUncached.addressed = true → ∃ r, sC.cfg.regionOf
      (reqLaddr Op.rdUncached op743) = some r ∧ (Op.rdUncached = Op.rdUncached ∨ Op.rdUncached = Op.wrUncached ∨
      r.typ ≠ RType.dev) ∧ (Op.rdUncached.carries = true → reqTenant Op.rdUncached op743 = r.tenant))) :=
  ⟨by decide +kernel,
   by decide +kernel⟩

/-- The hypotheses of the clauses of RefusedRequestsAreAnsweredAtThePort are met. -/
theorem witness_RefusedRequestsAreAnsweredAtThePort :
    (requestOf Op.rdOnce 31 op745 op735 op736 op741 false = some op746 ∧ hOp op745 = Op.rdOnce.code ∧ sN.linkUp 31 =
      true ∧ (sN.fab.link 31).decl = some dclN ∧ (((sN.fab.link 31).rxq.any fun x => decide (x.hdr = op745)) = false)
      ∧ (sN.fab.link 31).isLive (hTxid op745) = true) ∧
    (requestOf Op.rdOnce 31 op748 op735 op736 op741 false = some op749 ∧ hOp op748 = Op.rdOnce.code ∧ st747.linkUp 31
      = true ∧ (st747.fab.link 31).decl = some dclN ∧ st747.newTxid 31 op748 = true ∧ st747.portClear = true ∧
      (st747.fab.link 31).ofClass Op.rdOnce.cls = [] ∧ Op.rdOnce.cls = clsREQ ∧ (st747.fab.link 31).full = true) ∧
    (requestOf Op.rdOnce 31 op748 op735 op736 op741 false = some op749 ∧ hOp op748 = Op.rdOnce.code ∧ st750.linkUp 31
      = true ∧ (st750.fab.link 31).decl = some dclN ∧ st750.newTxid 31 op748 = true ∧ st750.first 31 Op.rdOnce
      { hdr := op748, pay := reqPay Op.rdOnce op735 op736 op741 } = true ∧ st750.fab.draining = true ∧ Op.rdOnce.cls
      = clsREQ) ∧
    (requestOf Op.rdShared 31 op751 op735 op736 op741 false = some op752 ∧ hOp op751 = Op.rdShared.code ∧ sN.linkUp
      31 = true ∧ (sN.fab.link 31).decl = some dclN ∧ sN.newTxid 31 op751 = true ∧ sN.first 31 Op.rdShared
      { hdr := op751, pay := reqPay Op.rdShared op735 op736 op741 } = true ∧ sN.portClear = true ∧ (sN.fab.draining =
      false ∨ Op.rdShared.cls = clsEVC) ∧ sN.fab.alone = true ∧ dclCaching dclN = false ∧ Op.rdShared.cachingOnly =
      true) ∧
    (requestOf Op.ldResv 31 op753 op735 op736 op741 false = some op754 ∧ hOp op753 = Op.ldResv.code ∧ sC.linkUp 31 =
      true ∧ (sC.fab.link 31).decl = some dclC ∧ sC.newTxid 31 op753 = true ∧ sC.first 31 Op.ldResv
      { hdr := op753, pay := reqPay Op.ldResv op735 op736 op741 } = true ∧ sC.portClear = true ∧ (sC.fab.draining =
      false ∨ Op.ldResv.cls = clsEVC) ∧ sC.fab.alone = true ∧ dclCaching dclC = true ∧ (Op.ldResv = Op.ldResv ∨
      Op.ldResv = Op.stCond) ∧ uncachedFieldsOk Op.ldResv op753 = true) ∧
    (requestOf Op.rdUncached 31 op755 op735 op736 op741 false = some op756 ∧ hOp op755 = Op.rdUncached.code ∧
      sN.linkUp 31 = true ∧ (sN.fab.link 31).decl = some dclN ∧ sN.newTxid 31 op755 = true ∧ sN.first 31
      Op.rdUncached { hdr := op755, pay := reqPay Op.rdUncached op735 op736 op741 } = true ∧ sN.portClear = true ∧
      (sN.fab.draining = false ∨ Op.rdUncached.cls = clsEVC) ∧ sN.fab.alone = true ∧ Op.rdUncached.isLine = false ∧
      uncachedFieldsOk Op.rdUncached op755 = false) ∧
    (requestOf Op.rdUncached 31 op757 op735 op736 op741 false = some op758 ∧ hOp op757 = Op.rdUncached.code ∧
      sN.linkUp 31 = true ∧ (sN.fab.link 31).decl = some dclN ∧ sN.newTxid 31 op757 = true ∧ sN.first 31
      Op.rdUncached { hdr := op757, pay := reqPay Op.rdUncached op735 op736 op741 } = true ∧ sN.portClear = true ∧
      (sN.fab.draining = false ∨ Op.rdUncached.cls = clsEVC) ∧ sN.fab.alone = true ∧ (Op.rdUncached = Op.rdUncached ∨
      Op.rdUncached = Op.wrUncached) ∧ uncachedFieldsOk Op.rdUncached op757 = true ∧ sN.cfg.regionOf (reqLaddr
      Op.rdUncached op757) = none) ∧
    (requestOf Op.rdOnce 31 op760 op735 op736 op741 false = some op761 ∧ hOp op760 = Op.rdOnce.code ∧ st759.linkUp 31
      = true ∧ (st759.fab.link 31).decl = some dclN ∧ st759.newTxid 31 op760 = true ∧ st759.first 31 Op.rdOnce
      { hdr := op760, pay := reqPay Op.rdOnce op735 op736 op741 } = true ∧ st759.portClear = true ∧
      (st759.fab.draining = false ∨ Op.rdOnce.cls = clsEVC) ∧ (if st759.fab.twin.pair = PairState.paired then 1 = 1
      else (st759.fab.twin.pair = PairState.failover ∨ st759.fab.twin.pair = PairState.waiting) ∧ 1 = 2) ∧
      Op.rdOnce.addressed = true ∧ st759.fab.activeHome (reqLaddr Op.rdOnce op760) = false) :=
  ⟨by decide +kernel,
   by decide +kernel,
   by decide +kernel,
   by decide +kernel,
   by decide +kernel,
   by decide +kernel,
   by decide +kernel,
   by decide +kernel⟩

/-- The hypotheses of the clauses of RefusedRequestsAreAnsweredAtThePort are met. -/
theorem witness_RefusedRequestsAreAnsweredAtThePort_2 :
    (requestOf Op.rdOnce 31 op760 op735 op736 op741 false = some op761 ∧ hOp op760 = Op.rdOnce.code ∧ st762.linkUp 31
      = true ∧ (st762.fab.link 31).decl = some dclN ∧ st762.newTxid 31 op760 = true ∧ st762.first 31 Op.rdOnce
      { hdr := op760, pay := reqPay Op.rdOnce op735 op736 op741 } = true ∧ st762.portClear = true ∧
      (st762.fab.draining = false ∨ Op.rdOnce.cls = clsEVC) ∧ (if st762.fab.twin.pair = PairState.paired then 2 = 1
      else (st762.fab.twin.pair = PairState.failover ∨ st762.fab.twin.pair = PairState.waiting) ∧ 2 = 2) ∧
      Op.rdOnce.addressed = true ∧ st762.fab.activeHome (reqLaddr Op.rdOnce op760) = false) :=
  by decide +kernel

end W12
/-! ## The invariants' hypotheses are met -/

/-- A source whose COUNT is full has one more event under way. -/
def fullCount : State := { raised (src sUp 7 ⟨0x40, false, false, 4095⟩) (7, 0) with pending := [.eventArrival] }

theorem fullCount_source (n : Nat) : (fullCount.irq.source n).count ≤ 4095 := by
  by_cases h : n = 7
  · subst h; decide +kernel
  · have e : fullCount.irq.source n = Irq.init.source n := vget_vset_other _ _ _ _ _ h
    rw [e]
    by_cases b : n < 256 <;> simp [Irq.source, Irq.init, vget, b, Src.zero]

theorem fullCount_claims (v : Nat) : vget fullCount.irq.claims [] v = [] := by
  show vget (Vector.replicate 64 ([] : List ClaimEnt)) [] v = []
  by_cases b : v < 64 <;> simp [vget, b]

/-- The hypotheses of EveryStepKeepsInterruptCountsInTheirFields are met at a full COUNT. -/
theorem witness_EveryStepKeepsInterruptCountsInTheirFields :
    ∃ t, fullCount.irq.Bounded ∧ step fullCount = .next t :=
  ⟨_, ⟨fullCount_source, by decide +kernel, by decide +kernel, fun v => by simp [fullCount_claims v], by decide +kernel⟩, rfl⟩

/-- A sealed Weighbridge at a tick. -/
def sealedTick : State := { onWgb sWgb (fun w => { w with sealed := true }) with pending := [.meteringTick] }

/-- The hypotheses of EveryStepKeepsTheSeal are met. -/
theorem witness_EveryStepKeepsTheSeal : ∃ t, sealedTick.wgb.sealed = true ∧ step sealedTick = .next t := ⟨_, rfl, rfl⟩

/-- The hypothesis of TheConfigurationChangesOnlyInADrainOrAStart is met at a step of start-up that writes the
configuration. -/
theorem witness_TheConfigurationChangesOnlyInADrainOrAStart :
    ∃ t, exec .startupStepEnd (onPcr sUp (fun p => { p with startup := 7 })) = .next t := ⟨_, rfl⟩


end Sys2Proof.Tests
end

section
/-! SUPPORT. A request or eviction at its port: what it leaves unchanged, when it may act, and the checks of its
acceptance (R26, R45, R74, R79, R83, R102, R214, R328). -/
namespace Sys2Proof.Machine

/-! ## One link of the fabric -/

/-- Sending what may be sent keeps the link's state and its agent's declaration. -/
theorem Link.pumpN_keeps (k : LinkKind) :
    ∀ (n : Nat) (l : Link), (Link.pumpN k n l).st = l.st ∧ (Link.pumpN k n l).decl = l.decl
  | 0, _ => ⟨rfl, rfl⟩
  | n + 1, l => by
    unfold Link.pumpN
    split
    · exact ⟨rfl, rfl⟩
    · split
      · exact ⟨rfl, rfl⟩
      · split
        · exact Link.pumpN_keeps k n _
        · split
          · exact ⟨rfl, rfl⟩
          · exact Link.pumpN_keeps k n _

@[simp] theorem Link.pump_st (k : LinkKind) (l : Link) : (Link.pump k l).st = l.st := (Link.pumpN_keeps k _ l).1

@[simp] theorem Link.pump_decl (k : LinkKind) (l : Link) : (Link.pump k l).decl = l.decl := (Link.pumpN_keeps k _ l).2

@[simp] theorem Link.consume_st (l : Link) (twin : Bool) (h : Slot) : (l.consume twin h).st = l.st := by
  unfold Link.consume; split <;> rfl

@[simp] theorem Link.consume_decl (l : Link) (twin : Bool) (h : Slot) : (l.consume twin h).decl = l.decl := by
  unfold Link.consume; split <;> rfl

/-- A change of an agent's link changes the links only; the twin link is another one. -/
theorem Fabric.modLink_agent (f : Fabric) {a : Nat} (ha : a < 32) (g : Link → Link) :
    f.modLink a g = { f with links := vset f.links a (g (f.link a)) } := if_neg (Nat.ne_of_lt ha)

theorem Fabric.link_modLink (f : Fabric) {a : Nat} (ha : a < 32) (g : Link → Link) :
    (f.modLink a g).link a = g (f.link a) := by
  rw [Fabric.modLink_agent f ha, Fabric.link, if_neg (Nat.ne_of_lt ha)]
  exact vget_vset_same _ _ _ _ ha

/-- Between two fabrics only the agents' links differ. -/
def Fabric.SameButLinks (f g : Fabric) : Prop := ∃ ls, g = { f with links := ls }

theorem Fabric.SameButLinks.refl (f : Fabric) : f.SameButLinks f := ⟨f.links, rfl⟩

theorem Fabric.SameButLinks.trans {f g h : Fabric} (hg : f.SameButLinks g) (hh : g.SameButLinks h) : f.SameButLinks h := by
  obtain ⟨ls, rfl⟩ := hg
  obtain ⟨ls', rfl⟩ := hh
  exact ⟨ls', rfl⟩

section
variable {f g : Fabric} (h : f.SameButLinks g)
include h
theorem Fabric.SameButLinks.arr : g.arr = f.arr := h.elim fun _ e => e ▸ rfl
theorem Fabric.SameButLinks.txns : g.txns = f.txns := h.elim fun _ e => e ▸ rfl
theorem Fabric.SameButLinks.gran : g.gran = f.gran := h.elim fun _ e => e ▸ rfl
theorem Fabric.SameButLinks.mem : g.mem = f.mem := h.elim fun _ e => e ▸ rfl
theorem Fabric.SameButLinks.twin : g.twin = f.twin := h.elim fun _ e => e ▸ rfl
theorem Fabric.SameButLinks.portHeld : g.portHeld = f.portHeld := h.elim fun _ e => e ▸ rfl
theorem Fabric.SameButLinks.draining : g.draining = f.draining := h.elim fun _ e => e ▸ rfl
theorem Fabric.SameButLinks.activeHome (la : LAddr) : g.activeHome la = f.activeHome la := h.elim fun _ e => e ▸ rfl
theorem Fabric.SameButLinks.alone : g.alone = f.alone := h.elim fun _ e => e ▸ rfl
end

theorem Fabric.sameButLinks_modLink (f : Fabric) {a : Nat} (ha : a < 32) (g : Link → Link) : f.SameButLinks (f.modLink a g) :=
  ⟨_, f.modLink_agent ha g⟩

theorem Fabric.sameButLinks_send (f : Fabric) {a : Nat} (ha : a < 32) (m : Msg) : f.SameButLinks (f.send a m) :=
  f.sameButLinks_modLink ha _

theorem Fabric.sameButLinks_endLive (f : Fabric) {a : Nat} (ha : a < 32) (x : Nat) : f.SameButLinks (f.endLive a x) :=
  f.sameButLinks_modLink ha _

/-- An answer that needs no tracker changes the links only. -/
theorem Fabric.sameButLinks_bareComp (f : Fabric) {a : Nat} (ha : a < 32) (x : Nat) (r : Res) (v : Nat) :
    f.SameButLinks (f.bareComp a x r v) :=
  (f.sameButLinks_send ha _).trans (Fabric.sameButLinks_endLive _ ha _)

/-! ## A request at its port -/

theorem Op.ofCode_code (o : Op) : Op.ofCode o.code = some o := by cases o <;> rfl

theorem State.linkUp_iff (s : State) (a : Nat) : s.linkUp a = true ↔ a < 32 ∧ s.linkOn a = true ∧ s.fab.linkUp a = true := by
  simp [State.linkUp, and_assoc]

/-- The command of a request delivers it with the payload that its opcode has. -/
theorem exec_of_requestOf {s : State} {a : Nat} {hdr : Slot} {data : Line} {be : BitVec 64} {opnd : Slot} {more : Bool} {o : Op}
    {c : Instr} (hc : requestOf o a hdr data be opnd more = some c) (hop : hOp hdr = o.code) (up : s.linkUp a = true) :
    exec c s = .next (s.after (s.fab.request s.cfg a o ⟨hdr, reqPay o data be opnd⟩ more)) := by
  obtain ⟨ha, hon, -⟩ := (s.linkUp_iff a).mp up
  have agent : ∀ d b p, reqPay o d b p = reqPay o data be opnd → s.agentReq a o hdr d b p more =
      s.after (s.fab.request s.cfg a o ⟨hdr, reqPay o data be opnd⟩ more) := by
    intro d b p hp
    simp only [State.agentReq, State.atLink, ha, hop, hon, hp, decide_true, Bool.and_self, if_true]
    rfl
  cases o <;> cases hc <;> exact congrArg Host.Outcome.next (agent _ _ _ rfl)

/-- The requests and evictions are the messages of two classes. -/
theorem Op.cls_of_requestOf {a : Nat} {hdr : Slot} {data : Line} {be : BitVec 64} {opnd : Slot} {more : Bool} {o : Op} {c : Instr}
    (hc : requestOf o a hdr data be opnd more = some c) : o.cls = clsREQ ∨ o.cls = clsEVC := by
  cases o <;> simp_all [requestOf, Op.cls]

theorem Fabric.actOn_request (cfg : Cfg) (f : Fabric) (a : Nat) {o : Op} (m : Msg) (ho : o.cls = clsREQ ∨ o.cls = clsEVC) :
    f.actOn cfg a o m = f.deliverReq cfg a o m := by
  cases o <;> simp_all [Op.cls, clsREQ, clsEVC, clsRSP, clsDAT, clsSNP, clsEVT, Fabric.actOn]

/-- One message that need not wait leaves the receive buffer and acts. -/
theorem Fabric.takeMsgs_singleton {cfg : Cfg} {f : Fabric} {a : Nat} {o : Op} {m : Msg} (hop : hOp m.hdr = o.code)
    (up : f.linkUp a = true) (free : f.mustWait a o m.hdr = false) :
    Fabric.takeMsgs cfg a [m] f = (f.consume a m.hdr).actOn cfg a o m := by
  simp [Fabric.takeMsgs, hop, Op.ofCode_code, up, free]

/-- A message in the receive buffer is among the messages of its class. -/
theorem Link.mem_ofClass {l : Link} {o : Op} {x : Msg} (hx : x ∈ l.rxq) (hop : hOp x.hdr = o.code) : x ∈ l.ofClass o.cls := by
  simp [Link.ofClass, Msg.cls, hx, hop, Op.ofCode_code]

/-- The receive buffer holds no message with a header of a class of which it holds none. -/
theorem Link.any_hdr_of_ofClass_nil {l : Link} {o : Op} {h : Slot} (hop : hOp h = o.code) (none : l.ofClass o.cls = []) :
    l.rxq.any (fun x => x.hdr = h) = false := by
  rw [Bool.eq_false_iff]
  intro hit
  obtain ⟨x, hx, hh⟩ := List.any_eq_true.mp hit
  have := Link.mem_ofClass hx (o := o) (by rw [of_decide_eq_true hh, hop])
  rw [none] at this
  cases this

/-- The oldest message of its class is the only one that leaves when it is delivered. -/
theorem Link.upTo_head {l : Link} {c : Nat} {m : Msg} (h : (l.ofClass c).head? = some m) : l.upTo c m.hdr = [m] := by
  obtain ⟨ms, hms⟩ := List.head?_eq_some_iff.mp h
  simp [Link.upTo, hms, List.findIdx_cons]

/-- A message that leaves its port with its TXID live and its tracker taken. -/
theorem Fabric.begun_eq (f : Fabric) (a : Nat) (o : Op) (hdr : Slot) :
    f.begun a o hdr = (if (f.link a).rxq.any (fun x => x.hdr = hdr) then f.consume a hdr
      else f.modLink a (fun l => { l with live := l.live ++ [hTxid hdr] })).takeTracker a o hdr := rfl

theorem Fabric.sameButLinks_begun (f : Fabric) {a : Nat} (ha : a < 32) (o : Op) (hdr : Slot) : f.SameButLinks (f.begun a o hdr) := by
  have tracker : ∀ g : Fabric, g.SameButLinks (g.takeTracker a o hdr) := by
    intro g
    unfold Fabric.takeTracker
    split
    · exact g.sameButLinks_modLink ha _
    · exact .refl g
  rw [Fabric.begun_eq]
  split
  · exact (f.sameButLinks_modLink ha _).trans (tracker _)
  · exact (f.sameButLinks_modLink ha _).trans (tracker _)

theorem Fabric.begun_decl (f : Fabric) {a : Nat} (ha : a < 32) (o : Op) (hdr : Slot) :
    ((f.begun a o hdr).link a).decl = (f.link a).decl := by
  have tracker : ∀ g : Fabric, ((g.takeTracker a o hdr).link a).decl = (g.link a).decl := by
    intro g
    unfold Fabric.takeTracker
    split
    · rw [Fabric.link_modLink g ha]
    · rfl
  rw [Fabric.begun_eq, tracker]
  split
  · rw [Fabric.consume, Fabric.link_modLink f ha, Link.pump_decl, Link.consume_decl]
  · rw [Fabric.link_modLink f ha]

/-- A request or eviction that may act at once is held in a drain or accepted (R45, R328). -/
theorem State.arrive_first {s : State} {a : Nat} {o : Op} {m : Msg} (hop : hOp m.hdr = o.code)
    (ho : o.cls = clsREQ ∨ o.cls = clsEVC) (up : s.fab.linkUp a = true) (first : s.first a o m = true) :
    s.fab.arrive s.cfg a o m (fun f => (f.modLink a (fun l => { l with live := l.live ++ [hTxid m.hdr] })).deliverReq s.cfg a o m) =
      if (s.fab.begun a o m.hdr).draining && o.cls = clsREQ then
        { s.fab.begun a o m.hdr with portHeld := (s.fab.begun a o m.hdr).portHeld ++ [(a, m)] }
      else (s.fab.begun a o m.hdr).acceptReq s.cfg a o m := by
  simp only [State.first, Bool.and_eq_true, Bool.or_eq_true, decide_eq_true_eq, Bool.not_eq_true] at first
  obtain ⟨hq, free⟩ := first
  rw [Fabric.begun_eq]
  rcases hq with none | head
  · have gone := Link.any_hdr_of_ofClass_nil hop none
    simp only [Fabric.arrive, gone, none, Fabric.takeMsgs, up, free]
    rfl
  · have here : (s.fab.link a).rxq.any (fun x => x.hdr = m.hdr) = true :=
      List.any_eq_true.mpr ⟨m, (List.mem_filter.mp (List.mem_of_head? head)).1, by simp⟩
    rw [Fabric.arrive, here, if_pos rfl, if_pos rfl, Link.upTo_head head, Fabric.takeMsgs_singleton hop up free,
      Fabric.actOn_request _ _ _ _ ho]
    rfl

theorem Fabric.retryHeld_clear {s : State} (clear : s.portClear = true) : s.fab.retryHeld s.cfg = s.fab := by
  simp only [State.portClear, Bool.or_eq_true, decide_eq_true_eq] at clear
  exact if_pos (by simpa using clear)

/-- What follows at the arbiters once a request has been dealt with at its port. -/
def Fabric.portEnds (cfg : Cfg) (more : Bool) (o : Op) (g : Fabric) : Fabric :=
  if more || (g.draining && o.cls = clsREQ) then g else g.flow cfg

/-- A message with a new TXID comes to the port behind what the port holds back (R74). -/
theorem State.request_newTxid {s : State} {a : Nat} {o : Op} {m : Msg} {more : Bool} (up : s.fab.linkUp a = true)
    (new : s.newTxid a m.hdr = true) (clear : s.portClear = true) :
    s.fab.request s.cfg a o m more = Fabric.portEnds s.cfg more o (s.fab.arrive s.cfg a o m (fun f =>
      (f.modLink a (fun l => { l with live := l.live ++ [hTxid m.hdr] })).deliverReq s.cfg a o m)) := by
  have fresh : ¬ ((¬ (s.fab.link a).rxq.any (fun x => x.hdr = m.hdr)) && (s.fab.link a).isLive (hTxid m.hdr)) = true := by
    simp only [State.newTxid, Bool.or_eq_true] at new
    rcases new with h | h <;> simp_all
  unfold Fabric.request
  rw [Fabric.retryHeld_clear clear, if_neg (by simp [up])]
  exact if_neg fresh

/-- A REQ for which no port request tracker is free waits (R26). -/
theorem Fabric.arrive_full {f : Fabric} {a : Nat} {o : Op} {m : Msg} (cfg : Cfg) (act : Fabric → Fabric) (hop : hOp m.hdr = o.code)
    (none : (f.link a).ofClass o.cls = []) (req : o.cls = clsREQ) (full : (f.link a).full = true) :
    f.arrive cfg a o m act = f := by
  have gone := Link.any_hdr_of_ofClass_nil hop none
  have waits : f.mustWait a o m.hdr = true := by simp [Fabric.mustWait, req, full]
  simp only [Fabric.arrive, gone, none, Fabric.takeMsgs, waits]
  simp

/-! ## A request at the crossbar of a device that is no part of a pair -/

theorem Fabric.activeHome_of_alone {f : Fabric} (alone : f.alone = true) (la : LAddr) : f.activeHome la = true := by
  simp only [Fabric.alone, Bool.and_eq_true, decide_eq_true_eq] at alone
  simp [Fabric.activeHome, alone.1]

/-- No tracker reconciles, so no resend ends a wait. -/
theorem Fabric.intentResend_of_alone {f : Fabric} (alone : f.alone = true) (cfg : Cfg) (a : Nat) (rseq : Word32) :
    f.intentResend cfg a rseq = f := by
  simp only [Fabric.alone, Bool.and_eq_true, List.all_eq_true] at alone
  refine if_neg (fun hit => ?_)
  obtain ⟨t, ht, hw⟩ := List.any_eq_true.mp hit
  have := alone.2 t ht
  simp only [Bool.and_eq_true, decide_eq_true_eq] at hw
  simp [hw.1] at this

theorem Fabric.dedupAnswer_of_alone {f : Fabric} (alone : f.alone = true) (cfg : Cfg) (a : Nat) (o : Op) (h : Slot) :
    f.dedupAnswer cfg a o h = none := by
  simp only [Fabric.alone, Bool.and_eq_true, decide_eq_true_eq] at alone
  exact if_pos (by simp [alone.1])

/-- Where there is no partner a request meets the checks of its form only (R79, R102). -/
theorem Fabric.acceptReq_of_alone {f : Fabric} (alone : f.alone = true) (cfg : Cfg) (a : Nat) (o : Op) (m : Msg) :
    f.acceptReq cfg a o m = if o.cachingOnly && ¬ f.caching a then f.refuse a o m.hdr 8
      else if ¬ f.locationOk a o m.hdr then f.refuse a o m.hdr 4
      else if o.isLine && f.caching a then f.toSlice cfg a o m
      else f.toUnit cfg a o m := by
  simp only [Fabric.acceptReq, Fabric.activeHome_of_alone alone, Fabric.intentResend_of_alone alone,
    Fabric.dedupAnswer_of_alone alone]
  simp

/-- A request with an Uncached header goes to the ordering unit. -/
theorem Fabric.acceptReq_uncached {f : Fabric} (alone : f.alone = true) (cfg : Cfg) (a : Nat) {o : Op} (m : Msg)
    (unc : o.isLine = false) : f.acceptReq cfg a o m = f.toUnit cfg a o m := by
  have only : o.cachingOnly = false := by cases o <;> simp_all [Op.isLine, Op.cachingOnly]
  simp [Fabric.acceptReq_of_alone alone, only, unc, Fabric.locationOk]

/-- A caching agent has no reservations at an ordering unit (R102). -/
theorem Fabric.toUnit_resv (cfg : Cfg) {f : Fabric} {a : Nat} {o : Op} (m : Msg) (fields : uncachedFieldsOk o m.hdr = true)
    (caching : f.caching a = true) (resv : o = .ldResv ∨ o = .stCond) : f.toUnit cfg a o m = f.refuse a o m.hdr 4 := by
  rw [Fabric.toUnit, if_neg (by simp [fields]), if_pos (by simp [caching, resv])]

/-- An Uncached header outside its rules is refused (R83). -/
theorem Fabric.toUnit_fields (cfg : Cfg) {f : Fabric} {a : Nat} {o : Op} (m : Msg) (unc : o.isLine = false)
    (fields : uncachedFieldsOk o m.hdr = false) : f.toUnit cfg a o m = f.refuse a o m.hdr 4 := by
  rw [Fabric.toUnit, if_pos (by simp [unc, fields])]

/-- An uncached access outside every region is answered ADDRESS (R214). -/
theorem Fabric.toUnit_outside (cfg : Cfg) {f : Fabric} {a : Nat} {o : Op} (m : Msg) (unc : o = .rdUncached ∨ o = .wrUncached)
    (fields : uncachedFieldsOk o m.hdr = true) (outside : cfg.regionOf (reqLaddr o m.hdr) = none) :
    f.toUnit cfg a o m = f.bareComp a (hTxid m.hdr) .address 0 := by
  have refuses : typeAccepts o none = false := by rcases unc with rfl | rfl <;> rfl
  have noResv : (o = .ldResv || o = .stCond) = false := by rcases unc with rfl | rfl <;> rfl
  rw [Fabric.toUnit, if_neg (by simp [fields]), if_neg (by simp [noResv]), if_pos (by simp [outside, refuses])]

theorem Fabric.sameButLinks_retry (f : Fabric) {a : Nat} (ha : a < 32) (o : Op) (h : Slot) (reason : Nat) :
    f.SameButLinks (f.retry a o h reason) :=
  (f.sameButLinks_send ha _).trans (Fabric.sameButLinks_endLive _ ha _)

/-- A Retry does not look at the pair's record. -/
theorem Fabric.retry_twin (f : Fabric) {a : Nat} (ha : a < 32) (o : Op) (h : Slot) (reason : Nat) (t : Twin) :
    ({ f with twin := t } : Fabric).retry a o h reason = { f.retry a o h reason with twin := t } := by
  simp only [Fabric.retry, Fabric.send, Fabric.endLive, Fabric.modLink_agent _ ha]
  rfl

/-- A message whose active home is the other device is counted and answered Retry (R29). -/
theorem Fabric.acceptReq_misdirected {f : Fabric} {o : Op} {m : Msg} (cfg : Cfg) (a reason : Nat)
    (hr : if f.twin.pair = .paired then reason = 1 else (f.twin.pair = .failover ∨ f.twin.pair = .waiting) ∧ reason = 2)
    (addr : o.addressed = true) (away : f.activeHome (reqLaddr o m.hdr) = false) :
    f.acceptReq cfg a o m =
      ({ f with twin := { f.twin with misdirected := f.twin.misdirected + 1 } } : Fabric).retry a o m.hdr reason := by
  have why : (if f.twin.pair = .failover || f.twin.pair = .waiting then 2 else 1) = reason := by
    split at hr
    · rename_i paired
      simp [paired, hr]
    · simp [hr.1, hr.2]
  rw [Fabric.acceptReq, if_pos (by simp [addr, away]), ← why]

theorem Fabric.caching_eq {f : Fabric} {a : Nat} {d : Line} (hd : (f.link a).decl = some d) : f.caching a = dclCaching d := by
  simp [Fabric.caching, hd]

theorem Fabric.refuse_draining (f : Fabric) {a : Nat} (ha : a < 32) (o : Op) (h : Slot) (why : Nat) :
    (f.refuse a o h why).draining = f.draining :=
  (Fabric.sameButLinks_bareComp _ ha _ _ _).draining.trans (f.sameButLinks_modLink ha (fun l => l.perr o.code why)).draining

/-! ## The outcomes of a request at its port -/

section
variable {s : State} {a : Nat} {hdr : Slot} {data : Line} {be : BitVec 64} {opnd : Slot} {more : Bool} {o : Op} {c : Instr}
  (hc : requestOf o a hdr data be opnd more = some c) (hop : hOp hdr = o.code) (up : s.linkUp a = true)
include hc hop up

/-- A TXID in use fences the link (R74). -/
theorem exec_request_fences (new : (s.fab.link a).rxq.any (fun x => x.hdr = hdr) = false)
    (live : (s.fab.link a).isLive (hTxid hdr) = true) :
    exec c s = .next (s.after (s.fab.fenceLink s.cfg a o.code 3)) := by
  obtain ⟨-, -, upF⟩ := (s.linkUp_iff a).mp up
  rw [exec_of_requestOf hc hop up, Fabric.request, if_neg (by simp [upF])]
  exact congrArg (fun g => Host.Outcome.next (s.after g)) (if_pos (by simpa using And.intro new live))

variable (new : s.newTxid a hdr = true)
include new

/-- A REQ that lacks a port request tracker changes nothing (R26). -/
theorem exec_request_waits (clear : s.portClear = true) (none : (s.fab.link a).ofClass o.cls = []) (req : o.cls = clsREQ)
    (full : (s.fab.link a).full = true) :
    exec c s = .next (s.after (if more ∨ s.fab.draining = true then s.fab else s.fab.flow s.cfg)) := by
  obtain ⟨-, -, upF⟩ := (s.linkUp_iff a).mp up
  rw [exec_of_requestOf hc hop up, State.request_newTxid upF new clear, Fabric.arrive_full s.cfg _ hop none req full]
  simp [Fabric.portEnds, req]

variable (first : s.first a o ⟨hdr, reqPay o data be opnd⟩ = true)
include first

/-- A REQ is held in its port during a drain (R328). -/
theorem exec_request_held (drain : s.fab.draining = true) (req : o.cls = clsREQ) :
    exec c s = .next (s.after { s.fab.begun a o hdr with
      portHeld := s.fab.portHeld ++ [(a, ⟨hdr, reqPay o data be opnd⟩)] }) := by
  obtain ⟨ha, -, upF⟩ := (s.linkUp_iff a).mp up
  have frame := s.fab.sameButLinks_begun ha o hdr
  have drains : (s.fab.begun a o hdr).draining = true := frame.draining.trans drain
  rw [exec_of_requestOf hc hop up, State.request_newTxid upF new (by simp [State.portClear, drain]),
    State.arrive_first hop (.inl req) upF first, if_pos (by simp [drains, req]), Fabric.portEnds,
    if_pos (by simp [drains, req]), ← frame.portHeld]

/-- Any other request is accepted, and what waits at the arbiters goes on. -/
theorem exec_request_accepted (clear : s.portClear = true) (calm : s.fab.draining = false ∨ o.cls = clsEVC) (g : Fabric)
    (accepts : (s.fab.begun a o hdr).acceptReq s.cfg a o ⟨hdr, reqPay o data be opnd⟩ = g)
    (drains : g.draining = (s.fab.begun a o hdr).draining) :
    exec c s = .next (s.after (if more then g else g.flow s.cfg)) := by
  obtain ⟨ha, -, upF⟩ := (s.linkUp_iff a).mp up
  have draining : (s.fab.begun a o hdr).draining = s.fab.draining := (s.fab.sameButLinks_begun ha o hdr).draining
  have passes : ((s.fab.begun a o hdr).draining && decide (o.cls = clsREQ)) = false := by
    rw [draining]
    rcases calm with h | h <;> simp [h, clsEVC, clsREQ]
  rw [exec_of_requestOf hc hop up, State.request_newTxid upF new clear,
    State.arrive_first hop (Op.cls_of_requestOf hc) upF first, if_neg (by simp [passes]), accepts,
    Fabric.portEnds, drains, passes]
  simp

end

end Sys2Proof.Machine

namespace Sys2Proof
open Machine

/-- Settles O46: a request that may act at once is held or accepted with its TXID live and its tracker taken, and the
checks of acceptance then come in their order (R26, R29, R74, R102, R104, R214, R328). -/
theorem refusedRequestsAreAnsweredAtThePort : Obligations.RefusedRequestsAreAnsweredAtThePort := by
  unfold Obligations.RefusedRequestsAreAnsweredAtThePort
  intro s a hdr data be opnd more d o c hc hop up hd ends b l
  let m : Msg := ⟨hdr, reqPay o data be opnd⟩
  obtain ⟨ha, -, -⟩ := (s.linkUp_iff a).mp up
  have frame : s.fab.SameButLinks b := s.fab.sameButLinks_begun ha o hdr
  have caching : b.caching a = dclCaching d := Fabric.caching_eq ((s.fab.begun_decl ha o hdr).trans hd)
  refine ⟨exec_request_fences hc hop up, exec_request_waits hc hop up, exec_request_held hc hop up,
    fun new first clear calm => ?_⟩
  have accepted : ∀ g : Fabric, b.acceptReq s.cfg a o m = g → g.draining = b.draining → ends g :=
    exec_request_accepted hc hop up new first clear calm
  have refused : ∀ why, b.acceptReq s.cfg a o m = b.refuse a o hdr why →
      ends ((b.protoErr a o.code why).bareComp a (hTxid hdr) .proto 0) :=
    fun why h => accepted _ h (b.refuse_draining ha o hdr why)
  refine ⟨fun alone notCaching only => refused 8 ?_, fun alone isCaching resv fields => refused 4 ?_,
    fun alone unc fields => refused 4 ?_,
    fun alone unc fields outside => accepted _ ?_ (b.sameButLinks_bareComp ha _ _ _).draining, fun reason hr addr away => ?_⟩
  · rw [Fabric.acceptReq_of_alone (frame.alone.trans alone), if_pos (by simp [only, caching, notCaching])]
  · have unc : o.isLine = false := by rcases resv with rfl | rfl <;> rfl
    rw [Fabric.acceptReq_uncached (frame.alone.trans alone) _ _ m unc,
      Fabric.toUnit_resv _ m fields (caching.trans isCaching) resv]
  · rw [Fabric.acceptReq_uncached (frame.alone.trans alone) _ _ m unc, Fabric.toUnit_fields _ m unc fields]
  · have notLine : o.isLine = false := by rcases unc with rfl | rfl <;> rfl
    rw [Fabric.acceptReq_uncached (frame.alone.trans alone) _ _ m notLine, Fabric.toUnit_outside _ m unc fields outside]
  · have retry := Fabric.acceptReq_misdirected (f := b) (m := m) s.cfg a reason (by rwa [frame.twin]) addr
      ((frame.activeHome _).trans away)
    rw [Fabric.retry_twin b ha] at retry
    have kept := frame.trans (b.sameButLinks_retry ha o hdr reason)
    exact ⟨_, accepted _ retry (kept.draining.trans frame.draining.symm), by rw [frame.twin], rfl, kept.arr, kept.txns,
      kept.mem, kept.gran⟩

end Sys2Proof
end

section
/-! SUPPORT. Records of the twin link: their receipt, what applying one does to the memories, the Granary, the caches
and the open transactions, and their acknowledgement (R24, R357 to R361). -/
namespace Sys2Proof.Machine

/-! ## Commands of the twin link -/

/-- A command of the twin link acts while the twin block has power. -/
theorem State.atLink_twin {s : State} (on : s.on 8 = true) (g : Fabric → Fabric) : s.atLink 32 g = s.after (g s.fab) := by
  have : s.linkOn 32 = true := by simp [State.linkOn, on]
  rw [State.atLink, if_pos this, State.onFab_eq]

theorem exec_logRecordReceive {s : State} (on : s.on 8 = true) (r : TRec) :
    exec (.logRecordReceive r) s = .next (s.after (s.fab.logReceive s.cfg r)) :=
  congrArg Host.Outcome.next (State.atLink_twin on _)

theorem exec_logRecordApply {s : State} (on : s.on 8 = true) (src : Nat) :
    exec (.logRecordApply src) s = .next (s.after (s.fab.logApply s.cfg src)) :=
  congrArg Host.Outcome.next (State.atLink_twin on _)

theorem exec_twinAckReceive {s : State} (on : s.on 8 = true) (src lseq : Nat) :
    exec (.twinAckReceive src lseq) s = .next (s.after (((s.fab.ctlTaken 1).ackReceive s.cfg src lseq).flow s.cfg)) :=
  congrArg Host.Outcome.next (State.atLink_twin on _)

@[simp] theorem Fabric.fromTwin_st (f : Fabric) (h : Slot) : (f.fromTwin h).tlink.st = f.tlink.st := by
  simp [Fabric.fromTwin, Link.pump_st, Link.consume_st]

/-- A message of the partner that leaves the receive buffer changes the twin link only. -/
theorem Fabric.ctlTaken_frame (f : Fabric) (kind : Nat) : ∃ tl, f.ctlTaken kind = { f with tlink := tl } := by
  unfold Fabric.ctlTaken
  split
  · exact ⟨_, rfl⟩
  · exact ⟨f.tlink, rfl⟩

/-! ## Records that arrive (R357) -/

/-- A record in its place is kept and acknowledged. -/
theorem Fabric.logReceive_next {f : Fabric} (cfg : Cfg) {r : TRec} (act : f.tlink.st = .active)
    (due : vget f.twin.expect 0 r.src = r.lseq) :
    f.logReceive cfg r = { f.fromTwin r.header with
      twin := { f.twin with
        backlog := f.twin.backlog ++ [r]
        expect := vset f.twin.expect r.src ((r.lseq + 1) % 2 ^ 24)
        sentCtl := f.twin.sentCtl ++ [(1, r.src + 16 * r.lseq)] }
      tlink := (f.fromTwin r.header).tlink.send twinKind (ctlMsg 1 (r.src + 16 * r.lseq)) } := by
  have st : ¬ (f.fromTwin r.header).tlink.st ≠ .active := by simp [act]
  have place : ¬ vget (f.fromTwin r.header).twin.expect 0 r.src ≠ r.lseq := by simpa [Fabric.fromTwin] using due
  rw [Fabric.logReceive, if_neg st, if_neg place]
  rfl

/-- A record out of its place takes the twin link to Recovery. -/
theorem Fabric.logReceive_other {f : Fabric} (cfg : Cfg) {r : TRec} (act : f.tlink.st = .active)
    (other : vget f.twin.expect 0 r.src ≠ r.lseq) :
    f.logReceive cfg r = ({ f with tlink := (f.fromTwin r.header).tlink.recover.1 } : Fabric).raise 33 := by
  have st : ¬ (f.fromTwin r.header).tlink.st ≠ .active := by simp [act]
  have place : vget (f.fromTwin r.header).twin.expect 0 r.src ≠ r.lseq := other
  rw [Fabric.logReceive, if_neg st, if_pos place]
  rfl

/-- A record that comes while the link is not Active is lost. -/
theorem Fabric.logReceive_inactive {f : Fabric} (cfg : Cfg) {r : TRec} (idle : f.tlink.st ≠ .active) :
    f.logReceive cfg r = f.fromTwin r.header := by
  have st : (f.fromTwin r.header).tlink.st ≠ .active := by simpa using idle
  rw [Fabric.logReceive, if_pos st]

/-! ## Records that are applied (R358) -/

theorem Fabric.logApply_none {f : Fabric} (cfg : Cfg) {src : Nat} (none : ∀ r ∈ f.twin.backlog, r.src ≠ src) :
    f.logApply cfg src = f := by
  have : f.twin.backlog.find? (fun r => r.src = src) = Option.none := by simpa using none
  rw [Fabric.logApply, this]

/-- The oldest record of the backlog leaves it and is applied. -/
theorem Fabric.logApply_head {f : Fabric} (cfg : Cfg) {r : TRec} {rest : List TRec} (h : f.twin.backlog = r :: rest) :
    f.logApply cfg r.src = (({ f with twin := { f.twin with backlog := rest } } : Fabric).applyRec cfg r).settle cfg := by
  simp [Fabric.logApply, h, Fabric.modTwin, dropFirst]

/-! ### Memory -/

/-- Writes put into the DDR5 queue one after the other. -/
theorem Fabric.foldl_pushD (q : Nat → MemReq) (l : List Nat) (f : Fabric) :
    l.foldl (fun f k => f.pushD (q k)) f = { f with mem := { f.mem with dq := f.mem.dq ++ l.map q } } := by
  induction l generalizing f with
  | nil => simp
  | cons k l ih =>
    rw [List.foldl_cons, ih]
    simp [Fabric.pushD]

theorem Mem.marked_unmark (m : Mem) (page : Nat) : (m.unmark page).marked page = false := by
  simp [Mem.marked, Mem.unmark, Tab.find_set_same]

theorem Mem.marked_mark (m : Mem) (s page : Nat) : (m.mark s page).marked page = true := by
  simp [Mem.marked, Mem.mark, Tab.find_erase_same]

/-- A fill of a marked page queues 64 writes of zeros and clears the mark. -/
theorem Fabric.zeroFill_marked {f : Fabric} {page : Nat} (h : f.mem.marked page = true) :
    ∃ hq, f.zeroFill page = { f with mem := { f.mem.unmark page with
      hq := hq
      dq := f.mem.dq ++ (List.range 64).map (fun k => { MemReq.wr (page * 64 + k) 0 allEn false .none with acc := true }) } } := by
  rw [Fabric.zeroFill, if_pos h, Fabric.foldl_pushD]
  exact ⟨_, rfl⟩

theorem Fabric.zeroFill_unmarked {f : Fabric} {page : Nat} (h : f.mem.marked page = false) : f.zeroFill page = f :=
  if_neg (by simp [h])

/-- A marked page loses what the device holds of it; its mark goes to both copies of its map word (R252, R283). -/
theorem Fabric.markPage_frame {f : Fabric} {cfg : Cfg} {la : LAddr} {rg : Region} (hr : cfg.regionOf la = some rg) :
    ∃ c p hq, f.markPage cfg la = { f with
      cache := c
      pfu := p
      mem := { f.mem.mark (sliceOf la) (backPage (rg.backLine la)) with hq := hq } } := by
  simp only [Fabric.markPage, hr]
  exact ⟨_, _, _, rfl⟩

theorem Fabric.applyRec_mark {f : Fabric} {cfg : Cfg} {r : TRec} (ht : r.rtype = 8) (hg : r.gch = none) (hx : r.txn = none) :
    f.applyRec cfg r = f.applyMark cfg r := by
  simp [Fabric.applyRec, ht, hg, hx]

/-- A MARK record with RSEQ 1 fills its page with zeros where the page is marked (R285). -/
theorem Fabric.applyMark_fill {f : Fabric} {cfg : Cfg} {r : TRec} {rg : Region} (hr : cfg.regionOf r.la = some rg)
    (fill : r.rseq = 1) : f.applyMark cfg r = f.zeroFill (backPage (rg.backLine r.la)) := by
  simp [Fabric.applyMark, hr, fill]

/-- Any other MARK record marks its page, and running descriptors note the mark. -/
theorem Fabric.applyMark_mark {f : Fabric} {cfg : Cfg} {r : TRec} {rg : Region} (hr : cfg.regionOf r.la = some rg)
    (mark : r.rseq ≠ 1) : ∃ c p hq, f.applyMark cfg r = { f with
      cache := c
      pfu := p
      mem := { f.mem.mark (sliceOf r.la) (backPage (rg.backLine r.la)) with hq := hq }
      hrw := { f.hrw with descs := f.hrw.descs.map (fun d => { d with marks := d.marks ++ [pageMark (r.la.toNat / 64)] }) } } := by
  obtain ⟨c, p, hq, e⟩ := f.markPage_frame hr
  refine ⟨c, p, hq, ?_⟩
  simp only [Fabric.applyMark, hr, if_neg mark, e]

/-- What a MARK record leaves of its page, the memories and the descriptors. -/
theorem Fabric.applyMark_effect {f : Fabric} {cfg : Cfg} {r : TRec} {rg : Region} (hr : cfg.regionOf r.la = some rg) :
    let page := backPage (rg.backLine r.la)
    let h := f.applyMark cfg r
    h.mem.marked page = decide (r.rseq ≠ 1) ∧
      h.mem.dq = f.mem.dq ++ (if r.rseq = 1 ∧ f.mem.marked page = true then
        (List.range 64).map (fun k => { MemReq.wr (page * 64 + k) 0 allEn false .none with acc := true }) else []) ∧
      h.mem.ddr = f.mem.ddr ∧ h.mem.hbm = f.mem.hbm ∧ h.txns = f.txns ∧ h.gran = f.gran ∧ h.twin = f.twin ∧
      h.hrw.descs = (if r.rseq = 1 then f.hrw.descs
        else f.hrw.descs.map (fun d => { d with marks := d.marks ++ [pageMark (r.la.toNat / 64)] })) := by
  intro page h
  by_cases fill : r.rseq = 1
  · have unmarked : decide (r.rseq ≠ 1) = false := decide_eq_false (not_not.mpr fill)
    have e : h = f.zeroFill page := Fabric.applyMark_fill hr fill
    rw [unmarked, if_pos fill]
    cases marked : f.mem.marked page with
    | false =>
      rw [e, Fabric.zeroFill_unmarked marked, if_neg (fun c => Bool.false_ne_true c.2), List.append_nil]
      exact ⟨marked, rfl, rfl, rfl, rfl, rfl, rfl, rfl⟩
    | true =>
      obtain ⟨hq, e'⟩ := Fabric.zeroFill_marked marked
      rw [e, e', if_pos ⟨fill, rfl⟩]
      exact ⟨f.mem.marked_unmark page, rfl, rfl, rfl, rfl, rfl, rfl, rfl⟩
  · obtain ⟨c, p, hq, e⟩ := f.applyMark_mark hr fill
    rw [show h = _ from e, decide_eq_true (p := r.rseq ≠ 1) fill, if_neg fill, if_neg (fun c => fill c.1), List.append_nil]
    exact ⟨f.mem.marked_mark (sliceOf r.la) page, rfl, rfl, rfl, rfl, rfl, rfl, rfl⟩

/-! ### The Granary -/

/-- A record whose Granary change only writes places its entry at the slot of the same agent (R357). -/
theorem Fabric.applyRec_write {f : Fabric} {cfg : Cfg} {r : TRec} {gc : Gch} {k set way k' : Nat} {st : LSt} (ht : r.rtype = 3)
    (hx : r.txn = none) (hd : r.data = none) (hg : r.gch = some gc) (hrem : gc.remove = 0) (hs : gc.toS = 0)
    (hw : gc.write = some (k, st, set, way)) (here : f.slotHere k = some k') :
    f.applyRec cfg r = { f with gran := f.gran.place (locNum k' set way) r.la st } := by
  have noSlot : onesOf 0 16 = [] := by decide
  simp [Fabric.applyRec, ht, hx, hd, hg, Fabric.applyGch, hrem, hs, hw, noSlot, here]

/-! ### Standby data -/

theorem getLsbD_maskPut_same (m : BitVec 64) {k : Nat} (hk : k < 64) (b : Bool) : (maskPut m k b).getLsbD k = b := by
  cases b <;> simp [maskPut, hk]

theorem Cache.tcNewer_sectors (c : Cache) (key : Nat) : (c.tcNewer key).sectors = c.sectors := by
  unfold Cache.tcNewer
  split
  · split <;> rfl
  · rfl

theorem Cache.sector_newSector (c : Cache) (key : Nat) (x : Sector) : (c.newSector key x).sector key = some x := by
  unfold Cache.newSector
  split
  · assumption
  · rw [Cache.sector, Cache.tcNewer_sectors]
    exact Tab.find_set_same _ _ _

/-- A sector that keeps a valid sub-block is written in place. -/
theorem Cache.sector_modSector {c : Cache} {key : Nat} {x : Sector} {g : Sector → Sector} (h : c.sector key = some x)
    (valid : (g x).valid ≠ 0) : (c.modSector key g).sector key = some (g x) := by
  simp only [Cache.modSector, h, Cache.putSector, valid]
  simp [Cache.sector_newSector]

/-- A sector with standby data of its sub-block `k`. -/
def Sector.withStandby (k : Nat) (p : Bool) (x : Sector) : Sector :=
  { x with valid := maskPut x.valid k true, dirty := maskPut x.dirty k true, poison := maskPut x.poison k p, stby := true }

theorem Sector.withStandby_valid (x : Sector) {k : Nat} (hk : k < 64) (p : Bool) : (x.withStandby k p).valid ≠ 0 := by
  intro h
  have := getLsbD_maskPut_same x.valid hk true
  rw [show maskPut x.valid k true = 0 from h] at this
  simp at this

theorem subOf_lt (la : LAddr) : subOf la < 64 := Nat.mod_lt _ (by decide)

/-- Standby data of a line whose sector is held goes to that sector, dirty (R359). -/
theorem Fabric.standby_held {f : Fabric} {cfg : Cfg} {la : LAddr} {d : Line} {p : Bool} {rg : Region} {key : Nat}
    (hr : cfg.regionOf la = some rg) (hl : rg.line = false) (hc : rg.typ.cacheable = true) (he : cfg.cacheEn (sliceOf la) = true)
    (hk : f.cache.findSector (setOf la) (tagOf la) = some key) :
    f.standby cfg la d p = { f with
      cache := f.cache.modSector key (Sector.withStandby (subOf la) p)
      mem := { f.mem with hq := f.mem.hq ++
        [{ MemReq.wr (subWord (key / 10) (key % 10) (subOf la)) d allEn p .none with acc := true }] } } := by
  simp only [Fabric.standby, hr, hl, hc, he, hk]
  rfl

theorem Fabric.applyRec_data {f : Fabric} {cfg : Cfg} {r : TRec} {d : Line} {p : Bool} (ht : r.rtype = 6) (hg : r.gch = none)
    (hx : r.txn = none) (hd : r.data = some (d, p)) : f.applyRec cfg r = f.standby cfg r.la d p := by
  simp [Fabric.applyRec, ht, hg, hx, hd]

/-! ### A transaction that is over -/

theorem Fabric.applyRec_close {f : Fabric} {cfg : Cfg} {r : TRec} {x : TxSlot} (ht : r.rtype = 4) (hg : r.gch = none)
    (hx : r.txn = some x) (hd : r.data = none) : f.applyRec cfg r = f.applyClose x := by
  simp [Fabric.applyRec, ht, hg, hx, hd]

/-- The open transactions that stay are the ones of other tags. -/
theorem Fabric.mem_applyClose_opens {f : Fabric} {x : TxSlot} {o : TRec} (ho : o ∈ (f.applyClose x).twin.opens) :
    o ∈ f.twin.opens ∧ ∀ y, o.txn = some y → y.htag ≠ x.htag := by
  obtain ⟨mem, keep⟩ := List.mem_filter.mp ho
  refine ⟨mem, fun y hy => ?_⟩
  simpa [hy] using keep

/-- The deduplication entries of the transaction that this device does not run itself are open no more (R361). -/
theorem Fabric.opn_of_mem_applyClose_dedup {f : Fabric} {x : TxSlot} {k : Nat} {e : Dedup}
    (he : (k, e) ∈ (f.applyClose x).twin.dedup) (tag : e.htag = x.htag) (dead : e.live = false) : e.opn = false := by
  obtain ⟨⟨j, old⟩, -, new⟩ := List.mem_map.mp he
  by_cases closes : (old.htag = x.htag && old.opn && ¬ old.live) = true
  · rw [if_pos closes] at new
    cases new
    rfl
  · rw [if_neg closes] at new
    cases new
    simpa [tag, dead] using closes

/-! ## Acknowledgements (R24, R357) -/

/-- An acknowledgement of no outstanding record releases nothing. -/
theorem Fabric.ackReceive_stale {f : Fabric} (cfg : Cfg) {src lseq : Nat} (h : f.unacked (src, lseq) = false) :
    f.ackReceive cfg src lseq = f := if_neg (by simp [h])

/-- A cumulative acknowledgement releases the records that it covers, and what was gated on them proceeds. -/
theorem Fabric.ackReceive_covers {f : Fabric} (cfg : Cfg) {src lseq : Nat} (h : f.unacked (src, lseq) = true) :
    f.ackReceive cfg src lseq = (((lateGo f.twin.late.length { f with twin := { f.twin with
      outstanding := f.twin.outstanding.filter (fun r => ¬ (r.src = src ∧ (lseq + 2 ^ 24 - r.lseq) % 2 ^ 24 < 2 ^ 23)) } }).settle
        cfg).gatesOpen cfg).svcRun cfg := by
  rw [Fabric.ackReceive, if_pos h]
  simp [Fabric.modTwin]

end Sys2Proof.Machine

namespace Sys2Proof
open Machine

/-- Settles O55: what the receipt, the application and the acknowledgement of a record do, case by case of the record
(R24, R28, R285, R357 to R361). -/
theorem logRecordsAreTakenAndApplied : Obligations.LogRecordsAreTakenAndApplied := by
  unfold Obligations.LogRecordsAreTakenAndApplied
  intro s on f w goes
  refine ⟨fun r act due => ?next, fun r act other => ?other, fun r idle => ?inactive, fun src none => ?none,
    fun r rest hb => ?applied, fun src lseq stale => ?stale, fun src lseq hit => ⟨?covered, fun late => ?_⟩⟩
  case next => exact (exec_logRecordReceive on r).trans (by rw [Fabric.logReceive_next s.cfg act due])
  case other =>
    refine ⟨_, exec_logRecordReceive on r, ?_⟩
    rw [Fabric.logReceive_other s.cfg act other]
    exact ⟨rfl, rfl, rfl, List.mem_append_right _ (List.mem_singleton.mpr rfl), rfl⟩
  case inactive => exact (exec_logRecordReceive on r).trans (by rw [Fabric.logReceive_inactive s.cfg idle])
  case none => exact (exec_logRecordApply on src).trans (by rw [Fabric.logApply_none s.cfg none])
  case applied =>
    intro g
    have applied : ∀ h : Fabric, g.applyRec s.cfg r = h → goes (.logRecordApply r.src) (h.settle s.cfg) := by
      intro h e
      exact (exec_logRecordApply on r.src).trans (by rw [Fabric.logApply_head s.cfg hb, ← e])
    refine ⟨fun rg ht hg hx hr => ?_, fun gc k st set way k' ht hx hd hg hrem hs hw here => ?_,
      fun rg d p key ht hg hx hd hr hl hc he hk => ?_, fun x ht hg hx hd => ?_⟩
    · exact ⟨_, applied _ (Fabric.applyRec_mark ht hg hx), Fabric.applyMark_effect (f := g) hr⟩
    · exact applied _ (Fabric.applyRec_write (f := g) ht hx hd hg hrem hs hw here)
    · refine ⟨_, applied _ ((Fabric.applyRec_data ht hg hx hd).trans (Fabric.standby_held (f := g) hr hl hc he hk)), fun x hx => ?_⟩
      have hk := subOf_lt r.la
      exact ⟨x.withStandby (subOf r.la) p, Cache.sector_modSector hx (x.withStandby_valid hk p), rfl, rfl,
        getLsbD_maskPut_same _ hk _, getLsbD_maskPut_same _ hk _, getLsbD_maskPut_same _ hk _⟩
    · exact ⟨(g.applyClose x).twin, applied _ (Fabric.applyRec_close ht hg hx hd), rfl, Tab.find_erase_same _ _,
        fun o ho => Fabric.mem_applyClose_opens (f := g) ho, fun k e => Fabric.opn_of_mem_applyClose_dedup (f := g)⟩
  case stale =>
    obtain ⟨tl, e⟩ := f.ctlTaken_frame 1
    refine (exec_twinAckReceive on src lseq).trans ?_
    rw [Fabric.ackReceive_stale s.cfg (by rw [e]; exact stale)]
  case covered =>
    obtain ⟨tl, e⟩ := f.ctlTaken_frame 1
    refine (exec_twinAckReceive on src lseq).trans ?_
    rw [Fabric.ackReceive_covers s.cfg (by rw [e]; exact hit), e]
  · rw [late]
    rfl

end Sys2Proof
end

section
/-! SUPPORT. Training, recovery and reset of one link: what each command at a link makes of it, and which events and
departures follow (R56, R57, R59 to R61, Table 2.8). -/
namespace Sys2Proof.Machine

/-! ## Commands at a link -/

/-- A command at a link acts where the link has power. -/
theorem State.atLink_on {s : State} {a : Nat} (on : s.linkOn a = true) (g : Fabric → Fabric) :
    s.atLink a g = s.after (g s.fab) := if_pos on

/-- The fabric that a command leaves, by another of its names. -/
theorem exec_after {c : Instr} {s : State} {f g : Fabric} (h : exec c s = .next (s.after f)) (e : f = g) :
    exec c s = .next (s.after g) := e ▸ h

section
variable {s : State} {a : Nat} (on : s.linkOn a = true)
include on

theorem exec_laneDetect (offer : Nat) : exec (.laneDetect a offer) s = .next (s.after (s.fab.laneDetect s.cfg a offer)) :=
  congrArg Host.Outcome.next (State.atLink_on on _)

theorem exec_pollingComplete : exec (.pollingComplete a) s = .next (s.after (s.fab.pollingComplete s.cfg a)) :=
  congrArg Host.Outcome.next (State.atLink_on on _)

theorem exec_pollingTimeout : exec (.pollingTimeout a) s = .next (s.after (s.fab.pollingTimeout s.cfg a)) :=
  congrArg Host.Outcome.next (State.atLink_on on _)

theorem exec_configureTimeout :
    exec (.configureTimeout a) s = .next (s.after (s.fab.trainTimeout s.cfg a .configure)) :=
  congrArg Host.Outcome.next (State.atLink_on on _)

theorem exec_declareTimeout : exec (.declareTimeout a) s = .next (s.after (s.fab.trainTimeout s.cfg a .declare)) :=
  congrArg Host.Outcome.next (State.atLink_on on _)

/-- Only the twin link's recovery concerns the pair (Table 13.3). -/
theorem exec_recoveryComplete (ha : a < 32) :
    exec (.recoveryComplete a) s = .next (s.after (s.fab.recoveryComplete s.cfg a)) := by
  refine congrArg Host.Outcome.next ((State.atLink_on on _).trans ?_)
  simp [Nat.ne_of_lt ha]

theorem exec_recoveryTimeout (faults : BitVec 8) :
    exec (.recoveryTimeout a faults) s = .next (s.after ((s.fab.recoveryTimeout s.cfg a faults).flow s.cfg)) :=
  congrArg Host.Outcome.next (State.atLink_on on _)

theorem exec_linkBuffersEmpty : exec (.linkBuffersEmpty a) s = .next (s.after (s.fab.buffersEmpty s.cfg a)) :=
  congrArg Host.Outcome.next (State.atLink_on on _)

end

/-! ## What a step of one link means for the device (R60, R70) -/

section
variable (cfg : Cfg) (f : Fabric) {a : Nat} (l : Link)

theorem Fabric.linkStep_quiet : f.linkStep cfg a (l, []) = f.setLink a l := rfl

variable (ha : a < 32)
include ha

/-- A port link that enters Active, Recovery, Fenced or Disabled raises source 2n. -/
theorem Fabric.linkStep_state : f.linkStep cfg a (l, [.stateEvent]) = (f.setLink a l).raise (2 * (a / 2)) := by
  simp [Fabric.linkStep, Fabric.linkFx, Nat.ne_of_lt ha]

theorem Fabric.linkStep_active :
    f.linkStep cfg a (l, [.stateEvent, .activated]) = (f.setLink a l).raise (2 * (a / 2)) := by
  simp [Fabric.linkStep, Fabric.linkFx, Nat.ne_of_lt ha]

@[simp] theorem Fabric.link_setLink_same : (f.setLink a l).link a = l := by
  simp [Fabric.link, Fabric.setLink, Nat.ne_of_lt ha, ha]

/-- The agent of a fenced link departs. -/
theorem Fabric.linkStep_fenced : f.linkStep cfg a (l, [.stateEvent, .fenced]) =
    let g := (f.setLink a l).raise (2 * (a / 2))
    if l.decl.isSome = true then g.depart cfg a else g := by
  have admitted : ((f.setLink a l).raise (2 * (a / 2))).admitted a = l.decl.isSome :=
    congrArg (fun x : Link => x.decl.isSome) (f.link_setLink_same l ha)
  simp [Fabric.linkStep, Fabric.linkFx, Nat.ne_of_lt ha, admitted]

end

/-! ## Training of one link (R56, Table 2.9) -/

section
variable {l : Link}

theorem Link.laneDetect_of_detect (h : l.st = .detect) (r w : BitVec 2) :
    l.laneDetect r w = ({ l with rate := r, width := w, st := .polling, pairBad := 0, pairGood := 0 }, []) := by
  simp [Link.laneDetect, h, Link.enter]

theorem Link.pollDone_of_polling (h : l.st = .polling) :
    l.pollDone = ({ l with st := .configure, pairBad := 0, pairGood := 0 }, []) := by
  simp [Link.pollDone, h, Link.enter]

/-- Polling falls back to the next lower rate. -/
theorem Link.pollFail_slower (h : l.st = .polling) (r : l.rate.toNat < 2) : l.pollFail = ({ l with rate := l.rate + 1 }, []) := by
  simp [Link.pollFail, h, r]

/-- A link in first training that has no lower rate starts again in Detect. -/
theorem Link.pollFail_detect (h : l.st = .polling) (r : 2 ≤ l.rate.toNat) (first : l.resume = none) :
    l.pollFail = ({ l with resume := none, decl := none, held := none, rate := 0, st := .detect, pairBad := 0, pairGood := 0 }, []) := by
  simp [Link.pollFail, h, Nat.not_lt.mpr r, first, Link.toDetect, Link.enter]

theorem Link.trainFail_again (h : l.fails < 2) : l.trainFail =
    ({ l with fails := l.fails + 1, resume := none, decl := none, held := none, rate := 0, st := .detect,
              pairBad := 0, pairGood := 0 }, []) := by
  simp [Link.trainFail, h, Link.toDetect, Link.enter]

/-- The third consecutive failure disables the link. -/
theorem Link.trainFail_third (h : 2 ≤ l.fails) : l.trainFail =
    ({ l with fails := 0, decl := none, held := none, resume := none, st := .disabled, pairBad := 0, pairGood := 0 },
      [.stateEvent]) := by
  rw [Link.trainFail, if_neg (by omega)]
  rfl

/-! ## Recovery of one link (R57, R59, R60) -/

/-- A link that left Active is Active again and sends its replay buffer from ACKSEQ + 1 on. -/
theorem Link.recoveryDone_active (k : LinkKind) (h : l.st = .recovery) (r : l.resume = none ∨ l.resume = some .active) :
    l.recoveryDone k = (Link.pump k
      { l with resume := none, st := .active, pairBad := 0, pairGood := 0,
               wire := l.wire ++ l.replay.map (fun p => refreshFlit p.2 (l.rxNext - 1) l.nak) }, [.stateEvent, .activated]) := by
  rcases r with r | r <;> simp [Link.recoveryDone, h, r, Link.resumeTo, Link.enter, Link.resend, Link.ackOut]

theorem Link.recoveryDone_declare (k : LinkKind) (h : l.st = .recovery) (r : l.resume = some .declare) :
    l.recoveryDone k = ({ l with resume := none, st := .declare, pairBad := 0, pairGood := 0 }, []) := by
  simp [Link.recoveryDone, h, r, Link.resumeTo, Link.enter]

/-- What fencing leaves of a link. -/
theorem Link.fence_of_recovery (h : l.st = .recovery) : l.fence =
    ({ l with replay := [], replayOf := none, txq := [], part := none, resume := none, st := .fenced, pairBad := 0, pairGood := 0 },
      [.stateEvent, .fenced]) := by
  simp [Link.fence, h, Link.enter]

/-- Where degrading is not permitted the link is fenced. -/
theorem Link.recoveryFail_forbidden (h : l.st = .recovery) (half : Bool) (faults : BitVec 8) :
    l.recoveryFail false half faults = l.fence := by
  simp [Link.recoveryFail, h]

/-- A faulty half of a split port has no narrower width. -/
theorem Link.recoveryFail_split (h : l.st = .recovery) {faults : BitVec 8} (bad : faults ≠ 0#8) (permit : Bool) :
    l.recoveryFail permit true faults = l.fence := by
  cases permit <;> simp [Link.recoveryFail, h, bad]

/-- A full-width link goes on with its healthy half. -/
theorem Link.recoveryFail_narrower (h : l.st = .recovery) (w : l.width = 0) {faults : BitVec 8}
    (one : ¬ (faults.extractLsb' 0 4 = 0#4 ↔ faults.extractLsb' 4 4 = 0#4)) :
    l.recoveryFail true false faults =
      ({ l with rxCap := devGrant true, width := if faults.extractLsb' 0 4 = 0#4 then 2 else 3, st := .polling,
                pairBad := 0, pairGood := 0 }, []) := by
  by_cases low : faults.extractLsb' 0 4 = 0#4
  · have high : faults.extractLsb' 4 4 ≠ 0#4 := fun high => one (iff_of_true low high)
    simp [Link.recoveryFail, h, w, low, high, Link.halveCredits, Link.enter]
  · have high : faults.extractLsb' 4 4 = 0#4 := by_contra fun high => one (iff_of_false low high)
    simp [Link.recoveryFail, h, w, low, high, Link.halveCredits, Link.enter]

/-- Where no narrower width helps, the rate is lowered, or the link is fenced. -/
theorem Link.recoveryFail_rate (h : l.st = .recovery) {half : Bool} {faults : BitVec 8}
    (width : if half = true then faults = 0#8 else l.width = 0 → (faults.extractLsb' 0 4 = 0#4 ↔ faults.extractLsb' 4 4 = 0#4)) :
    l.recoveryFail true half faults =
      if l.rate.toNat < 2 then ({ l with rate := l.rate + 1, st := .polling, pairBad := 0, pairGood := 0 }, []) else l.fence := by
  cases half with
  | true =>
    rw [if_pos rfl] at width
    simp [Link.recoveryFail, h, width, Link.enter]
  | false =>
    rw [if_neg (by simp)] at width
    by_cases w : l.width = 0#2
    · have same := width w
      by_cases low : faults.extractLsb' 0 4 = 0#4
      · simp [Link.recoveryFail, h, low, same.mp low, Link.enter]
      · simp [Link.recoveryFail, h, low, mt same.mpr low, Link.enter]
    · simp [Link.recoveryFail, h, w, Link.enter]

/-- A link at the lowest rate without a narrower width is fenced. -/
theorem Link.recoveryFail_lowest (h : l.st = .recovery) (r : 2 ≤ l.rate.toNat) (permit half : Bool) {faults : BitVec 8}
    (width : half = true ∨ l.width ≠ 0 ∨ (faults.extractLsb' 0 4 = 0#4 ↔ faults.extractLsb' 4 4 = 0#4)) :
    l.recoveryFail permit half faults = l.fence := by
  cases permit with
  | false => exact Link.recoveryFail_forbidden h half faults
  | true =>
    by_cases bad : half = true ∧ faults ≠ 0#8
    · rw [bad.1, Link.recoveryFail_split h bad.2]
    · have width' : if half = true then faults = 0#8 else
          l.width = 0 → (faults.extractLsb' 0 4 = 0#4 ↔ faults.extractLsb' 4 4 = 0#4) := by
        cases half with
        | true => simpa using bad
        | false => exact fun w => (width.resolve_left nofun).resolve_left (not_not.mpr w)
      rw [Link.recoveryFail_rate h width', if_neg (Nat.not_lt.mpr r)]

end

/-! ## The links of the device -/

section
variable {f : Fabric} {cfg : Cfg} {a : Nat}

/-- An admitted agent departs when its link fails in training (R56, R145). -/
def Fabric.agentGone (cfg : Cfg) (f : Fabric) (a : Nat) : Fabric := if a ≠ 32 ∧ f.admitted a = true then f.depart cfg a else f

/-- A link that exceeds its limit in Configure or Declare fails after its agent's departure. -/
theorem Fabric.trainTimeout_due {st : LinkState} (h : (f.link a).st = st) (free : st = .declare → (f.link a).held = none) :
    f.trainTimeout cfg a st = (f.agentGone cfg a).linkStep cfg a ((f.agentGone cfg a).link a).trainFail := by
  have due : ¬ ((f.link a).st ≠ st || (st = .declare && (f.link a).held.isSome)) = true := by
    by_cases d : st = .declare <;> simp [h, d, free]
  rw [Fabric.trainTimeout, if_neg due]
  simp [Fabric.agentGone]

/-- Lane faults of a link as lanes of its port: those of half 1 are the lanes 4 to 7 (Table 2.14). -/
def physFaults (half : Bool) (a : Nat) (faults : BitVec 8) : BitVec 8 :=
  if half = true ∧ a % 2 = 1 then (faults &&& 0x0F) <<< 4 else if half = true then faults &&& 0x0F else faults

/-- The lanes found faulty are marked. -/
def Fabric.markLanes (cfg : Cfg) (f : Fabric) (a : Nat) (faults : BitVec 8) : Fabric :=
  { f with laneFault := vmod f.laneFault (a / 2) (fun x => x ||| physFaults (cfg.isHalf a) a faults) }

theorem Fabric.recoveryTimeout_port (ha : a < 32) (h : (f.link a).st = .recovery) (faults : BitVec 8) :
    f.recoveryTimeout cfg a faults = (f.markLanes cfg a faults).linkStep cfg a
      ((f.link a).recoveryFail (cfg.allowDegrade (a / 2)) (cfg.isHalf a) faults) := by
  rw [Fabric.recoveryTimeout, if_neg (by simp [h]), if_neg (Nat.ne_of_lt ha)]
  simp [Fabric.markLanes, physFaults]

/-- A reset link whose buffers are empty trains again, or stays out of use where its half is not enabled (R61). -/
theorem Fabric.buffersEmpty_reset (reset : (f.link a).stopSeq = true) (st : (f.link a).st = .fenced ∨ (f.link a).st = .disabled)
    (items : (f.ordOf a).items = []) (short : (f.ordOf a).short = []) :
    f.buffersEmpty cfg a = if cfg.halfUsed a then f.setLink a (Link.init .detect)
      else if (f.link a).st = .fenced then (f.setLink a (Link.init .disabled)).raise (2 * (a / 2))
      else f.setLink a (Link.init .disabled) := by
  have due : ¬ ¬ ((f.link a).stopSeq && ((f.link a).st = .fenced || (f.link a).st = .disabled) && (f.ordOf a).items = [] &&
      (f.ordOf a).short = []) = true := by simpa [reset, items, short] using or_iff_not_imp_left.mp st
  rw [Fabric.buffersEmpty, if_neg due]

theorem Fabric.buffersEmpty_other
    (h : (f.link a).stopSeq = false ∨ ((f.link a).st ≠ .fenced ∧ (f.link a).st ≠ .disabled)) : f.buffersEmpty cfg a = f := by
  rw [Fabric.buffersEmpty, if_pos]
  rcases h with h | ⟨h, k⟩
  · simp [h]
  · simp [h, k]

end

end Sys2Proof.Machine

namespace Sys2Proof
open Machine

/-- Settles O42: each command at a link is one step of the link, with the event and the departure that follow from the
state it enters (R56, R57, R59 to R61). -/
theorem linksTrainAndRecover : Obligations.LinksTrainAndRecover := by
  unfold Obligations.LinksTrainAndRecover
  intro s a on l fresh gives event gone m down off half phys marked low high
  have configFails : ∀ h : l.st = .configure, s.fab.trainTimeout s.cfg a .configure = gone.linkStep s.cfg a m.trainFail :=
    fun h => Fabric.trainTimeout_due h nofun
  have declareFails : ∀ h : l.st = .declare, l.held = none → s.fab.trainTimeout s.cfg a .declare = gone.linkStep s.cfg a m.trainFail :=
    fun h free => Fabric.trainTimeout_due h fun _ => free
  have recovery : ∀ {faults : BitVec 8} {g : Fabric}, a < 32 → l.st = .recovery →
      (marked faults).linkStep s.cfg a (l.recoveryFail (s.cfg.allowDegrade (a / 2)) half faults) = g →
      exec (.recoveryTimeout a faults) s = .next (s.after (g.flow s.cfg)) :=
    fun ha h e => exec_after (exec_recoveryTimeout on _) (congrArg (Fabric.flow s.cfg) ((Fabric.recoveryTimeout_port ha h _).trans e))
  clear_value m gone
  refine ⟨fun offer h => ?detect, fun h => ?polled, fun h r => ?slower, fun h r first => ?afresh, fun h n => ?configureAgain,
    fun ha h n => ?configureThird, fun h free n => ?declareAgain, fun ha h free n => ?declareThird,
    fun ha h r => ?active, fun ha h r => ?declare, fun faults ha h permit r w => ?slowerAgain,
    fun faults ha h permit whole w one => ?narrower, fun faults ha h why => ?fenced,
    fun ha reset st items short => ?emptied, fun h => ?idle⟩
  case detect =>
    refine exec_after (exec_laneDetect on offer) ?_
    rw [Fabric.laneDetect, Link.laneDetect_of_detect h]
    simp [Fabric.linkStep_quiet, fresh]
  case polled =>
    exact exec_after (exec_pollingComplete on) (by rw [Fabric.pollingComplete, Link.pollDone_of_polling h, Fabric.linkStep_quiet])
  case slower => exact exec_after (exec_pollingTimeout on) (by rw [Fabric.pollingTimeout, Link.pollFail_slower h r, Fabric.linkStep_quiet])
  case afresh => exact exec_after (exec_pollingTimeout on) (by rw [Fabric.pollingTimeout, Link.pollFail_detect h r first, Fabric.linkStep_quiet])
  case configureAgain => exact exec_after (exec_configureTimeout on) (by rw [configFails h, Link.trainFail_again n, Fabric.linkStep_quiet])
  case configureThird =>
    exact exec_after (exec_configureTimeout on) (by rw [configFails h, Link.trainFail_third n, Fabric.linkStep_state _ _ _ ha])
  case declareAgain => exact exec_after (exec_declareTimeout on) (by rw [declareFails h free, Link.trainFail_again n, Fabric.linkStep_quiet])
  case declareThird =>
    exact exec_after (exec_declareTimeout on) (by rw [declareFails h free, Link.trainFail_third n, Fabric.linkStep_state _ _ _ ha])
  case active =>
    refine exec_after (exec_recoveryComplete on ha) ?_
    rw [Fabric.recoveryComplete, Link.recoveryDone_active _ h r, Fabric.linkStep_active _ _ _ ha, kindOf, if_neg (Nat.ne_of_lt ha)]
  case declare =>
    exact exec_after (exec_recoveryComplete on ha) (by rw [Fabric.recoveryComplete, Link.recoveryDone_declare _ h r, Fabric.linkStep_quiet])
  case slowerAgain =>
    exact recovery ha h (by rw [permit, Link.recoveryFail_rate h w, if_pos r, Fabric.linkStep_quiet])
  case narrower => exact recovery ha h (by rw [permit, whole, Link.recoveryFail_narrower h w one, Fabric.linkStep_quiet])
  case fenced =>
    intro g
    have fences : l.recoveryFail (s.cfg.allowDegrade (a / 2)) half faults = l.fence := by
      rcases why with forbid | ⟨split, bad⟩ | ⟨slow, width⟩
      · rw [forbid, Link.recoveryFail_forbidden h]
      · rw [split, Link.recoveryFail_split h bad]
      · exact Link.recoveryFail_lowest h slow _ half width
    exact recovery ha h (by rw [fences, Link.fence_of_recovery h, Fabric.linkStep_fenced _ _ _ ha])
  case emptied =>
    have e := Fabric.buffersEmpty_reset (cfg := s.cfg) reset st items short
    refine ⟨fun used => ?_, fun unused dis => ?_, fun unused fen => ?_⟩
    · exact exec_after (exec_linkBuffersEmpty on) (by rw [e, if_pos used])
    · exact exec_after (exec_linkBuffersEmpty on) (by rw [e, if_neg (by simp [unused]), if_neg (by simp [show (s.fab.link a).st = _ from dis])])
    · exact exec_after (exec_linkBuffersEmpty on) (by rw [e, if_neg (by simp [unused]), if_pos fen])
  case idle => exact exec_after (exec_linkBuffersEmpty on) (Fabric.buffersEmpty_other h)

end Sys2Proof
end

section
/-! SUPPORT. Codeword pairs and flits that a link receives, the replay timer, declarations, and what a link has on its
lanes (R34 to R36, R51 to R54, R63 to R67). -/
namespace Sys2Proof.Machine

/-! ## Commands at a link -/

section
variable {s : State} {a : Nat} (on : s.linkOn a = true)
include on

theorem exec_codewordPairReceived (errA errB : Nat) (hdr : BitVec 40) (flits : List Flit) :
    exec (.codewordPairReceived a errA errB hdr flits) s = .next (s.after (s.fab.codewordPair s.cfg a errA errB hdr flits)) :=
  congrArg Host.Outcome.next (State.atLink_on on _)

theorem exec_replayTimeout : exec (.replayTimeout a) s = .next (s.after (s.fab.replayTimeout s.cfg a)) :=
  congrArg Host.Outcome.next (State.atLink_on on _)

/-- A declaration that comes alone (R66). -/
theorem exec_agentDeclaration (d : Line) :
    exec (.agentDeclaration a d none) s = .next (s.after (s.fab.declaration s.cfg a d)) :=
  congrArg Host.Outcome.next (State.atLink_on on _)

end

/-- A lasting error of a port link raises its two sources (R54, R70). -/
theorem Fabric.linkStep_error (cfg : Cfg) (f : Fabric) {a : Nat} (ha : a < 32) (l : Link) :
    f.linkStep cfg a (l, [.errEvent, .stateEvent]) = ((f.setLink a l).raise (2 * (a / 2) + 1)).raise (2 * (a / 2)) := by
  simp [Fabric.linkStep, Fabric.linkFx, Nat.ne_of_lt ha]

/-- A pair of five flits at a port is a step of its link, with some grants. -/
theorem Fabric.codewordPair_port {f : Fabric} {cfg : Cfg} {a errA errB : Nat} {hdr : BitVec 40} {flits : List Flit} (ha : a < 32)
    (five : flits.length = 5) : ∃ cap grant, f.codewordPair cfg a errA errB hdr flits =
      f.linkStep cfg a ((f.link a).takePair portKind cap grant errA errB hdr flits) := by
  refine ⟨(f.grants a).1, (f.grants a).2, ?_⟩
  simp [Fabric.codewordPair, five, Nat.ne_of_lt ha, kindOf]

/-! ## One pair in Active (R36, R52, R54) -/

section
variable {l : Link} (cap grant : Vector Nat 8)

/-- The errors of an uncorrectable pair are counted. -/
def Link.countUncorr (l : Link) (bad : Bool) : Link :=
  if bad then { l with err := { l.err with fecUncorr := bvSat l.err.fecUncorr 1 } } else l

theorem Link.takePair_eq (k : LinkKind) (errA errB : Nat) (hdr : BitVec 40) (flits : List Flit) :
    l.takePair k cap grant errA errB hdr flits =
      if ¬ l.receives then (l, [])
      else
        let bad := decide (15 < errA) || decide (15 < errB)
        let h := if (l.countUncorr bad).st = .fenced then (l.countUncorr bad, []) else Link.takeHeader k (l.countUncorr bad) bad hdr
        let m := Link.takeFlits k cap grant bad flits h.1
        (if m.1.st = .active then (Link.pump k m.1).sendNull else m.1, h.2 ++ m.2) := rfl

/-- A pair that leaves the link in Active: its header, its flits, then what may be sent and a NULL flit. -/
theorem Link.takePair_active {errA errB : Nat} {hdr : BitVec 40} {flits : List Flit} {bad : Bool} {h m : Link} (act : l.st = .active)
    (hbad : (decide (15 < errA) || decide (15 < errB)) = bad) (head : Link.takeHeader portKind (l.countUncorr bad) bad hdr = (h, []))
    (taken : Link.takeFlits portKind cap grant bad flits h = (m, [])) (stays : m.st = .active) :
    l.takePair portKind cap grant errA errB hdr flits = ((Link.pump portKind m).sendNull, []) := by
  have notFenced : (l.countUncorr bad).st ≠ .fenced := by cases bad <;> exact fun e => nomatch act.symm.trans e
  rw [Link.takePair_eq, if_neg (by simp [Link.receives, act]), hbad]
  simp only [if_neg notFenced, head, taken, if_pos stays, List.append_nil]

/-- Of the header of a bad pair only its place in the sequence is taken. -/
theorem Link.takeHeader_bad (k : LinkKind) (act : l.st = .active) (hdr : BitVec 40) :
    Link.takeHeader k l true hdr = ({ l with pairExp := l.pairExp + 1 }, []) := by
  rw [Link.takeHeader, if_neg (by simp [act])]
  rfl

theorem Link.takeHeader_expected (k : LinkKind) (act : l.st = .active) {hdr : BitVec 40} (marker : hdr.extractLsb' 0 16 = 0x5AC3#16)
    (count : hdr.extractLsb' 16 8 = l.pairExp) :
    Link.takeHeader k l false hdr = ({ l with pairExp := l.pairExp + 1, pairBad := 0 }, []) := by
  simp only [Link.takeHeader, marker, count]
  rw [if_neg (by simp [act]), if_neg (by simp), if_pos (by simp)]

/-- An uncorrectable pair counts; its flits are bad. -/
theorem Link.takePair_bad {errA errB : Nat} {hdr : BitVec 40} {flits : List Flit} {m : Link} (act : l.st = .active)
    (bad : 15 < errA ∨ 15 < errB) (taken : Link.takeFlits portKind cap grant true flits
      { l with pairExp := l.pairExp + 1, err := { l.err with fecUncorr := bvSat l.err.fecUncorr 1 } } = (m, []))
    (stays : m.st = .active) :
    l.takePair portKind cap grant errA errB hdr flits = ((Link.pump portKind m).sendNull, []) :=
  Link.takePair_active cap grant (bad := true) act (by simpa using bad)
    (Link.takeHeader_bad (l := l.countUncorr true) portKind act hdr) taken stays

/-- A pair that is correct once the codewords are corrected, under the header expected. -/
theorem Link.takePair_good {errA errB : Nat} {hdr : BitVec 40} {flits : List Flit} {m : Link} (act : l.st = .active) (a15 : errA ≤ 15)
    (b15 : errB ≤ 15) (head : hdr.extractLsb' 0 16 = 0x5AC3#16 ∧ hdr.extractLsb' 16 8 = l.pairExp)
    (taken : Link.takeFlits portKind cap grant false flits { l with pairExp := l.pairExp + 1, pairBad := 0 } = (m, []))
    (stays : m.st = .active) :
    l.takePair portKind cap grant errA errB hdr flits = ((Link.pump portKind m).sendNull, []) :=
  Link.takePair_active cap grant (bad := false) act (by simpa using ⟨a15, b15⟩)
    (Link.takeHeader_expected (l := l.countUncorr false) portKind act head.1 head.2) taken stays

/-! ### Flits of a bad pair -/

/-- A flit of a bad pair that is not the awaited one sets NAK. -/
theorem Link.takeBad_other {f : Flit} (act : l.st = .active) (run : l.stopSeq = false) (other : flType f ≠ 1 ∨ flSeq f ≠ l.rxNext) :
    l.takeBad f = ({ l with nak := true, resets := 0 }, []) := by
  have unawaited : ¬ (l.nak && flType f = 1 && flSeq f = l.rxNext) = true := by
    rcases other with h | h <;> simp [h]
  rw [Link.takeBad, if_neg (by simp [act, run]), if_neg unawaited]

theorem Link.takeFlits_bad (k : LinkKind) {flits : List Flit} (act : l.st = .active) (run : l.stopSeq = false)
    (other : ∀ f ∈ flits, flType f ≠ 1 ∨ flSeq f ≠ l.rxNext) (some_ : flits ≠ []) :
    Link.takeFlits k cap grant true flits l = ({ l with nak := true, resets := 0 }, []) := by
  have first : ∀ f ∈ flits, Link.takeFlit k cap grant true f l = ({ l with nak := true, resets := 0 }, []) :=
    fun f hf => Link.takeBad_other act run (other f hf)
  have again : ∀ {fs : List Flit}, (∀ f ∈ fs, f ∈ flits) →
      Link.takeFlits k cap grant true fs { l with nak := true, resets := 0 } = ({ l with nak := true, resets := 0 }, []) := by
    intro fs sub
    induction fs with
    | nil => rfl
    | cons f fs ih =>
      have step : Link.takeFlit k cap grant true f { l with nak := true, resets := 0 } = ({ l with nak := true, resets := 0 }, []) :=
        Link.takeBad_other act run (other f (sub f List.mem_cons_self))
      rw [Link.takeFlits, step]
      exact ih fun g hg => sub g (List.mem_cons_of_mem f hg)
  match flits, some_ with
  | f :: fs, _ =>
    rw [Link.takeFlits, first f List.mem_cons_self]
    exact again fun g hg => List.mem_cons_of_mem f hg

/-! ### Flits of a good pair -/

/-- A repeated ACKSEQ without a NAK changes nothing (R51). -/
theorem Link.takeAck_same : l.takeAck l.ackIn false = (l, []) := by
  cases h : l.replayOf <;> simp [Link.takeAck, h] <;> rw [← h]

/-- A NULL flit that acknowledges nothing new ends a run of RESET flits, as every flit that is no RESET does (R41, R61). -/
theorem Link.takeFlit_null (k : LinkKind) {n : Flit} (act : l.st = .active) (good : flitGood n = true) (type : flType n = 0)
    (clean : nullClean n = true) (ack : flAck n = l.ackIn) (nak : flNak n = false) :
    Link.takeFlit k cap grant false n l = ({ l with resets := 0 }, []) := by
  have takes : ({ l with resets := 0 } : Link).takesNull = true := by simp [Link.takesNull, act]
  rw [Link.takeFlit, if_neg (by simp [good]), if_neg (by simp [type])]
  dsimp only
  rw [if_pos type, if_pos (by rw [clean, takes]; rfl), ack, nak]
  exact Link.takeAck_same (l := { l with resets := 0 })

theorem Link.takeFlits_nulls (k : LinkKind) {ns : List Flit} (act : l.st = .active) (fresh : l.resets = 0)
    (idle : ∀ n ∈ ns, flitGood n = true ∧ flType n = 0 ∧ nullClean n = true ∧ flAck n = l.ackIn ∧ flNak n = false) :
    Link.takeFlits k cap grant false ns l = (l, []) := by
  have same : ({ l with resets := 0 } : Link) = l := by cases l; cases fresh; rfl
  induction ns with
  | nil => rfl
  | cons n ns ih =>
    obtain ⟨good, type, clean, ack, nak⟩ := idle n List.mem_cons_self
    rw [Link.takeFlits, Link.takeFlit_null cap grant k act good type clean ack nak, same]
    dsimp only
    rw [if_neg (by simp), ih fun x hx => idle x (List.mem_cons_of_mem n hx)]
    rfl

/-- A good SEQ flit of an Active link. -/
theorem Link.takeFlit_seq (k : LinkKind) {f : Flit} (act : l.st = .active) (good : flitGood f = true) (type : flType f = 1) :
    Link.takeFlit k cap grant false f l = ({ l with resets := 0 } : Link).takeSeq k f := by
  rw [Link.takeFlit, if_neg (by simp [good]), if_neg (by simp [type])]
  dsimp only
  rw [if_neg (by simp [type]), if_pos type, if_neg (by simp [act]), if_pos act]

/-- A SEQ flit and NULL flits that acknowledge nothing new. -/
theorem Link.takeFlits_seq (k : LinkKind) {f : Flit} {ns : List Flit} {m : Link} (act : l.st = .active) (good : flitGood f = true)
    (type : flType f = 1) (seq : ({ l with resets := 0 } : Link).takeSeq k f = (m, [])) (stays : m.st = .active) (fresh : m.resets = 0)
    (idle : ∀ n ∈ ns, flitGood n = true ∧ flType n = 0 ∧ nullClean n = true ∧ flAck n = m.ackIn ∧ flNak n = false) :
    Link.takeFlits k cap grant false (f :: ns) l = (m, []) := by
  rw [Link.takeFlits, Link.takeFlit_seq cap grant k act good type, seq]
  dsimp only
  rw [if_neg (by simp), Link.takeFlits_nulls cap grant k stays fresh idle]
  rfl

/-- A flit ahead of its place asks for the ones that are lacking (R52). -/
theorem Link.takeSeq_ahead (k : LinkKind) {f : Flit} (run : l.stopSeq = false) (pos : 0 < (flSeq f - l.rxNext).toNat)
    (ahead : (flSeq f - l.rxNext).toNat < 2048) : l.takeSeq k f = ({ l with nak := true }, []) := by
  have other : flSeq f ≠ l.rxNext := fun e => by simp [e] at pos
  rw [Link.takeSeq, if_neg (by simp [run]), if_neg other]
  dsimp only
  rw [decide_eq_true ahead, Bool.or_true]

/-- Where no slot of a flit begins a message and none is under way, its slots are not looked at. -/
theorem Link.takeSlots_none (twin : Bool) {f : Flit} (none : l.part = none) (starts : ∀ i, i < 15 → flStart f i = false) :
    ∀ n ≤ 15, Link.takeSlots twin f n l = (l, [])
  | 0, _ => rfl
  | n + 1, hn => by
    have slot : l.takeSlot twin (flStart f (14 - n)) (flSlot f (14 - n)) = (l, []) := by
      simp [Link.takeSlot, none, starts (14 - n) (by omega)]
    unfold Link.takeSlots
    simp only [slot, Link.takeSlots_none twin none starts n (by omega)]
    split <;> rfl

/-- Only the classes 1 to 6 have credits (R9, R46). -/
theorem Link.takeCredit_none {c : Nat} (h : c = 0 ∨ c = 7) (n : Nat) : l.takeCredit c n = (l, []) := by
  rw [Link.takeCredit, if_pos (by rcases h with rfl | rfl <;> simp)]

/-- The errors of a link once the flit it awaits has come: where that was not judged before, one more was transient (R54). -/
def Link.awaitedErr (l : Link) : LinkErr :=
  if l.nak = true ∧ l.rxJudged = false then { l.err with transient := bvSat l.err.transient 1 } else l.err

/-- The arrival of the awaited flit, where it brings the count to no multiple of 1,024. -/
theorem Link.countAwaited (quiet : l.nak = true → l.rxJudged = false → (bvSat l.err.transient 1).toNat % 1024 ≠ 0) :
    (if l.nak && ¬ l.rxJudged then ({ l with nak := false } : Link).countTransient else (l, [])) =
      ({ l with nak := l.nak && l.rxJudged, err := l.awaitedErr }, []) := by
  by_cases lost : l.nak = true ∧ l.rxJudged = false
  · rw [if_pos (by simp [lost]), Link.awaitedErr, if_pos lost, Link.countTransient, lost.1, lost.2]
    simp [quiet lost.1 lost.2]
  · have nak : (l.nak && l.rxJudged) = l.nak := by cases hn : l.nak <;> simp_all
    rw [if_neg (by simpa using lost), Link.awaitedErr, if_neg lost, nak]

/-- A flit in its place, which neither acknowledges, nor returns credits, nor begins a message, is taken (R52). -/
theorem Link.takeSeq_due (k : LinkKind) {f : Flit} (act : l.st = .active) (run : l.stopSeq = false) (due : flSeq f = l.rxNext)
    (ack : flAck f = l.ackIn) (nak : flNak f = false) (credits : ∀ c ∈ flCredits f, c.1 = 0 ∨ c.1 = 7)
    (starts : ∀ i, i < 15 → flStart f i = false) (whole : l.part = none)
    (quiet : l.nak = true → l.rxJudged = false → (bvSat l.err.transient 1).toNat % 1024 ≠ 0) :
    l.takeSeq k f = ({ l with rxNext := l.rxNext + 1, nak := false, rxJudged := false, afterRec := false, crOver := false,
                              err := l.awaitedErr }, []) := by
  obtain ⟨c0, c1⟩ : (bitsOf f.toNat 44 3 = 0 ∨ bitsOf f.toNat 44 3 = 7) ∧ (bitsOf f.toNat 54 3 = 0 ∨ bitsOf f.toNat 54 3 = 7) := by
    simpa [flCredits] using credits
  rw [Link.takeSeq, if_neg (by simp [run]), if_pos due, Link.countAwaited quiet, ack, nak]
  dsimp only [flCredits]
  rw [Link.takeAck_same]
  dsimp only
  rw [Link.takeCredit_none c0]
  dsimp only
  rw [Link.takeCredit_none c1]
  dsimp only
  rw [if_pos act, Link.takeSlots_none _ ?_ starts 15 (Nat.le_refl _)]
  · rfl
  · exact whole

/-! ## The replay timer (R53, R54) -/

theorem Link.replayTimeout_first (act : l.st = .active) (some_ : l.replay ≠ []) (new : l.replayOf ≠ some (l.ackIn + 1)) :
    l.replayTimeout = ({ l with wire := l.wire ++ l.replay.map (fun p => refreshFlit p.2 (l.rxNext - 1) l.nak),
                                replayOf := some (l.ackIn + 1) }, []) := by
  rw [Link.replayTimeout, if_neg (by simp [act, some_]), if_neg new]
  rfl

/-- The second expiry for one flit is a lasting error, with which the link enters Recovery. -/
theorem Link.replayTimeout_second (act : l.st = .active) (some_ : l.replay ≠ []) (again : l.replayOf = some (l.ackIn + 1)) :
    l.replayTimeout = ({ l with txJudged := some (l.ackIn + 1), err := { l.err with lasting := bvSat l.err.lasting 1 },
                                resume := some (l.resume.getD .active), afterRec := l.crOver, st := .recovery,
                                pairBad := 0, pairGood := 0 }, [.errEvent, .stateEvent]) := by
  rw [Link.replayTimeout, if_neg (by simp [act, some_]), if_pos again, again, ← act]
  rfl

theorem Link.replayTimeout_idle (h : l.st ≠ .active ∨ l.replay = []) : l.replayTimeout = (l, []) := by
  rw [Link.replayTimeout, if_pos (by simpa using h)]

end

/-! ## The replay timer of a link of the device -/

theorem vset_vget {α : Type} {n : Nat} (v : Vector α n) (d : α) (i : Nat) : vset v i (vget v d i) = v := by
  refine Vector.ext fun j hj => ?_
  by_cases h : i = j
  · subst h
    simp [vset, vget, hj]
  · exact Vector.getElem_setIfInBounds_ne hj h

theorem Fabric.setLink_link (f : Fabric) (a : Nat) : f.setLink a (f.link a) = f := by
  by_cases h : a = 32
  · simp [Fabric.setLink, Fabric.link, h]
  · simp [Fabric.setLink, Fabric.link, h, vset_vget]

theorem Fabric.replayTimeout_idle {f : Fabric} {a : Nat} (cfg : Cfg) (h : (f.link a).st ≠ .active ∨ (f.link a).replay = []) :
    f.replayTimeout cfg a = f := by
  rw [Fabric.replayTimeout, Link.replayTimeout_idle h, Fabric.linkStep_quiet, Fabric.setLink_link]

/-! ## Declarations (R63 to R67) -/

section
variable {f : Fabric} {cfg : Cfg} {a : Nat} {d : Line}

/-- What of a declaration is checked has a status below 7 (Table 2.12). -/
theorem declStatus_lt (d : Line) (trackers slots : Nat) (portEn : Bool) : declStatus d trackers slots portEn < 7 := by
  unfold declStatus
  dsimp only
  repeat' split
  all_goals decide

theorem Fabric.declCheck_lt (f : Fabric) (cfg : Cfg) (a : Nat) (d : Line) : f.declCheck cfg a d < 7 := by
  unfold Fabric.declCheck
  dsimp only
  split
  · decide
  · exact declStatus_lt ..

/-- The caching slot of an accepted declaration: the lowest free one for a caching agent (R66). -/
def Fabric.slotFor (cfg : Cfg) (f : Fabric) (a : Nat) (d : Line) : Option Nat :=
  if f.declCheck cfg a d = 0 && dclCaching d then f.gran.freeSlot else none

theorem Fabric.slotFor_accepted (good : f.declCheck cfg a d = 0) :
    f.slotFor cfg a d = if dclCaching d = true then f.gran.freeSlot else none := by
  simp [Fabric.slotFor, good]

/-- Agent `a` holds a slot, where it has one. -/
def Granary.give (g : Granary) (slot : Option Nat) (a : Nat) : Granary :=
  match slot with
  | some k => { g with slots := vset g.slots k ⟨some a, none⟩ }
  | none => g

/-- The reply to a declaration (R65). -/
def Fabric.replyTo (cfg : Cfg) (f : Fabric) (a : Nat) (d : Line) : Line :=
  declReply (f.declCheck cfg a d) a ((f.slotFor cfg a d).getD 0xFF) (cfg.trackers a) (devGrant ((f.link a).width ≠ 0)) f.epoch f.roleOut
    ((f.link a).rate.toNat + 4 * (f.link a).width.toNat) f.uid.toNat

/-- The lowest free slot is one of the sixteen. -/
theorem Granary.freeSlot_lt {g : Granary} {k : Nat} (h : g.freeSlot = some k) : k < 16 :=
  List.mem_range.mp (List.mem_of_find?_eq_some h)

theorem Granary.slotOf_give (g : Granary) {k : Nat} (hk : k < 16) (a : Nat) : (g.give (some k) a).slotOf a ≠ none := by
  intro none
  have := List.find?_eq_none.mp none k (List.mem_range.mpr hk)
  simp [Granary.give, hk] at this

/-! ### The fields of a word that is packed from fields -/

/-- The bits of a packed number are those of its fields. -/
theorem testBit_packNat (fs : List (Nat × Nat × Nat)) (j : Nat) :
    (packNat fs).testBit j = true ↔ ∃ p ∈ fs, p.1 ≤ j ∧ j - p.1 < p.2.1 ∧ p.2.2.testBit (j - p.1) = true := by
  induction fs with
  | nil => simp [packNat]
  | cons p fs ih =>
    obtain ⟨off, w, v⟩ := p
    simp [packNat, Nat.testBit_or, Nat.testBit_shiftLeft, Nat.testBit_mod_two_pow, ih]

theorem testBit_bitsOf (x off w i : Nat) : (bitsOf x off w).testBit i = (decide (i < w) && x.testBit (off + i)) := by
  simp [bitsOf, Nat.testBit_mod_two_pow, Nat.testBit_shiftRight]

/-- Two fields share no bit. -/
def apart (p q : Nat × Nat × Nat) : Prop := p.1 + p.2.1 ≤ q.1 ∨ q.1 + q.2.1 ≤ p.1

/-- A field of a packed number, which shares no bit with another one. -/
theorem bitsOf_packNat {fs : List (Nat × Nat × Nat)} {off w v : Nat} (mem : (off, w, v) ∈ fs)
    (others : ∀ p ∈ fs, p = (off, w, v) ∨ apart p (off, w, v)) : bitsOf (packNat fs) off w = v % 2 ^ w := by
  refine Nat.eq_of_testBit_eq fun i => ?_
  rw [testBit_bitsOf, Nat.testBit_mod_two_pow]
  by_cases hi : i < w
  · have bit : (packNat fs).testBit (off + i) = true ↔ v.testBit i = true := by
      rw [testBit_packNat]
      constructor
      · rintro ⟨p, hp, below, inside, set⟩
        rcases others p hp with rfl | away
        · simpa using set
        · simp only [apart] at away
          omega
      · exact fun set => ⟨_, mem, by simp, by simpa using hi, by simpa using set⟩
    rw [Bool.eq_iff_iff.mpr bit]
  · simp [hi]

/-- The bits of a packed number that lie in none of its fields are 0. -/
theorem bitsOf_packNat_gap {fs : List (Nat × Nat × Nat)} {off w : Nat} (others : ∀ p ∈ fs, apart p (off, w, 0)) :
    bitsOf (packNat fs) off w = 0 := by
  have := bitsOf_packNat (fs := (off, w, 0) :: fs) List.mem_cons_self
    (by simpa using fun a b c h => Or.inr (others (a, b, c) h))
  simpa [packNat] using this

theorem bitsOf_pack {n : Nat} (fs : List (Nat × Nat × Nat)) {off w : Nat} (h : off + w ≤ n) :
    bitsOf (pack n fs).toNat off w = bitsOf (packNat fs) off w := by
  refine Nat.eq_of_testBit_eq fun i => ?_
  rw [testBit_bitsOf, testBit_bitsOf, pack, BitVec.toNat_ofNat, Nat.testBit_mod_two_pow]
  by_cases hi : i < w
  · simp [show off + i < n by omega]
  · simp [hi]

/-! ### The fields of a reply (Table 2.12) -/

section
variable {st agent slot trackers : Nat} {cr : Vector Nat 8} {epoch role link uid : Nat}

theorem declReply_version : dclField (declReply st agent slot trackers cr epoch role link uid) 0 1 = 1 := by
  rw [dclField, declReply, bitsOf_pack _ (by decide)]
  exact bitsOf_packNat (v := 1) (by simp) (by simp [apart])

theorem declReply_status : dclField (declReply st agent slot trackers cr epoch role link uid) 1 1 = st % 2 ^ 8 := by
  rw [dclField, declReply, bitsOf_pack _ (by decide)]
  exact bitsOf_packNat (by simp) (by simp [apart])

theorem declReply_agent : dclField (declReply st agent slot trackers cr epoch role link uid) 2 1 = agent % 2 ^ 8 := by
  rw [dclField, declReply, bitsOf_pack _ (by decide)]
  exact bitsOf_packNat (by simp) (by simp [apart])

theorem declReply_epoch : dclField (declReply st agent slot trackers cr epoch role link uid) 16 4 = epoch % 2 ^ 32 := by
  rw [dclField, declReply, bitsOf_pack _ (by decide)]
  exact bitsOf_packNat (by simp) (by simp [apart])

end

theorem Fabric.replyTo_status (f : Fabric) (cfg : Cfg) (a : Nat) (d : Line) :
    dclField (f.replyTo cfg a d) 1 1 = f.declCheck cfg a d :=
  declReply_status.trans (Nat.mod_eq_of_lt ((f.declCheck_lt cfg a d).trans (by decide)))

/-- Another link after a change of an agent's. -/
theorem Fabric.link_setLink_other (f : Fabric) {a b : Nat} (ha : a < 32) (l : Link) (h : b ≠ a) : (f.setLink a l).link b = f.link b := by
  rw [Fabric.setLink, if_neg (Nat.ne_of_lt ha)]
  by_cases twin : b = 32
  · simp [Fabric.link, twin]
  · simp [Fabric.link, twin, vget_vset_other _ _ _ _ _ h]

/-- A change of an agent's link changes the links only. -/
theorem Fabric.sameButLinks_setLink (f : Fabric) {a : Nat} (ha : a < 32) (l : Link) : f.SameButLinks (f.setLink a l) :=
  ⟨_, if_neg (Nat.ne_of_lt ha)⟩

/-! ### The outcomes of a declaration -/

/-- A declaration is due on a link in Declare that has accepted none. -/
theorem Fabric.declaration_due (h : (f.link a).st = .declare) (first : (f.link a).decl = none) :
    f.declaration cfg a d = if f.draining then f.setLink a { f.link a with held := some d } else f.declare cfg a d := by
  rw [Fabric.declaration, if_neg (by simp [h, first])]

theorem Fabric.declaration_other (h : (f.link a).st ≠ .declare ∨ (f.link a).decl.isSome = true) : f.declaration cfg a d = f := by
  rw [Fabric.declaration, if_pos (by simpa using h)]

/-- A refused declaration: the third refusal disables the link. -/
theorem Fabric.declare_refused (bad : f.declCheck cfg a d ≠ 0) :
    f.declare cfg a d =
      let l : Link := { (f.link a).sendReply (f.replyTo cfg a d) with held := none, refusals := (f.link a).refusals + 1 }
      if (f.link a).refusals < 2 then f.setLink a l
      else f.linkStep cfg a ({ l with decl := none, st := .disabled, pairBad := 0, pairGood := 0 }, [.stateEvent]) := by
  rw [Fabric.declare, if_neg bad]
  dsimp only
  by_cases n : (f.link a).refusals < 2
  · rw [if_pos n, if_pos (show (f.link a).refusals + 1 < 3 from Nat.succ_lt_succ n)]
    rfl
  · rw [if_neg n, if_neg (show ¬ (f.link a).refusals + 1 < 3 from fun h => n (Nat.lt_of_succ_lt_succ h))]
    rfl

/-- An agent map is told to a partner only. -/
theorem Fabric.tellMap_single {g : Fabric} (single : g.twin.pair = .single) (uid slot : Nat) (present : Bool) :
    g.tellMap uid a slot present = g := if_pos single

/-- What an accepted declaration makes of its link. -/
def Fabric.acceptedLink (f : Fabric) (cfg : Cfg) (a : Nat) (d : Line) : Link :=
  { (f.link a).sendReply (f.replyTo cfg a d) with decl := some d, slot := f.slotFor cfg a d, held := none, withhold := false }

/-- The fabric with agent `a` admitted, in its slot if it is given one. -/
def Fabric.withAgent (f : Fabric) (cfg : Cfg) (a : Nat) (d : Line) : Fabric :=
  ({ f with gran := f.gran.give (f.slotFor cfg a d) a } : Fabric).setLink a (f.acceptedLink cfg a d)

/-- An accepted declaration where there is no partner and no drain. -/
theorem Fabric.declare_accepted (ha : a < 32) (good : f.declCheck cfg a d = 0) (single : f.twin.pair = .single)
    (calm : f.draining = false) : f.declare cfg a d = f.withAgent cfg a d := by
  have alone : f.mirrors = false := by simp [Fabric.mirrors, single]
  have same : ∀ (g : Granary) (l : Link), (({ f with gran := g } : Fabric).setLink a l).twin.pair = .single := fun g l => by
    rw [(Fabric.sameButLinks_setLink _ ha l).twin]
    exact single
  rw [Fabric.declare, Fabric.withAgent, Fabric.acceptedLink, if_pos good]
  dsimp only
  rw [Fabric.tellMap_single (same _ _), calm, alone]
  rfl

end

/-! ## What a link has on its lanes (R34, R35) -/

theorem pairHdr_field (n off w : Nat) (h : off + w ≤ 40) :
    (pairHdr n).extractLsb' off w = BitVec.ofNat w (bitsOf (packNat [(0, 16, 0x5AC3), (16, 8, n)]) off w) := by
  refine BitVec.eq_of_toNat_eq ?_
  rw [BitVec.extractLsb'_toNat, BitVec.toNat_ofNat, ← bitsOf_pack _ h, bitsOf, Nat.mod_mod]
  rfl

theorem pairHdr_marker (n : Nat) : (pairHdr n).extractLsb' 0 16 = 0x5AC3#16 := by
  rw [pairHdr_field _ _ _ (by decide), bitsOf_packNat (v := 0x5AC3) (by simp) (by simp [apart])]
  rfl

theorem pairHdr_count (n : Nat) : (pairHdr n).extractLsb' 16 8 = BitVec.ofNat 8 n := by
  rw [pairHdr_field _ _ _ (by decide), bitsOf_packNat (v := n) (by simp) (by simp [apart])]
  exact BitVec.eq_of_toNat_eq (by simp)

theorem pairHdr_reserved (n : Nat) : (pairHdr n).extractLsb' 24 16 = 0#16 := by
  rw [pairHdr_field _ _ _ (by decide), bitsOf_packNat_gap (by simp [apart])]

/-- Pairs hold five flits each under headers that count them on from `n`. -/
theorem pairsOf_getElem? (pad : Flit) : ∀ (fuel n : Nat) (fs : List Flit) (k : Nat) (p : TxPair),
    (pairsOf pad fuel n fs)[k]? = some p → p.hdr = pairHdr (n + k) ∧ p.flits.length = 5
  | 0, _, _, _, _, h => by simp [pairsOf] at h
  | fuel + 1, n, fs, k, p, h => by
    by_cases none : fs = []
    · simp [pairsOf, none] at h
    · rw [pairsOf, if_neg none] at h
      cases k with
      | zero =>
        obtain rfl := Option.some.inj h
        exact ⟨rfl, by simp⟩
      | succ k =>
        rw [Nat.add_comm k 1, ← Nat.add_assoc]
        exact pairsOf_getElem? pad fuel (n + 1) (fs.drop 5) k p h

/-- The flits of the pairs are those sent, in order, and what completes the last pair. -/
theorem pairsOf_flits (pad : Flit) : ∀ (fuel n : Nat) (fs : List Flit), fs.length ≤ fuel →
    fs <+: (pairsOf pad fuel n fs).flatMap (fun p => p.flits)
  | 0, _, fs, h => by simp [List.length_eq_zero_iff.mp (Nat.le_zero.mp h)]
  | fuel + 1, n, fs, h => by
    by_cases none : fs = []
    · simp [none]
    · have rest := pairsOf_flits pad fuel (n + 1) (fs.drop 5) (by rw [List.length_drop]; omega)
      rw [pairsOf, if_neg none, List.flatMap_cons]
      by_cases short : fs.length ≤ 5
      · rw [List.take_of_length_le short, List.append_assoc]
        exact List.prefix_append ..
      · have full : 5 - (fs.take 5).length = 0 := by rw [List.length_take]; omega
        rw [full, List.replicate_zero, List.append_nil]
        conv => lhs; rw [← List.take_append_drop 5 fs]
        exact (List.prefix_append_right_inj _).mpr rest

theorem length_rsGen (n : Nat) : (rsGen n).length = n := by
  cases n with
  | zero => rfl
  | succ n => simp [rsGen, length_rsGen n]

theorem length_rsParity (msg : List Nat) : (rsParity msg).length = 30 := by
  have shift : ∀ (reg : List Nat) (x : Nat), reg.length = 30 → (rsShift (rsGen 30) reg x).length = 30 := by
    intro reg x h
    simp [rsShift, length_rsGen, h]
  have run : ∀ (msg reg : List Nat), reg.length = 30 → (msg.foldl (rsShift (rsGen 30)) reg).length = 30 := by
    intro msg
    induction msg with
    | nil => exact fun _ h => h
    | cons x msg ih => exact fun reg h => ih _ (shift reg x h)
  exact run msg _ (List.length_replicate ..)

theorem TxPair.length_codeword (p : TxPair) (h : Nat) : (p.codeword h).length = 544 := by
  simp [TxPair.codeword, symbolsOf, length_rsParity]

/-- Two lists of one length, dealt out in turn. -/
theorem getElem?_alternate {α : Type} : ∀ (xs ys : List α), xs.length = ys.length →
    (List.zipWith (fun a b => [a, b]) xs ys).flatten.length = 2 * xs.length ∧
    ∀ i, (List.zipWith (fun a b => [a, b]) xs ys).flatten[2 * i]? = xs[i]? ∧
      (List.zipWith (fun a b => [a, b]) xs ys).flatten[2 * i + 1]? = ys[i]?
  | [], [], _ => by simp
  | x :: xs, y :: ys, h => by
    obtain ⟨len, at_⟩ := getElem?_alternate xs ys (Nat.succ.inj h)
    refine ⟨by simp [len]; omega, fun i => ?_⟩
    cases i with
    | zero => exact ⟨rfl, rfl⟩
    | succ i => exact at_ i

end Sys2Proof.Machine

namespace Sys2Proof
open Machine

/-- Settles O43: a pair, a flit, an expiry and a declaration each do what their case of the link layer gives, and what
a link has sent is framed and dealt out in order (R34 to R36, R51 to R54, R63 to R67). -/
theorem linksCarryPairsAndDeclarations : Obligations.LinksCarryPairsAndDeclarations := by
  unfold Obligations.LinksCarryPairsAndDeclarations
  refine ⟨fun s a ha on => ?_, fun l => ⟨fun p hp => ?_, fun k p hk => ?_, ?_, fun p => ?_⟩⟩
  · intro l gives header idle
    have pair : ∀ {errA errB : Nat} {hdr : BitVec 40} {flits : List Flit} {x : Link}, flits.length = 5 →
        (∀ cap grant, l.takePair portKind cap grant errA errB hdr flits = (x, [])) →
        gives (.codewordPairReceived a errA errB hdr flits) x := by
      intro errA errB hdr flits x five step
      obtain ⟨cap, grant, e⟩ := Fabric.codewordPair_port (f := s.fab) (cfg := s.cfg) ha five
      exact exec_after (exec_codewordPairReceived on ..) (e.trans (by rw [step, Fabric.linkStep_quiet]))
    refine ⟨fun errA errB hdr flits act run bad five other => ?bad, fun errA errB hdr f ns act run a15 b15 head four nulls good
        type due ack nak credits starts whole quiet => ?taken, fun errA errB hdr f ns act run a15 b15 head four nulls good type pos
        ahead => ?ahead, fun act some_ new => ?replay, fun act some_ again => ?lasting, fun none => ?idle,
      fun d st first drain => ?held, fun d st first calm bad few => ?refused, fun d st first calm bad many => ?third,
      fun d st first calm good single room => ?accepted, fun d other => ?other⟩
    case bad =>
      have some_ : flits ≠ [] := fun e => by simp [e] at five
      exact pair five fun cap grant =>
        Link.takePair_bad cap grant act bad (Link.takeFlits_bad cap grant portKind act run other some_) act
    case taken =>
      exact pair (by simp [four]) fun cap grant => Link.takePair_good cap grant act a15 b15 head
        (Link.takeFlits_seq cap grant portKind act good type
          (Link.takeSeq_due portKind act run due ack nak credits starts whole quiet) act rfl nulls) act
    case ahead =>
      exact pair (by simp [four]) fun cap grant => Link.takePair_good cap grant act a15 b15 head
        (Link.takeFlits_seq cap grant portKind act good type (Link.takeSeq_ahead portKind run pos ahead) act rfl nulls) act
    case replay =>
      exact exec_after (exec_replayTimeout on) (by rw [Fabric.replayTimeout, Link.replayTimeout_first act some_ new, Fabric.linkStep_quiet])
    case lasting =>
      exact exec_after (exec_replayTimeout on)
        (by rw [Fabric.replayTimeout, Link.replayTimeout_second act some_ again, Fabric.linkStep_error _ _ ha])
    case idle => exact exec_after (exec_replayTimeout on) (Fabric.replayTimeout_idle s.cfg none)
    case held =>
      exact exec_after (exec_agentDeclaration on d) (by rw [Fabric.declaration_due st first, if_pos drain])
    case refused =>
      refine ⟨_, exec_after (exec_agentDeclaration on d) ?_, s.fab.replyTo_status s.cfg a d⟩
      rw [Fabric.declaration_due st first, if_neg (by simp [calm]), Fabric.declare_refused bad]
      exact if_pos few
    case third =>
      refine ⟨_, exec_after (exec_agentDeclaration on d) ?_, s.fab.replyTo_status s.cfg a d⟩
      rw [Fabric.declaration_due st first, if_neg (by simp [calm]), Fabric.declare_refused bad]
      exact (if_neg (Nat.not_lt.mpr many)).trans (Fabric.linkStep_state _ _ _ ha)
    case accepted =>
      have others := Fabric.sameButLinks_setLink ({ s.fab with gran := s.fab.gran.give (s.fab.slotFor s.cfg a d) a } : Fabric) ha
        (s.fab.acceptedLink s.cfg a d)
      refine ⟨s.fab.replyTo s.cfg a d, s.fab.withAgent s.cfg a d, exec_after (exec_agentDeclaration on d)
        (by rw [Fabric.declaration_due st first, if_neg (by simp [calm]), Fabric.declare_accepted ha good single calm]),
        declReply_version, (s.fab.replyTo_status s.cfg a d).trans good, declReply_agent.trans (Nat.mod_eq_of_lt (by omega)),
        declReply_epoch, ⟨s.fab.slotFor s.cfg a d, Fabric.link_setLink_same _ _ ha, fun quiet => ?_, fun caching => ?_⟩,
        fun b other => Fabric.link_setLink_other _ ha _ other, others.txns, others.mem⟩
      · have none : s.fab.slotFor s.cfg a d = none := by simp [Fabric.slotFor_accepted good, quiet]
        exact ⟨none, others.gran.trans (by rw [none]; rfl)⟩
      · obtain ⟨k, free⟩ := room caching
        have slot : s.fab.slotFor s.cfg a d = s.fab.gran.freeSlot := by simp [Fabric.slotFor_accepted good, caching]
        refine ⟨slot, ?_⟩
        rw [Fabric.withAgent, others.gran, slot, free]
        exact Granary.slotOf_give _ (Granary.freeSlot_lt free) a
    case other => exact exec_after (exec_agentDeclaration on d) (Fabric.declaration_other other)
  · obtain ⟨k, hk⟩ := List.mem_iff_getElem?.mp hp
    obtain ⟨hdr, five⟩ := pairsOf_getElem? _ _ _ _ _ _ hk
    exact ⟨five, by rw [hdr, pairHdr_marker], by rw [hdr, pairHdr_reserved]⟩
  · obtain ⟨hdr, -⟩ := pairsOf_getElem? _ _ _ _ _ _ hk
    rw [hdr, pairHdr_count, Nat.zero_add]
  · exact (List.prefix_iff_eq_take.mp (pairsOf_flits l.nullFlit _ 0 l.wire (Nat.le_refl _))).symm
  · obtain ⟨len, at_⟩ := getElem?_alternate (p.codeword 0) (p.codeword 1) (by rw [p.length_codeword, p.length_codeword])
    exact ⟨by rw [TxPair.symbols, len, p.length_codeword], fun i _ => at_ i⟩

end Sys2Proof
end

section
/-! SUPPORT. Good requests and evictions: what their payload carries, the entry at the arbiter or the item of the
ordering unit that each becomes (R79, R85, R86, R101, R111, R213, R215). -/
namespace Sys2Proof.Machine

/-! ## Payloads (R85, R86) -/

/-- The bits of numbers joined by `|||`. -/
theorem testBit_foldl_or {α : Type} (g : α → Nat) (i : Nat) : ∀ (l : List α) (z : Nat),
    (l.foldl (fun acc x => acc ||| g x) z).testBit i = (z.testBit i || l.any (fun x => (g x).testBit i))
  | [], z => by simp
  | x :: l, z => by simp [testBit_foldl_or g i l, Bool.or_assoc]

/-- One data slot, put back in its place, gives the bits of its quarter of the line. -/
theorem testBit_slot (d : Line) (q i : Nat) :
    ((d.extractLsb' (128 * q) 128).toNat <<< (128 * q)).testBit i = (decide (i / 128 = q) && d.getLsbD i) := by
  rw [Nat.testBit_shiftLeft, BitVec.testBit_toNat, BitVec.getLsbD_extractLsb', ← Bool.and_assoc, ← Bool.decide_and]
  by_cases here : i / 128 = q
  · rw [Nat.add_sub_of_le (by omega), decide_eq_true here, decide_eq_true (by omega)]
  · rw [decide_eq_false here, decide_eq_false (by omega), Bool.false_and, Bool.false_and]

/-- A line that is sent in four data slots is received as it was sent, whichever slot leads. -/
@[simp] theorem lineOfSlots_dataSlots (d : Line) (c : Nat) : lineOfSlots (dataSlots d c) c = d := by
  refine BitVec.eq_of_getLsbD_eq fun i hi => ?_
  have slots : ((dataSlots d c).take 4).zipIdx = (List.range 4).map (fun k => (d.extractLsb' (128 * ((c + k) % 4)) 128, k)) := rfl
  rw [lineOfSlots, slots, BitVec.getLsbD_ofNat, testBit_foldl_or]
  simp only [List.any_map, Function.comp_def, testBit_slot, hi, decide_true, Bool.true_and, Nat.zero_testBit, Bool.false_or]
  cases d.getLsbD i
  · simp
  · simpa using ⟨(i / 128 + 4 - c % 4) % 4, by omega, by omega⟩

/-- Byte enables travel in the first eight bytes of their slot. -/
theorem byteEnOf_cons (be : BitVec 64) (sl : List Slot) : byteEnOf (BitVec.setWidth 128 be :: sl) = be := by
  refine BitVec.eq_of_getLsbD_eq fun i hi => ?_
  simp [byteEnOf, hi]
  omega

/-- A message with a Line header is that header alone, or it carries a line. -/
theorem Op.slots_of_isLine {o : Op} (line : o.isLine = true) : o.slots = 1 ∨ 2 < o.slots := by
  cases o <;> simp_all [Op.isLine, Op.slots]

section
variable {a : Nat} {hdr : Slot} {data : Line} {be : BitVec 64} {opnd : Slot} {more : Bool} {o : Op} {c : Instr}
  (hc : requestOf o a hdr data be opnd more = some c)
include hc

/-- A request or eviction carries a line where it has the slots for one. -/
theorem reqData_reqPay : reqData o ⟨hdr, reqPay o data be opnd⟩ = if 2 < o.slots then data else 0 := by
  cases o
  case wrInvFull | wrPartial | wrUncached | svcReq | wbDirty | wbOwned => exact lineOfSlots_dataSlots data 0
  all_goals cases hc <;> rfl

/-- The bytes that a request or eviction names. -/
theorem reqBytes_reqPay : reqBytes o ⟨hdr, reqPay o data be opnd⟩ =
    if o = .wrPartial then be else if o.isLine then allEn
      else if o.addressed then spanEn ((unAddr hdr).toNat % 64) (unLen hdr) else 0 := by
  cases o
  case wrPartial => exact byteEnOf_cons be _
  all_goals cases hc <;> rfl

end

/-! ## The checks of acceptance (R79, R101) -/

/-- The right TENANT is not counted. -/
theorem Fabric.checkTenant_right {cfg : Cfg} (f : Fabric) (a : Nat) {o : Op} {h : Slot}
    (right : ∀ r, cfg.regionOf (reqLaddr o h) = some r → o.carries = true → reqTenant o h = r.tenant) :
    f.checkTenant cfg a o h = f := by
  unfold Fabric.checkTenant
  cases region : cfg.regionOf (reqLaddr o h) with
  | none => rfl
  | some r =>
    have same := right r region
    exact if_neg (by simpa using same)

/-- A location within the geometry that the agent declared, or zero where it must be. -/
theorem Fabric.locationOk_of {f : Fabric} {a : Nat} {d : Line} {o : Op} {h : Slot} (hd : (f.link a).decl = some d)
    (within : o.isLine = true →
      if o.cachingOnly then lnCset h < 2 ^ dclSets d ∧ lnCway h < dclWays d else lnCset h = 0 ∧ lnCway h = 0) :
    f.locationOk a o h = true := by
  unfold Fabric.locationOk
  cases line : o.isLine with
  | false => rfl
  | true =>
    have within := within line
    cases only : o.cachingOnly <;> simpa [only, Fabric.locInRange, hd] using within

/-- Where there is no partner, a request that its agent may send, with a good location, goes to the slice or the unit. -/
theorem Fabric.acceptReq_passes {f : Fabric} (alone : f.alone = true) (cfg : Cfg) {a : Nat} {o : Op} {m : Msg}
    (may : o.cachingOnly = true → f.caching a = true) (loc : f.locationOk a o m.hdr = true) :
    f.acceptReq cfg a o m = if o.isLine && f.caching a then f.toSlice cfg a o m else f.toUnit cfg a o m := by
  rw [Fabric.acceptReq_of_alone alone, if_neg (by simpa using may), if_neg (by simp [loc])]

/-! ## Requests at the arbiter of their slice (R111) -/

/-- A line request or eviction of a caching agent as it waits at the arbiter of its slice. -/
def Arr.ofRequest (a : Nat) (o : Op) (m : Msg) : Arr :=
  { cyc := 0, cls := if o.cls = clsEVC then 0 else 1, port := a / 2, half := a % 2, who := .agent a none, op := .req o,
    hdr := m.hdr, la := lnLaddr m.hdr, data := reqData o m, be := reqBytes o m, pois := reqPoison o m.hdr, opnd := 0,
    txids := [hTxid m.hdr] }

/-- Every region but DEV accepts every request (Table 8.1). -/
theorem typeAccepts_of_ne_dev (o : Op) {t : RType} (h : t ≠ .dev) : typeAccepts o (some t) = true := by
  cases t
  case dev => exact absurd rfl h
  all_goals cases o <;> rfl

/-- A request whose region accepts it, or an eviction, joins the arbiter. -/
theorem Fabric.toSlice_accepted {cfg : Cfg} (f : Fabric) (a : Nat) {o : Op} {m : Msg} (line : o.isLine = true)
    (type : o.cls = clsEVC ∨ ∃ r, cfg.regionOf (lnLaddr m.hdr) = some r ∧
      if o.cachingOnly then r.typ.cacheable = true else r.typ ≠ .dev)
    (right : ∀ r, cfg.regionOf (lnLaddr m.hdr) = some r → lnTenant m.hdr = r.tenant) :
    f.toSlice cfg a o m = { f with arr := f.arr ++ [Arr.ofRequest a o m] } := by
  have tenant : f.checkTenant cfg a o m.hdr = f := f.checkTenant_right a fun r region _ => by
    simp only [reqLaddr, reqTenant, line, if_true] at region ⊢
    exact right r region
  simp only [Fabric.toSlice, tenant, Arr.ofRequest]
  rw [if_neg]
  rcases type with evc | ⟨r, region, fits⟩
  · simp [evc]
  · cases only : o.cachingOnly with
    | true => simp [region, show r.typ.cacheable = true by simpa [only] using fits]
    | false => simp [region, typeAccepts_of_ne_dev o (show r.typ ≠ .dev by simpa [only] using fits)]

end Sys2Proof.Machine

namespace Sys2Proof
open Machine

/-- Settles O44: a line request or eviction that passes the checks of acceptance joins the arbiter of its slice, and
its port is all that changes besides (R79, R85, R101, R111, R213). -/
theorem cachingRequestsReachTheirSlice : Obligations.CachingRequestsReachTheirSlice := by
  unfold Obligations.CachingRequestsReachTheirSlice
  intro s a hdr data be more d o c hc line hop up new first clear alone calm hd isCaching location type right
  let m : Msg := ⟨hdr, reqPay o data be 0⟩
  obtain ⟨ha, -, -⟩ := (s.linkUp_iff a).mp up
  have frame := s.fab.sameButLinks_begun ha o hdr
  have decl := (s.fab.begun_decl ha o hdr).trans hd
  have caching := (Fabric.caching_eq decl).trans isCaching
  have loc : (s.fab.begun a o hdr).locationOk a o m.hdr = true := Fabric.locationOk_of decl fun _ => location
  have type : o.cls = clsEVC ∨ _ := (Op.cls_of_requestOf hc).symm.imp id type
  have accepts : (s.fab.begun a o hdr).acceptReq s.cfg a o m =
      { s.fab.begun a o hdr with arr := s.fab.arr ++ [Arr.ofRequest a o m] } := by
    rw [Fabric.acceptReq_passes (m := m) (frame.alone.trans alone) _ (fun _ => caching) loc,
      if_pos (by simp [line, caching]), Fabric.toSlice_accepted (m := m) _ _ line type right, frame.arr]
  refine ⟨Arr.ofRequest a o m, rfl, rfl, rfl, rfl, rfl, rfl, rfl, rfl, rfl, if_pos line, ?data, ?be,
    exec_request_accepted hc hop up new first clear calm _ accepts rfl⟩
  case data =>
    refine (reqData_reqPay hc).trans ?_
    rcases Op.slots_of_isLine line with one | more
    · simp [one]
    · rw [if_pos more, if_neg (by omega)]
  case be =>
    rw [show (Arr.ofRequest a o m).be = _ from reqBytes_reqPay hc, line]
    rfl

end Sys2Proof
end

section
/-! SUPPORT. The ordering unit of one agent: what it takes, what it releases at once when it is idle, and what it leaves
alone (R213 to R234, log entry 43). -/
namespace Sys2Proof.Machine

/-! ## A drain is not the ordering units' business -/

section
variable {f : Fabric} {a : Nat}

@[simp] theorem Fabric.modLink_draining {g : Link → Link} : (f.modLink a g).draining = f.draining :=
  (f.modLink_frame a g).elim fun _ ⟨_, h⟩ => h ▸ rfl

@[simp] theorem Fabric.bareComp_draining {x v : Nat} {r : Res} : (f.bareComp a x r v).draining = f.draining :=
  Fabric.modLink_draining.trans Fabric.modLink_draining

@[simp] theorem Fabric.modOrd_draining {g : Ord → Ord} : (f.modOrd a g).draining = f.draining := rfl

@[simp] theorem Fabric.enqueue_draining {q : Nat} {raw : Line} {owed : Option Nat} :
    (f.enqueue q raw owed).1.draining = f.draining := by
  unfold Fabric.enqueue
  dsimp only
  split <;> split <;> rfl

@[simp] theorem Fabric.submit_draining {cfg : Cfg} {q : Nat} {raw : Line} {owed : Option Nat} :
    (f.submit cfg q raw owed).1.draining = f.draining := by
  unfold Fabric.submit
  dsimp only
  split
  · exact Fabric.enqueue_draining
  · rfl

end

theorem svcRunN_draining (cfg : Cfg) : ∀ (n : Nat) (f : Fabric), (svcRunN cfg n f).draining = f.draining
  | 0, _ => rfl
  | n + 1, f => by
    unfold svcRunN
    split
    · rfl
    · rw [svcRunN_draining cfg n]
      dsimp only
      split
      · simp
      · simp

theorem Fabric.ordGo_draining (cfg : Cfg) (f : Fabric) (a : Nat) (x : OItem) : (f.ordGo cfg a x).draining = f.draining := by
  unfold Fabric.ordGo
  dsimp only
  split
  · split
    · exact svcRunN_draining cfg _ _
    · rfl
  · rfl
  · split
    · split <;> rfl
    · rfl
  · simp
  · split
    · rfl
    · simp

theorem ordRunN_draining (cfg : Cfg) (a : Nat) : ∀ (n : Nat) (f : Fabric), (ordRunN cfg a n f).draining = f.draining
  | 0, _ => rfl
  | n + 1, f => by
    unfold ordRunN
    dsimp only
    split
    · rfl
    · rw [ordRunN_draining cfg a n, Fabric.ordGo_draining]

theorem Fabric.ordTake_draining (cfg : Cfg) (f : Fabric) (a : Nat) (y : OItem) : (f.ordTake cfg a y).draining = f.draining := by
  unfold Fabric.ordTake
  dsimp only
  split
  · split
    · simp [Fabric.send, Fabric.endLive]
    · rfl
  · rfl
  · rfl
  · rfl
  · split <;> rfl

/-! ## Requests at their ordering unit (R213, R215) -/

/-- A request as it comes to its ordering unit. -/
def OItem.ofRequest (cfg : Cfg) (o : Op) (m : Msg) : OItem :=
  let t := if o.addressed then ((cfg.regionOf (reqLaddr o m.hdr)).map (·.typ)).getD .ucn else .ucn
  { id := 0, kind := ordKind o t, op := o, hdr := m.hdr, la := reqLaddr o m.hdr, data := reqData o m, be := reqBytes o m,
    pois := reqPoison o m.hdr, tenant := reqTenant o m.hdr, opnd := m.pay.headD 0, txids := [hTxid m.hdr], typ := t,
    waits := [], inBuf := true, released := false, endp := false }

/-- A region accepts a request that names no address, one with an Uncached header, and any where it is not DEV (Table
8.1). -/
theorem typeAccepts_region {cfg : Cfg} {o : Op} {la : LAddr} (region : o.addressed = true → ∃ r, cfg.regionOf la = some r ∧
    (o = .rdUncached ∨ o = .wrUncached ∨ r.typ ≠ .dev)) : typeAccepts o ((cfg.regionOf la).map (·.typ)) = true := by
  cases addr : o.addressed with
  | false => cases o <;> simp_all [Op.addressed, typeAccepts]
  | true =>
    obtain ⟨r, at_, rfl | rfl | type⟩ := region addr
    · rw [at_]; rfl
    · rw [at_]; rfl
    · rw [at_]; exact typeAccepts_of_ne_dev o type

/-- Data that is no operand is a line. -/
theorem Op.slots_of_carries {o : Op} (h : o.carries = true) (two : o.slots ≠ 2) : 2 < o.slots := by
  cases o <;> simp_all [Op.carries, Op.slots]

theorem Op.addressed_of_carries {o : Op} (h : o.carries = true) : o.addressed = true := by
  cases o <;> simp_all [Op.carries, Op.addressed]

/-- A request whose fields and region are good enters its ordering unit. -/
theorem Fabric.toUnit_accepted {cfg : Cfg} {f : Fabric} {a : Nat} {o : Op} {m : Msg}
    (fields : o.isLine = false → uncachedFieldsOk o m.hdr = true) (resv : f.caching a = true → o ≠ .ldResv ∧ o ≠ .stCond)
    (region : o.addressed = true → ∃ r, cfg.regionOf (reqLaddr o m.hdr) = some r ∧
      (o = .rdUncached ∨ o = .wrUncached ∨ r.typ ≠ .dev) ∧ (o.carries = true → reqTenant o m.hdr = r.tenant)) :
    f.toUnit cfg a o m = (f.ordTake cfg a (OItem.ofRequest cfg o m)).ordRun cfg a := by
  have tenant : f.checkTenant cfg a o m.hdr = f := f.checkTenant_right a fun r at_ carries => by
    obtain ⟨r', at', -, right⟩ := region (Op.addressed_of_carries carries)
    rw [Option.some.inj (at_.symm.trans at')]
    exact right carries
  have accepts := typeAccepts_region (cfg := cfg) (o := o) (la := reqLaddr o m.hdr)
    fun addr => (region addr).imp fun _ h => ⟨h.1, h.2.1⟩
  rw [Fabric.toUnit, if_neg (by simpa using fields), if_neg (by simpa using resv), if_neg (by simp [accepts])]
  simp only [tenant, OItem.ofRequest]

/-- How the ordering unit treats a request, by its opcode and region (Table 8.2). -/
theorem OItem.ofRequest_kind (cfg : Cfg) (o : Op) (m : Msg) : (OItem.ofRequest cfg o m).kind = (match o with
    | .rdOnce => .read
    | .rdUncached => if (cfg.regionOf (reqLaddr o m.hdr)).map (·.typ) = some .dev then .entry else .read
    | .ldResv => .ldresv
    | .cBar => .cbar
    | .resvClear => .resvClear
    | _ => .entry) := by
  cases o
  case rdUncached =>
    simp only [OItem.ofRequest, ordKind, Op.addressed]
    cases (cfg.regionOf (reqLaddr .rdUncached m.hdr)).map (·.typ) <;> simp
  all_goals rfl

/-! ## One ordering unit -/

section
variable {f : Fabric} {a : Nat}

/-- Only what a change makes of the unit as it is counts. -/
theorem Fabric.modOrd_congr {g h : Ord → Ord} (same : g (f.ordOf a) = h (f.ordOf a)) : f.modOrd a g = f.modOrd a h := by
  have here : vmod f.ord a g = vmod f.ord a h := by
    unfold vmod
    cases at_ : f.ord[a]? with
    | none => rfl
    | some o => simpa [Fabric.ordOf, vget, at_] using congrArg (f.ord.setIfInBounds a) same
  rw [Fabric.modOrd, here, Fabric.modOrd]

/-- Two changes of one unit are one change. -/
theorem Fabric.modOrd_modOrd (g h : Ord → Ord) : (f.modOrd a g).modOrd a h = f.modOrd a (fun o => h (g o)) := by
  have here : vmod (vmod f.ord a g) a h = vmod f.ord a (fun o => h (g o)) := by
    unfold vmod
    cases at_ : f.ord[a]? with
    | none => simp [at_]
    | some o =>
      obtain ⟨ha, -⟩ := Vector.getElem?_eq_some_iff.mp at_
      simp [ha]
  rw [Fabric.modOrd, Fabric.modOrd, here, Fabric.modOrd]

theorem Fabric.ordOf_modOrd (ha : a < 32) (g : Ord → Ord) : (f.modOrd a g).ordOf a = g (f.ordOf a) :=
  vget_vmod_same _ _ _ _ ha

theorem Fabric.ordOf_bareComp (ha : a < 32) (x : Nat) (r : Res) (v : Nat) : (f.bareComp a x r v).ordOf a = f.ordOf a :=
  (f.sameButLinks_bareComp ha x r v).elim fun _ e => e ▸ rfl

end

/-! ## An idle ordering unit -/

/-- An item as an idle unit takes it: it overlaps nothing. -/
def OItem.entered (y : OItem) (id : Nat) : OItem :=
  { y with id := id, inBuf := true, waits := match y.kind with | .read | .ldresv => [] | _ => y.waits }

/-- An idle unit that has taken one item. -/
def Ord.holding (o : Ord) (z : OItem) : Ord := { o with items := [z], nextId := o.nextId + 1 }

/-- The unit once an item has left it. -/
def Ord.without (o : Ord) (x : OItem) : Ord := { o with items := dropFirst (fun (z : OItem) => z.id = x.id) o.items }

/-- The unit once an item has left it or, an entry, has been sent to its slice. -/
def Ord.release (o : Ord) (x : OItem) : Ord :=
  match x.kind with
  | .entry => { o with items := modFirst (fun (z : OItem) => z.id = x.id) (fun z => { z with released := true }) o.items,
                       lastSlice := some (sliceOf x.la) }
  | .read | .cbar => o.without x
  | .ldresv => { o.without x with resvAt := some x.la }
  | .resvClear => { o.without x with resvAt := none }

/-- What goes ahead of a LdResv: the clear for the slice of the agent's last one, where that is another (R232). -/
def Ord.clearAhead (o : Ord) (a : Nat) (la : LAddr) : List Arr :=
  match o.resvAt with
  | some l => if sliceOf l ≠ sliceOf la then [clearArr a l []] else []
  | none => []

theorem Ord.clearAhead_other {o : Ord} (a : Nat) {la l : LAddr} (last : o.resvAt = some l) (other : sliceOf l ≠ sliceOf la) :
    o.clearAhead a la = [clearArr a l []] := by
  simp [Ord.clearAhead, last, other]

theorem Ord.clearAhead_same {o : Ord} (a : Nat) {la : LAddr} (same : ∀ l, o.resvAt = some l → sliceOf l = sliceOf la) :
    o.clearAhead a la = [] := by
  cases last : o.resvAt with
  | none => simp [Ord.clearAhead, last]
  | some l => simp [Ord.clearAhead, last, same l last]

/-- An idle unit enters every request: nothing is there to merge with, to answer from or to wait for. -/
theorem Fabric.ordTake_idle (cfg : Cfg) {f : Fabric} {a : Nat} {y : OItem} (idle : (f.ordOf a).items = [])
    (reads : y.kind = .read → y.be ≠ 0) :
    f.ordTake cfg a y = f.modOrd a (fun o => o.holding (y.entered o.nextId)) := by
  have none : (f.ordOf a).entries = [] := by simp [Ord.entries, idle]
  unfold Fabric.ordTake
  dsimp only
  split
  next kind =>
    have uncovered : y.be &&& ~~~(f.ordOf a).covered y.la = y.be := by
      rw [Ord.covered, none, List.foldl_nil, BitVec.ofNat_eq_ofNat, BitVec.not_zero, BitVec.and_allOnes]
    have unanswered : (f.ordOf a).forwards cfg y = false := by simp only [Ord.forwards, uncovered, reads kind]; simp
    rw [if_neg (by simp [unanswered])]
    exact Fabric.modOrd_congr (by simp [Ord.holding, OItem.entered, idle, kind, Ord.overlaps, none])
  next kind => exact Fabric.modOrd_congr (by simp [Ord.holding, OItem.entered, idle, kind, Ord.overlaps, none])
  next kind => exact Fabric.modOrd_congr (by simp [Ord.holding, OItem.entered, idle, kind])
  next kind => exact Fabric.modOrd_congr (by simp [Ord.holding, OItem.entered, idle, kind])
  next kind =>
    have apart : (f.ordOf a).mergeTarget cfg y = Option.none := by simp [Ord.mergeTarget, none]
    rw [apart]
    exact Fabric.modOrd_congr (by simp [Ord.holding, OItem.entered, idle, kind, Ord.occ, none])

/-- The only item of a unit may leave, if nothing lacks its end point. -/
theorem Ord.canGo_alone {o : Ord} {x : OItem} (short : o.short = []) (inBuf : x.inBuf = true) (fresh : x.released = false) :
    o.canGo [] x = true := by
  unfold Ord.canGo
  cases kind : x.kind <;> simp [short, inBuf, fresh]

/-- Nothing more may leave a unit whose only item has been released. -/
theorem Ord.nextGo_release {o : Ord} {x : OItem} (alone : o.items = [x]) : (o.release x).nextGo [] (o.release x).items = none := by
  cases kind : x.kind <;> simp [Ord.release, Ord.without, kind, alone, dropFirst, modFirst, Ord.nextGo, Ord.canGo]

/-! ### What one item does as it leaves (R219, R226, R232, R234) -/

section
variable (cfg : Cfg) {g : Fabric} {a : Nat} {x : OItem}

/-- An entry or a read is sent to its slice. -/
theorem Fabric.ordGo_sent (kind : x.kind = .entry ∧ x.op ≠ .svcReq ∨ x.kind = .read) :
    g.ordGo cfg a x = { g.modOrd a (fun o => o.release x) with arr := g.arr ++ [x.arr a] } := by
  rcases kind with ⟨kind, op⟩ | kind
  · simp only [Fabric.ordGo, Ord.release, kind, if_neg op]
    rfl
  · simp only [Fabric.ordGo, Ord.release, kind]
    rfl

theorem Fabric.ordGo_cbar (kind : x.kind = .cbar) :
    g.ordGo cfg a x = (g.modOrd a (fun o => o.release x)).bareComp a (x.txids.headD 0) .ok 0 := by
  simp only [Fabric.ordGo, Ord.release, kind]
  rfl

/-- A LdResv goes to its slice, behind the clear for the slice of the last one where that is another. -/
theorem Fabric.ordGo_ldresv (ha : a < 32) (kind : x.kind = .ldresv) :
    g.ordGo cfg a x = { g.modOrd a (fun o => o.release x) with
      arr := g.arr ++ (g.ordOf a).clearAhead a x.la ++ [x.arr a] } := by
  have unit : g.modOrd a (fun o => o.release x) =
      (g.modOrd a (fun o => o.without x)).modOrd a (fun o => { o with resvAt := some x.la }) := by
    simp only [Fabric.modOrd_modOrd, Ord.release, kind]
  have same : ((g.modOrd a (fun o => o.without x)).ordOf a).resvAt = (g.ordOf a).resvAt :=
    congrArg (·.resvAt) (Fabric.ordOf_modOrd ha _)
  rw [unit]
  unfold Fabric.ordGo
  rw [kind]
  dsimp only
  split
  next l last =>
    have last : (g.ordOf a).resvAt = some l := same.symm.trans last
    by_cases other : sliceOf l ≠ sliceOf x.la
    · rw [if_pos other, Ord.clearAhead_other a last other]
      rfl
    · have none : (g.ordOf a).clearAhead a x.la = [] :=
        Ord.clearAhead_same a fun l' h => by simpa [Option.some.inj (last.symm.trans h)] using other
      rw [if_neg other, none, List.append_nil]
      rfl
  next last =>
    have last : (g.ordOf a).resvAt = none := same.symm.trans last
    rw [Ord.clearAhead_same a fun l' h => (nomatch last.symm.trans h), List.append_nil]
    rfl

/-- A ResvClear goes to the slice of the last LdResv. -/
theorem Fabric.ordGo_resvClear_sent (ha : a < 32) (kind : x.kind = .resvClear) {l : LAddr} (last : (g.ordOf a).resvAt = some l) :
    g.ordGo cfg a x = { g.modOrd a (fun o => o.release x) with arr := g.arr ++ [clearArr a l x.txids] } := by
  have unit : g.modOrd a (fun o => o.release x) =
      (g.modOrd a (fun o => o.without x)).modOrd a (fun o => { o with resvAt := none }) := by
    simp only [Fabric.modOrd_modOrd, Ord.release, kind]
  have same : ((g.modOrd a (fun o => o.without x)).ordOf a).resvAt = some l :=
    (congrArg (·.resvAt) (Fabric.ordOf_modOrd ha _)).trans last
  rw [unit]
  unfold Fabric.ordGo
  unfold Ord.without at same ⊢
  simp only [kind, same]
  rfl

/-- A ResvClear of an agent without a reservation is answered (R234). -/
theorem Fabric.ordGo_resvClear_answered (ha : a < 32) (kind : x.kind = .resvClear) (at_ : (g.ordOf a).resvAt = none) :
    g.ordGo cfg a x = (g.modOrd a (fun o => o.release x)).bareComp a (x.txids.headD 0) .ok 0 := by
  simp only [Fabric.ordGo, kind, Fabric.ordOf_modOrd ha, at_]
  refine congrArg (fun h : Fabric => h.bareComp a (x.txids.headD 0) .ok 0) (Fabric.modOrd_congr ?_)
  simp only [Ord.release, kind, ← at_]
  rfl

/-- What becomes of its unit when an item other than a SvcReq leaves. -/
theorem Fabric.ordOf_ordGo (ha : a < 32) (op : x.kind = .entry → x.op ≠ .svcReq) :
    (g.ordGo cfg a x).ordOf a = (g.ordOf a).release x := by
  have unit := Fabric.ordOf_modOrd (f := g) ha (fun o => o.release x)
  cases kind : x.kind with
  | entry => rw [Fabric.ordGo_sent cfg (.inl ⟨kind, op kind⟩)]; exact unit
  | read => rw [Fabric.ordGo_sent cfg (.inr kind)]; exact unit
  | ldresv => rw [Fabric.ordGo_ldresv cfg ha kind]; exact unit
  | cbar => rw [Fabric.ordGo_cbar cfg kind, Fabric.ordOf_bareComp ha, unit]
  | resvClear =>
    cases at_ : (g.ordOf a).resvAt with
    | none => rw [Fabric.ordGo_resvClear_answered cfg ha kind at_, Fabric.ordOf_bareComp ha, unit]
    | some l => rw [Fabric.ordGo_resvClear_sent cfg ha kind at_]; exact unit

/-- A unit with one item releases it, and that is all. -/
theorem Fabric.ordRun_one (ha : a < 32) (alone : (g.ordOf a).items = [x]) (short : (g.ordOf a).short = []) (inBuf : x.inBuf = true)
    (fresh : x.released = false) (op : x.kind = .entry → x.op ≠ .svcReq) : g.ordRun cfg a = g.ordGo cfg a x := by
  have first : (g.ordOf a).nextGo [] [x] = some x := by rw [Ord.nextGo, if_pos (Ord.canGo_alone short inBuf fresh)]
  have last : ((g.ordOf a).release x).nextGo [] ((g.ordOf a).release x).items = none := Ord.nextGo_release alone
  simp only [Fabric.ordRun, alone, List.length_singleton, ordRunN, first, Fabric.ordOf_ordGo cfg ha op, last]

end

/-! ### A request passes an idle unit -/

/-- An idle unit once a request has come and, an entry, been sent on, or else left. -/
def Ord.passed (o : Ord) (y : OItem) : Ord := (o.holding (y.entered o.nextId)).release (y.entered o.nextId)

theorem Ord.passed_entry {o : Ord} {y : OItem} (kind : y.kind = .entry) :
    o.passed y = { o with items := [{ y with id := o.nextId, inBuf := true, released := true }], nextId := o.nextId + 1,
                          lastSlice := some (sliceOf y.la) } := by
  simp [Ord.passed, Ord.release, Ord.holding, OItem.entered, kind, modFirst]

/-- The unit remembers where the agent's last LdResv went. -/
theorem Ord.passed_resvAt {o : Ord} {y : OItem} (kind : y.kind = .ldresv) : (o.passed y).resvAt = some y.la := by
  simp [Ord.passed, Ord.release, OItem.entered, kind]

/-- A ResvClear leaves no reservation to remember. -/
theorem Ord.passed_resvClear {o : Ord} {y : OItem} (kind : y.kind = .resvClear) : (o.passed y).resvAt = none := by
  simp [Ord.passed, Ord.release, OItem.entered, kind]

/-- What is no entry leaves the unit empty. -/
theorem Ord.passed_items {o : Ord} {y : OItem} (kind : y.kind ≠ .entry) : (o.passed y).items = [] := by
  cases k : y.kind <;> simp_all [Ord.passed, Ord.release, Ord.without, Ord.holding, OItem.entered, dropFirst]

section
variable (cfg : Cfg) {f : Fabric} {a : Nat} {y : OItem} (ha : a < 32) (idle : (f.ordOf a).items = [])
  (short : (f.ordOf a).short = []) (fresh : y.released = false)
include ha idle short fresh

/-- What an idle unit takes it releases at once. -/
theorem Fabric.ordTake_ordRun_idle (reads : y.kind = .read → y.be ≠ 0) (op : y.kind = .entry → y.op ≠ .svcReq) :
    (f.ordTake cfg a y).ordRun cfg a =
      (f.modOrd a (fun o => o.holding (y.entered o.nextId))).ordGo cfg a (y.entered (f.ordOf a).nextId) := by
  have holds := Fabric.ordOf_modOrd (f := f) ha (fun o => o.holding (y.entered o.nextId))
  rw [Fabric.ordTake_idle cfg idle reads]
  exact Fabric.ordRun_one cfg ha (by rw [holds]; rfl) (by rw [holds]; exact short) rfl fresh op

omit ha idle short fresh in
theorem Fabric.modOrd_passed : (f.modOrd a (fun o => o.holding (y.entered o.nextId))).modOrd a
    (fun o => o.release (y.entered (f.ordOf a).nextId)) = f.modOrd a (fun o => o.passed y) :=
  (Fabric.modOrd_modOrd _ _).trans (Fabric.modOrd_congr rfl)

theorem Fabric.ordRun_idle_sent (kind : y.kind = .entry ∧ y.op ≠ .svcReq ∨ y.kind = .read ∧ y.be ≠ 0) :
    (f.ordTake cfg a y).ordRun cfg a =
      { f.modOrd a (fun o => o.passed y) with arr := f.arr ++ [(y.entered (f.ordOf a).nextId).arr a] } := by
  rw [Fabric.ordTake_ordRun_idle cfg ha idle short fresh (by rcases kind with ⟨k, -⟩ | ⟨-, b⟩ <;> simp_all)
    (by rcases kind with ⟨-, b⟩ | ⟨k, -⟩ <;> simp_all), Fabric.ordGo_sent (x := y.entered _) cfg (kind.imp id And.left),
    Fabric.modOrd_passed]
  rfl

theorem Fabric.ordRun_idle_cbar (kind : y.kind = .cbar) :
    (f.ordTake cfg a y).ordRun cfg a = (f.modOrd a (fun o => o.passed y)).bareComp a (y.txids.headD 0) .ok 0 := by
  rw [Fabric.ordTake_ordRun_idle cfg ha idle short fresh (by simp [kind]) (by simp [kind]),
    Fabric.ordGo_cbar (x := y.entered _) cfg kind, Fabric.modOrd_passed]
  rfl

theorem Fabric.ordRun_idle_ldresv (kind : y.kind = .ldresv) :
    (f.ordTake cfg a y).ordRun cfg a = { f.modOrd a (fun o => o.passed y) with
      arr := f.arr ++ (f.ordOf a).clearAhead a y.la ++ [(y.entered (f.ordOf a).nextId).arr a] } := by
  rw [Fabric.ordTake_ordRun_idle cfg ha idle short fresh (by simp [kind]) (by simp [kind]),
    Fabric.ordGo_ldresv (x := y.entered _) cfg ha kind, Fabric.modOrd_passed, Fabric.ordOf_modOrd ha]
  rfl

theorem Fabric.ordRun_idle_resvClear_sent (kind : y.kind = .resvClear) {l : LAddr} (last : (f.ordOf a).resvAt = some l) :
    (f.ordTake cfg a y).ordRun cfg a =
      { f.modOrd a (fun o => o.passed y) with arr := f.arr ++ [clearArr a l y.txids] } := by
  rw [Fabric.ordTake_ordRun_idle cfg ha idle short fresh (by simp [kind]) (by simp [kind]),
    Fabric.ordGo_resvClear_sent (x := y.entered _) cfg ha kind (by rw [Fabric.ordOf_modOrd ha]; exact last), Fabric.modOrd_passed]
  rfl

theorem Fabric.ordRun_idle_resvClear_answered (kind : y.kind = .resvClear) (last : (f.ordOf a).resvAt = none) :
    (f.ordTake cfg a y).ordRun cfg a = (f.modOrd a (fun o => o.passed y)).bareComp a (y.txids.headD 0) .ok 0 := by
  rw [Fabric.ordTake_ordRun_idle cfg ha idle short fresh (by simp [kind]) (by simp [kind]),
    Fabric.ordGo_resvClear_answered (x := y.entered _) cfg ha kind (by rw [Fabric.ordOf_modOrd ha]; exact last), Fabric.modOrd_passed]
  rfl

end

/-- An answer does not look at the ordering units. -/
theorem Fabric.bareComp_modOrd (f : Fabric) {a : Nat} (ha : a < 32) (k : Ord → Ord) (x : Nat) (r : Res) (v : Nat) :
    (f.modOrd a k).bareComp a x r v = (f.bareComp a x r v).modOrd a k := by
  simp only [Fabric.bareComp, Fabric.send, Fabric.endLive, Fabric.modLink_agent _ ha]
  rfl

/-- An answer that follows a change of the unit leaves all else alone. -/
theorem Fabric.bareComp_modOrd_frame (f : Fabric) {a : Nat} (ha : a < 32) (k : Ord → Ord) (x : Nat) (r : Res) (v : Nat) :
    let t := (f.modOrd a k).bareComp a x r v
    t.arr = f.arr ∧ t.ordOf a = k (f.ordOf a) ∧ t.links = (f.bareComp a x r v).links ∧ t.resv = f.resv ∧ t.txns = f.txns ∧
      t.mem = f.mem := by
  obtain ⟨ls, e⟩ := f.sameButLinks_bareComp ha x r v
  dsimp only
  rw [f.bareComp_modOrd ha, e]
  exact ⟨rfl, Fabric.ordOf_modOrd ha k, rfl, rfl, rfl, rfl⟩

end Sys2Proof.Machine

namespace Sys2Proof
open Machine

/-- Settles O45: a good uncached request becomes an item of its agent's unit, and an idle unit releases its only item at
once (R213, R215, R219, R223, R227, R234, log entries 33 and 43). -/
theorem otherRequestsUseTheOrderingUnit : Obligations.OtherRequestsUseTheOrderingUnit := by
  unfold Obligations.OtherRequestsUseTheOrderingUnit
  constructor
  · intro s a hdr data be opnd more d o c hc hop up new first clear alone calm hd own fields region
    let m : Msg := ⟨hdr, reqPay o data be opnd⟩
    obtain ⟨ha, -, -⟩ := (s.linkUp_iff a).mp up
    have frame := s.fab.sameButLinks_begun ha o hdr
    have decl := (s.fab.begun_decl ha o hdr).trans hd
    have caching := Fabric.caching_eq decl
    obtain ⟨may, resv, loc⟩ : (o.cachingOnly = true → dclCaching d = true) ∧ (dclCaching d = true → o ≠ .ldResv ∧ o ≠ .stCond) ∧
        (o.isLine = true → dclCaching d = false ∧ o.cachingOnly = false) := by
      cases is : dclCaching d with
      | true =>
        obtain ⟨unc, resv⟩ := (if_pos is).mp own
        exact ⟨fun _ => rfl, fun _ => resv, fun line => nomatch line.symm.trans unc⟩
      | false =>
        have only := (if_neg (by simp [is])).mp own
        exact ⟨fun h => (nomatch h.symm.trans only), nofun, fun _ => ⟨rfl, only⟩⟩
    have located : (s.fab.begun a o hdr).locationOk a o m.hdr = true := Fabric.locationOk_of decl fun line => by
      simpa [line, (loc line).2] using fields
    have toUnit : (o.isLine && (s.fab.begun a o hdr).caching a) = false := by
      rw [caching]
      cases line : o.isLine with
      | false => rfl
      | true => exact (loc line).1
    have accepts : (s.fab.begun a o hdr).acceptReq s.cfg a o m =
        ((s.fab.begun a o hdr).ordTake s.cfg a (OItem.ofRequest s.cfg o m)).ordRun s.cfg a := by
      rw [Fabric.acceptReq_passes (m := m) (frame.alone.trans alone) _ (fun only => caching.trans (may only)) located,
        if_neg (by simp [toUnit])]
      exact Fabric.toUnit_accepted (m := m) (fun unc => by simpa [unc] using fields) (fun is => resv (caching.symm.trans is)) region
    refine ⟨OItem.ofRequest s.cfg o m, rfl, rfl, rfl, rfl, rfl, rfl, rfl, fun carries two => ?data, fun opnds => ?opnd, fun svc => ?svc,
      reqBytes_reqPay hc, OItem.ofRequest_kind .., exec_request_accepted hc hop up new first clear (.inl calm) _ accepts ?drains⟩
    case data => exact (reqData_reqPay hc).trans (if_pos (Op.slots_of_carries carries two))
    case opnd => rcases opnds with rfl | rfl <;> rfl
    case svc => exact (reqData_reqPay hc).trans (if_pos (by rw [svc]; decide))
    case drains => exact (ordRunN_draining ..).trans (Fabric.ordTake_draining ..)
  · intro f cfg a y ha idle short fresh z t
    have unit : (f.modOrd a (fun o => o.passed y)).ordOf a = (f.ordOf a).passed y := Fabric.ordOf_modOrd ha _
    refine ⟨fun kind op => ?entry, fun kind some_ => ?read, fun kind => ?ldresv, fun kind => ?cbar, fun kind => ?resvClear⟩
    case entry =>
      have e : t = _ := Fabric.ordRun_idle_sent cfg ha idle short fresh (.inl ⟨kind, op⟩)
      have after : t.ordOf a = _ := (congrArg (·.ordOf a) e).trans (unit.trans (Ord.passed_entry kind))
      rw [after, e]
      exact ⟨rfl, rfl, rfl, rfl, rfl, rfl, rfl, rfl⟩
    case read =>
      have e : t = _ := Fabric.ordRun_idle_sent cfg ha idle short fresh (.inr ⟨kind, some_⟩)
      have after : t.ordOf a = _ := (congrArg (·.ordOf a) e).trans unit
      rw [after, e]
      exact ⟨rfl, Ord.passed_items (by simp [kind]), rfl, rfl, rfl, rfl⟩
    case ldresv =>
      have e : t = _ := Fabric.ordRun_idle_ldresv cfg ha idle short fresh kind
      have after : t.ordOf a = _ := (congrArg (·.ordOf a) e).trans unit
      rw [after, e]
      refine ⟨Ord.passed_items (by simp [kind]), Ord.passed_resvAt kind, rfl, fun l last other => ?_, fun same => ?_, rfl, rfl, rfl⟩
      · rw [Ord.clearAhead_other a last other, List.append_assoc]
        rfl
      · rw [Ord.clearAhead_same a same, List.append_nil]
        rfl
    case cbar =>
      have e : t = _ := Fabric.ordRun_idle_cbar cfg ha idle short fresh kind
      obtain ⟨arr, after, links, resv, txns, mem⟩ := f.bareComp_modOrd_frame ha (fun o => o.passed y) (y.txids.headD 0) .ok 0
      rw [e, after]
      exact ⟨arr, Ord.passed_items (by simp [kind]), links, resv, txns, mem⟩
    case resvClear =>
      have empty : ((f.ordOf a).passed y).items = [] := Ord.passed_items (by simp [kind])
      cases last : (f.ordOf a).resvAt with
      | none =>
        have e : t = _ := Fabric.ordRun_idle_resvClear_answered cfg ha idle short fresh kind last
        obtain ⟨arr, after, links, resv, txns, mem⟩ := f.bareComp_modOrd_frame ha (fun o => o.passed y) (y.txids.headD 0) .ok 0
        rw [e, after]
        exact ⟨empty, Ord.passed_resvClear kind, resv, nofun, fun _ => ⟨arr, links⟩, txns, mem⟩
      | some l =>
        have e : t = _ := Fabric.ordRun_idle_resvClear_sent cfg ha idle short fresh kind last
        have after : t.ordOf a = _ := (congrArg (·.ordOf a) e).trans unit
        rw [after, e]
        exact ⟨empty, Ord.passed_resvClear kind, rfl, fun l' same => ⟨by rw [← Option.some.inj same], rfl⟩, nofun, rfl, rfl⟩

end Sys2Proof
end

section
/-! SUPPORT. Responses and forwarded data at the crossbar and at the tracker they name, and what a complete answer to a
snoop does to the Granary (R89 to R97, R104, R109, R113, R119, R144, Table 4.5). -/
namespace Sys2Proof.Machine

/-! ## A response at its port (R45, R46) -/

/-- A response that may act at once leaves the receive buffer, where it lay there, and acts. -/
theorem State.arrive_response {s : State} {a : Nat} {o : Op} {m : Msg} {act : Fabric → Fabric} (hop : hOp m.hdr = o.code)
    (up : s.fab.linkUp a = true) (first : s.first a o m = true) (acts : ∀ f : Fabric, f.actOn s.cfg a o m = act f) :
    s.fab.arrive s.cfg a o m act = act (s.fab.taken a m.hdr) := by
  simp only [State.first, Bool.and_eq_true, Bool.or_eq_true, decide_eq_true_eq, Bool.not_eq_true] at first
  obtain ⟨hq, free⟩ := first
  rcases hq with none | head
  · have gone := Link.any_hdr_of_ofClass_nil hop none
    simp [Fabric.arrive, Fabric.taken, gone, none, Fabric.takeMsgs, up, free]
  · have here : (s.fab.link a).rxq.any (fun x => x.hdr = m.hdr) = true :=
      List.any_eq_true.mpr ⟨m, (List.mem_filter.mp (List.mem_of_head? head)).1, by simp⟩
    rw [Fabric.arrive, here, if_pos rfl, Link.upTo_head head, Fabric.takeMsgs_singleton hop up free, acts, Fabric.taken,
      here, if_pos rfl]

section
variable {s : State} {a : Nat} {hdr : Slot} (up : s.linkUp a = true)
include up

/-- A response acts, and what it lets go on goes on. -/
theorem Fabric.response_first {o : Op} {m : Msg} {act : Fabric → Fabric} (hop : hOp m.hdr = o.code)
    (first : s.first a o m = true) (acts : ∀ f : Fabric, f.actOn s.cfg a o m = act f) :
    (s.fab.response s.cfg a o m act).twinProgress s.cfg = Fabric.goesOn s.cfg (act (s.fab.taken a m.hdr)) := by
  obtain ⟨-, -, upF⟩ := (s.linkUp_iff a).mp up
  rw [Fabric.response, if_neg (by simp [upF]), State.arrive_response hop upF first acts]
  rfl

theorem State.agentRsp_first {o : Op} {act : Fabric → Fabric} (hop : hOp hdr = o.code) (first : s.first a o ⟨hdr, []⟩ = true)
    (acts : ∀ f : Fabric, f.actOn s.cfg a o ⟨hdr, []⟩ = act f) :
    s.agentRsp a o hdr act = s.after (Fabric.goesOn s.cfg (act (s.fab.taken a hdr))) := by
  obtain ⟨ha, on, -⟩ := (s.linkUp_iff a).mp up
  rw [State.agentRsp, if_pos (by simp [ha, hop]), State.atLink_on on]
  exact congrArg s.after (Fabric.response_first (m := ⟨hdr, []⟩) up hop first acts)

theorem exec_compack (hop : hOp hdr = Op.compAck.code) (first : s.first a .compAck ⟨hdr, []⟩ = true) :
    exec (.compack a hdr) s = .next (s.after (Fabric.goesOn s.cfg ((s.fab.taken a hdr).compAck s.cfg a hdr))) :=
  congrArg Host.Outcome.next (State.agentRsp_first up hop first fun _ => rfl)

theorem exec_of_responseOf {o : Op} {c : Instr} (hc : responseOf o a hdr = some c) (hop : hOp hdr = o.code)
    (first : s.first a o ⟨hdr, []⟩ = true) :
    exec c s = .next (s.after (Fabric.goesOn s.cfg ((s.fab.taken a hdr).snoopResp s.cfg a o hdr))) := by
  cases o <;> cases hc <;> exact congrArg Host.Outcome.next (State.agentRsp_first up hop first fun _ => rfl)

theorem exec_datafwd {data : Line} (hop : hOp hdr = Op.dataFwd.code)
    (first : s.first a .dataFwd ⟨hdr, dataSlots data (dtCrit hdr)⟩ = true) :
    exec (.datafwd a hdr data) s = .next (s.after (Fabric.goesOn s.cfg ((s.fab.taken a hdr).dataFwd s.cfg a hdr data))) := by
  obtain ⟨ha, on, -⟩ := (s.linkUp_iff a).mp up
  refine congrArg Host.Outcome.next ((if_pos (by simp [ha, hop])).trans ((State.atLink_on on _).trans (congrArg s.after ?_)))
  exact Fabric.response_first (m := ⟨hdr, dataSlots data (dtCrit hdr)⟩) up hop first fun f =>
    congrArg (f.dataFwd s.cfg a hdr) (lineOfSlots_dataSlots data (dtCrit hdr))

end

/-- To leave the receive buffer changes the links only. -/
theorem Fabric.sameButLinks_taken (f : Fabric) {a : Nat} (ha : a < 32) (hdr : Slot) : f.SameButLinks (f.taken a hdr) := by
  unfold Fabric.taken
  split
  · exact f.sameButLinks_modLink ha _
  · exact .refl f

/-! ## What a response does at its tracker -/

section
variable {f : Fabric} {cfg : Cfg} {a : Nat} {o : Op} {h : Slot} {t : Txn} {sn : Snoop}

theorem Fabric.compAck_named (named : f.txns.find? (fun t => t.htag = hHtag h && t.agent = some a && t.ackDue && ¬ t.ackIn) = some t) :
    f.compAck cfg a h = Fabric.settle cfg (let g := (f.endLive a (hTxid h)).put { t with ackIn := true }
      if t.grant = .e ∨ t.grant = .m then g.startHold cfg t.slice t.la a else g) := by
  rw [Fabric.compAck, named]
  simp

theorem Fabric.compAck_unnamed
    (unnamed : ∀ t ∈ f.txns, ¬ (t.htag = hHtag h ∧ t.agent = some a ∧ t.ackDue = true ∧ t.ackIn = false)) :
    f.compAck cfg a h = f.protoErr a Op.compAck.code 5 := by
  have none : f.txns.find? (fun t => t.htag = hHtag h && t.agent = some a && t.ackDue && ¬ t.ackIn) = none :=
    List.find?_eq_none.mpr fun t ht => by simpa using unnamed t ht
  rw [Fabric.compAck, none]

theorem Fabric.snoopResp_unnamed (unnamed : ∀ t ∈ f.txns, t.htag ≠ hHtag h) : f.snoopResp cfg a o h = f.protoErr a o.code 5 := by
  have none : f.txns.find? (fun t => t.htag = hHtag h) = none := List.find?_eq_none.mpr fun t ht => by simpa using unnamed t ht
  rw [Fabric.snoopResp, none]

section
variable (named : f.txns.find? (fun t => t.htag = hHtag h) = some t)
  (snooped : t.snoops.find? (fun x => x.agent = a && ¬ x.done) = some sn) (first : sn.resp = none) (held : f.heldWb a t.la = none)
include named snooped first held

/-- A KEPT that the snoop does not permit (R89). -/
theorem Fabric.snoopResp_kept (bad : keptOk sn.op o (rsKept h) = false) : f.snoopResp cfg a o h = f.protoErr a o.code 6 := by
  simp only [Fabric.snoopResp, named, snooped, first, held]
  simp [bad]

/-- A response to the snoop is noted with its KEPT. -/
theorem Fabric.snoopResp_noted (found : rsLocmis h = false) (ok : keptOk sn.op o (rsKept h) = true) : f.snoopResp cfg a o h =
    (f.put (t.modSnoop a (fun x => { x with resp := some (o, rsKept h, false) }))).tryAnswer cfg t.slice t.idx a := by
  simp only [Fabric.snoopResp, named, snooped, first, held]
  simp [ok, found]

/-- A response of an agent that did not find the line where the snoop named it counts a mismatch and is noted as RspI
(R144). -/
theorem Fabric.snoopResp_mismatch {k : Nat} (lost : rsLocmis h = true) (ok : keptOk sn.op o (rsKept h) = true)
    (pair : f.twin.pair ≠ .survivor) (op : t.op ≠ .reconcile) (slot : f.gran.slotOf a = some k) : f.snoopResp cfg a o h =
      ((f.mismatch (locNum k sn.cset sn.cway) 0).put (t.modSnoop a (fun x => { x with resp := some (.rspI, 0, true) }))).tryAnswer
        cfg t.slice t.idx a := by
  simp only [Fabric.snoopResp, named, snooped, first, held]
  simp [ok, lost, pair, op, slot]

end

/-! ## Data that an owner forwards (R97, R101) -/

/-- The right TENANT, or none to check, leaves the data to be dealt with by its AGENT. -/
theorem Fabric.dataFwd_tenant (d : Line) (right : ∀ r, cfg.regionOf (dtLaddr h) = some r → dtTenant h = r.tenant) :
    f.dataFwd cfg a h d = if 32 < dtAgent h then f.protoErr a Op.dataFwd.code 7
      else if ¬ f.activeHome (dtLaddr h) then
        { f with twin := { f.twin with dups := Tab.set f.twin.dups (hHtag h) (h, d) } }
      else if dtAgent h = 32 then f.dataToHome cfg a h d
      else f.send (dtAgent h) { hdr := dtSetAgent h a, pay := dataSlots d (dtCrit h) } := by
  cases region : cfg.regionOf (dtLaddr h) with
  | none => simp only [Fabric.dataFwd, region]
  | some r => simp only [Fabric.dataFwd, region, right r region, ne_eq, not_true_eq_false, if_false]

theorem Fabric.dataToHome_named (d : Line) (named : f.txns.find? (fun t => t.htag = hHtag h) = some t)
    (snooped : t.snoops.find? (fun x => x.agent = a && ¬ x.done && (x.op = .snpShared || x.op = .snpOwn)) = some sn)
    (first : sn.dataIn = none) : f.dataToHome cfg a h d =
      (f.put (t.modSnoop a (fun x => { x with dataIn := some (d, dtPoison h) }))).tryAnswer cfg t.slice t.idx a := by
  simp only [Fabric.dataToHome, named, snooped, first]
  rfl

end

/-! ## A complete answer changes the Granary (Table 4.5) -/

section
variable {f : Fabric} {cfg : Cfg} {t : Txn} {sn : Snoop} {st : LSt} {loc kept : Nat}

/-- No record goes to a partner where there is none. -/
theorem Fabric.respRec_alone (alone : f.mirrors = false) (t : Txn) (a : Nat) (st : LSt) (loc : Option Nat) :
    f.respRec t a st loc = f := if_pos (by simp [alone])

theorem Granary.removeAgent_recorded {g : Granary} {a : Nat} {la : LAddr} (rec_ : g.recordOf a la = some (st, loc)) :
    g.removeAgent a la = g.remove loc := by
  rw [Granary.removeAgent, rec_]

theorem Granary.setAgent_recorded {g : Granary} {a : Nat} {la : LAddr} (rec_ : g.recordOf a la = some (st, loc)) (new : LSt) :
    g.setAgent a la new = if new = .i then g.remove loc else g.write loc la new := by
  rw [Granary.setAgent, rec_]

/-- A snoop whose answer is not complete waits. -/
theorem Fabric.tryAnswer_waits (at_ : f.txnAt t.slice t.idx = some t)
    (snooped : t.snoops.find? (fun x => x.agent = sn.agent && ¬ x.done) = some sn)
    (open_ : sn.complete (f.heldWb sn.agent t.la).isSome = false) : f.tryAnswer cfg t.slice t.idx sn.agent = f := by
  rw [Fabric.tryAnswer, at_]
  dsimp only
  rw [snooped]
  exact if_pos (by simp [open_])

/-- A complete answer is acted on. -/
theorem Fabric.tryAnswer_complete {o : Op} (at_ : f.txnAt t.slice t.idx = some t)
    (snooped : t.snoops.find? (fun x => x.agent = sn.agent && ¬ x.done) = some sn) (att : sn.att = false)
    (resp : sn.resp = some (o, kept, false)) (done : sn.complete (f.heldWb sn.agent t.la).isSome = true) :
    f.tryAnswer cfg t.slice t.idx sn.agent =
      ((f.applyAnswer t sn o ((LSt.ofCode kept).getD .i) (if sn.isFwd then none else sn.dataIn)).releaseHeld sn.agent t.la).settle cfg := by
  rw [Fabric.tryAnswer, at_]
  dsimp only
  rw [snooped]
  simp [done, att, resp]

/-- A noted response leaves the line of its tracker as it is. -/
@[simp] theorem Txn.modSnoop_la (a : Nat) (g : Snoop → Snoop) : (t.modSnoop a g).la = t.la := rfl

variable (alone : f.mirrors = false) (rec_ : f.gran.recordOf sn.agent t.la = some (st, loc))
include alone rec_

/-- RspI: the agent's record goes; where the home served the requester or the holder's copy was clean, that is all. -/
theorem Fabric.applyAnswer_rspI (kept : LSt) (d : Option (Line × Bool))
    (clean : sn.op = .snpInv ∨ (st = .s ∨ st = .e) ∧ sn.isFwd = false) :
    f.applyAnswer t sn .rspI kept d =
      ({ f with gran := f.gran.remove loc } : Fabric).put (t.modSnoop sn.agent (fun x => { x with done := true })) := by
  have served : sn.isFwd = false := clean.elim (fun inv => by simp [Snoop.isFwd, inv]) And.right
  unfold Fabric.applyAnswer
  simp only [Txn.modSnoop_la, Fabric.respRec_alone alone, Granary.removeAgent_recorded rec_, rec_, Option.map_some]
  rcases clean with inv | ⟨rfl | rfl, -⟩
  · cases st <;> simp [inv, served]
  · simp [served]
  · simp [served]

/-- RspS: the agent keeps the line in S. -/
theorem Fabric.applyAnswer_rspS (kept : LSt) (d : Option (Line × Bool)) :
    f.applyAnswer t sn .rspS kept d =
      ({ f with gran := f.gran.write loc t.la .s } : Fabric).put (t.modSnoop sn.agent (fun x => { x with done := true })) := by
  unfold Fabric.applyAnswer
  simp only [Txn.modSnoop_la, Fabric.respRec_alone alone, Granary.setAgent_recorded rec_]
  rfl

/-- RspFwd of an owner that served the requester: the agent keeps what its KEPT says. -/
theorem Fabric.applyAnswer_rspFwd (kept : LSt) :
    f.applyAnswer t sn .rspFwd kept none =
      ({ f with gran := if kept = .i then f.gran.remove loc else f.gran.write loc t.la kept } : Fabric).put
        (t.modSnoop sn.agent (fun x => { x with done := true })) := by
  unfold Fabric.applyAnswer
  simp only [Txn.modSnoop_la, Fabric.respRec_alone alone, Granary.setAgent_recorded rec_]

end

end Sys2Proof.Machine

namespace Sys2Proof
open Machine

/-- Settles O47: a response acts on the tracker that its HTAG names, and a complete answer to a snoop changes the
Granary by its kind (R89, R91, R97, R104, R109, R113, R119, R144, Table 4.5). -/
theorem responsesMeetTheirTracker : Obligations.ResponsesMeetTheirTracker := by
  unfold Obligations.ResponsesMeetTheirTracker
  constructor
  · intro s a hdr up b may named
    obtain ⟨ha, -, -⟩ := (s.linkUp_iff a).mp up
    have frame : s.fab.SameButLinks b := s.fab.sameButLinks_taken ha hdr
    have found : ∀ {t}, named t → b.txns.find? (fun t => t.htag = hHtag hdr) = some t := fun hit => by rw [frame.txns]; exact hit
    have unheld : ∀ {la}, s.fab.heldWb a la = none → b.heldWb a la = none := fun held => by
      rw [Fabric.heldWb, frame.txns]; exact held
    have active : s.fab.alone = true → ∀ la, b.activeHome la = true :=
      fun alone => Fabric.activeHome_of_alone (frame.alone.trans alone)
    have responds : ∀ {o c g}, responseOf o a hdr = some c → hOp hdr = o.code → may o [] → b.snoopResp s.cfg a o hdr = g →
        exec c s = .next (s.after (Fabric.goesOn s.cfg g)) :=
      fun hc hop first e => exec_after (exec_of_responseOf up hc hop first) (congrArg (Fabric.goesOn s.cfg) e)
    refine ⟨fun t hop first hit => ?compAck, fun hop first miss => ?compAckBad,
      fun o c t sn hc hop first hit snooped new held =>
        ⟨fun loc kept => ?noted, fun k loc kept pair op slot => ?mismatch, fun kept => ?kept⟩,
      fun o c hc hop first miss => ?unnamed, fun data t sn hop first alone home region hit snooped new => ?home,
      fun data hop first alone other right => ?owner, fun data hop first beyond region => ?beyond⟩
    case compAck =>
      exact exec_after (exec_compack up hop first)
        (congrArg (Fabric.goesOn s.cfg) (Fabric.compAck_named (by rw [frame.txns]; exact hit)))
    case compAckBad =>
      exact exec_after (exec_compack up hop first)
        (congrArg (Fabric.goesOn s.cfg) (Fabric.compAck_unnamed (by rw [frame.txns]; exact miss)))
    case noted => exact responds hc hop first (Fabric.snoopResp_noted (found hit) snooped new (unheld held) loc kept)
    case mismatch =>
      exact responds hc hop first (Fabric.snoopResp_mismatch (found hit) snooped new (unheld held) loc kept
        (by rw [frame.twin]; exact pair) op (by rw [frame.gran]; exact slot))
    case kept => exact responds hc hop first (Fabric.snoopResp_kept (found hit) snooped new (unheld held) kept)
    case unnamed => exact responds hc hop first (Fabric.snoopResp_unnamed (by rw [frame.txns]; exact miss))
    case home =>
      refine exec_after (exec_datafwd up hop first) (congrArg (Fabric.goesOn s.cfg) ?_)
      rw [Fabric.dataFwd_tenant data (fun r hr => nomatch region.symm.trans hr), if_neg (by omega),
        if_neg (not_not_intro (active alone _)), if_pos home]
      exact Fabric.dataToHome_named data (found hit) snooped new
    case owner =>
      refine exec_after (exec_datafwd up hop first) (congrArg (Fabric.goesOn s.cfg) ?_)
      rw [Fabric.dataFwd_tenant data right, if_neg (by omega), if_neg (not_not_intro (active alone _)), if_neg (by omega)]
    case beyond =>
      refine exec_after (exec_datafwd up hop first) (congrArg (Fabric.goesOn s.cfg) ?_)
      rw [Fabric.dataFwd_tenant data (fun r hr => nomatch region.symm.trans hr), if_pos beyond]
  · intro f cfg t sn st loc kept alone at_ snooped att noData rec_ after done
    have acts : ∀ {o n g}, sn.resp = some (o, n, false) → sn.complete (f.heldWb sn.agent t.la).isSome = true →
        f.applyAnswer t sn o ((LSt.ofCode n).getD .i) (if sn.isFwd then none else sn.dataIn) = ({ f with gran := g } : Fabric).put done →
        f.tryAnswer cfg t.slice t.idx sn.agent = after g done := fun resp whole e => by
      rw [Fabric.tryAnswer_complete at_ snooped att resp whole, e]
    refine ⟨fun resp clean => ?rspI, fun resp => ?rspS, fun resp op => ?keeps, fun resp op => ?gives, fun resp owner => ?waits⟩
    case rspI => exact acts resp (by simp [Snoop.complete, resp]) (Fabric.applyAnswer_rspI alone rec_ _ _ clean)
    case rspS => exact acts resp (by simp [Snoop.complete, resp]) (Fabric.applyAnswer_rspS alone rec_ _ _)
    case keeps =>
      have fwd : sn.isFwd = true := by simp [Snoop.isFwd, op]
      refine acts resp (by simp [Snoop.complete, resp, fwd]) ?_
      rw [if_pos fwd]
      exact Fabric.applyAnswer_rspFwd alone rec_ .s
    case gives =>
      have fwd : sn.isFwd = true := by simp [Snoop.isFwd, op]
      refine acts resp (by simp [Snoop.complete, resp, fwd]) ?_
      rw [if_pos fwd]
      exact Fabric.applyAnswer_rspFwd alone rec_ .i
    case waits => exact Fabric.tryAnswer_waits at_ snooped (by simp [Snoop.complete, resp, owner, noData])

end Sys2Proof
end

section
/-! SUPPORT. The arbiter of a slice and its timers, the departure walk, displacement, and Granary words that are read
again, rebuilt or asked of the partner (R111, R113, R126, R127, R142, R146, R149 to R151, R163, R169, R348). -/
namespace Sys2Proof.Machine

/-! ## Commands at a slice and at the memories -/

/-- A command at a slice acts where the slice has power. -/
theorem State.atSlice_on {s : State} {i : Nat} (hi : i < 8) (on : s.on (10 + i) = true) (g : Fabric → Fabric) :
    s.atSlice i g = s.after (g s.fab) := if_pos (by simp [hi, on])

/-- A command of the memories acts while they have power. -/
theorem State.atMem_on {s : State} (on : s.on 10 = true) (g : Fabric → Fabric) : s.atMem g = s.after (g s.fab) := if_pos on

section
variable {s : State} {i : Nat} (hi : i < 8) (on : s.on (10 + i) = true)
include hi on

theorem exec_sliceArbitration (idle : Nat) (corr : List Nat) : exec (.sliceArbitration i idle corr) s =
    .next (s.after (Fabric.goesOn s.cfg (s.fab.arbitrate s.cfg i idle corr))) :=
  congrArg Host.Outcome.next (State.atSlice_on hi on _)

theorem exec_snoopTimeout (n a : Nat) : exec (.snoopTimeout i n a) s =
    .next (s.after (((s.fab.snoopTimeout s.cfg i n a).flow s.cfg).twinProgress s.cfg)) :=
  congrArg Host.Outcome.next (State.atSlice_on hi on _)

theorem exec_displacementTimeout (n : Nat) :
    exec (.displacementTimeout i n) s = .next (s.after (s.fab.displaceTimeout i n)) :=
  congrArg Host.Outcome.next (State.atSlice_on hi on _)

theorem exec_allocWaitExpiry (n : Nat) : exec (.allocWaitExpiry i n) s = .next (s.after (s.fab.allocExpiry s.cfg i n)) :=
  congrArg Host.Outcome.next (State.atSlice_on hi on _)

theorem exec_tagStoreReadReturn (n w : Nat) (err : ErrPat) :
    exec (.tagStoreReadReturn i n w err) s = .next (s.after (s.fab.tagReturn s.cfg i n w err)) :=
  congrArg Host.Outcome.next (State.atSlice_on hi on _)

theorem exec_granaryReread (arr : GWord) (loc row : Nat) (out : GRead) : exec (.granaryReread i arr loc row out) s =
    .next (s.after ((s.fab.granaryReread s.cfg i (gwArray arr) loc row out).flow s.cfg)) :=
  congrArg Host.Outcome.next (State.atSlice_on hi on _)

theorem exec_indexRebuildEnd : exec (.indexRebuildEnd i) s = .next (s.after (s.fab.rebuildEnd s.cfg i)) :=
  congrArg Host.Outcome.next (State.atSlice_on hi on _)

end

section
variable {s : State} (on : s.on 10 = true)
include on

theorem exec_holdExpiry (la : LAddr) (a : Nat) : exec (.holdExpiry la a) s = .next (s.after (s.fab.holdExpiry s.cfg la a)) :=
  congrArg Host.Outcome.next (State.atMem_on on _)

theorem exec_departureWalkRow (k : Nat) : exec (.departureWalkRow k) s = .next (s.after (s.fab.walkRow k)) :=
  congrArg Host.Outcome.next (State.atMem_on on _)

theorem exec_qryAnswer (loc : Nat) (ok : Bool) (e : Option GEntry) : exec (.qryAnswer loc ok e) s =
    .next (s.after (((s.fab.ctlTaken 8).qryAnswer s.cfg loc ok e).flow s.cfg)) :=
  congrArg Host.Outcome.next (State.atMem_on on _)

end

theorem exec_qryRequest {s : State} (on : s.on 8 = true) (loc : Nat) :
    exec (.qryRequest loc) s = .next (s.after ((s.fab.ctlTaken 7).qryRequest loc)) :=
  congrArg Host.Outcome.next (State.atLink_twin on _)

/-! ## One slice cycle of an arbiter (R111) -/

/-- Where no prefetch is queued none issues. -/
theorem issuePfs_none (cfg : Cfg) (s : Nat) {f : Fabric} (queue : f.pfu.queue = []) (n : Nat) :
    issuePfs cfg s (min f.pfu.queue.length n) f = f := by
  rw [queue, List.length_nil, Nat.zero_min, issuePfs]

section
variable {cfg : Cfg} {f : Fabric} {i : Nat}

/-- A slice cycle in which no prefetch is queued, no tracker places parts and every tracker waits: the arbiter takes
what it can of what is delivered, and its pointer moves on. -/
theorem Fabric.arbitrate_still (queue : f.pfu.queue = []) (placers : f.placers i = []) (waits : f.settle cfg = f) (idle : Nat)
    {heads behind left : List Arr} {g : Fabric} {n : Nat}
    (delivered : f.arrHeads [] (f.arr.filter (fun a => sliceOf a.la = i)) = (heads, behind))
    (taken : arbGo cfg i (rankArr ((vget f.prio 0 i + idle) % 16) heads)
      (if ¬ f.slow then 0 else if (vget f.prio 0 i + idle) % 16 % 2 = 0 then 1 else 2) f = (g, left, n))
    (after : g.pfu.queue = []) :
    f.arbitrate cfg i idle [] = Fabric.settle cfg (Fabric.settle cfg { g with
      arr := g.arr.filter (fun a => sliceOf a.la ≠ i) ++ left ++ behind
      prio := vset g.prio i (((vget f.prio 0 i + idle) % 16 + 1) % 16) }) := by
  have calm : (f.placeAll [] idle).settle cfg = f := waits
  simp only [Fabric.arbitrate, List.foldl_nil, issuePfs_none cfg i queue, placers, calm, delivered, taken, after,
    List.length_nil, Nat.zero_min, issuePfs]
  rfl

/-- Nothing waits at the arbiter: its pointer moves on. -/
theorem Fabric.arbitrate_idle (queue : f.pfu.queue = []) (placers : f.placers i = []) (waits : f.settle cfg = f) (idle : Nat)
    (none : ∀ x ∈ f.arr, sliceOf x.la ≠ i) : f.arbitrate cfg i idle [] = Fabric.settle cfg (Fabric.settle cfg
      { f with prio := vset f.prio i (((vget f.prio 0 i + idle) % 16 + 1) % 16) }) := by
  have here : f.arr.filter (fun a => sliceOf a.la = i) = [] := by simpa using none
  have others : f.arr.filter (fun a => sliceOf a.la ≠ i) = f.arr := by simpa using none
  rw [Fabric.arbitrate_still queue placers waits idle (heads := []) (behind := []) (by rw [here]; rfl) rfl queue, others,
    List.append_nil, List.append_nil]

/-- A read of a caching agent takes a free tracker; no prefetch record names its line, and there is no partner to tell. -/
theorem Fabric.acceptArr_read {x : Arr} {a n : Nat} (free : f.freeTracker i = some n) (op : x.op = .req .rdShared)
    (who : x.who = .agent a none) (record : f.pfu.record = []) (single : f.twin.pair = .single) :
    f.acceptArr cfg i x = some { f with nextSeq := f.nextSeq + 1, txns := f.txns ++ [x.toTxn cfg i n f.nextSeq] } := by
  simp [Fabric.acceptArr, free, Arr.toTxn, Txn.isEvict, Fabric.pfMeet, Txn.demandRead, Fabric.recordUsed, Fabric.resvMeet,
    op, who, record, single]

/-- The one message that waits is a read of a caching agent: it takes a free tracker, and the pointer moves on. -/
theorem Fabric.arbitrate_read {x : Arr} {a n : Nat} (queue : f.pfu.queue = []) (placers : f.placers i = [])
    (waits : f.settle cfg = f) (idle : Nat) (record : f.pfu.record = []) (fast : f.slow = false)
    (single : f.twin.pair = .single) (one : f.arr = [x]) (here : sliceOf x.la = i) (free : f.freeTracker i = some n)
    (op : x.op = .req .rdShared) (who : x.who = .agent a none) (caching : f.caching a = true) :
    f.arbitrate cfg i idle [] = Fabric.settle cfg (Fabric.settle cfg { f with
      arr := []
      prio := vset f.prio i (((vget f.prio 0 i + idle) % 16 + 1) % 16)
      nextSeq := f.nextSeq + 1
      txns := f.txns ++ [x.toTxn cfg i n f.nextSeq] }) := by
  have noUnit : f.arrUnit x = none := by simp [Fabric.arrUnit, who, op, caching, Op.isLine]
  rw [Fabric.arbitrate_still queue placers waits idle (heads := [x]) (behind := []) (left := []) (n := 1)
    (g := { f with nextSeq := f.nextSeq + 1, txns := f.txns ++ [x.toTxn cfg i n f.nextSeq] })
    (by simp [one, here, Fabric.arrHeads, noUnit])
    (by simp [rankArr, insertArr, arbGo, fast, op, Fabric.acceptArr_read free op who record single]) queue]
  simp [one, here]

end

/-! ## Timers of a tracker (R126, R127, R142, R169) -/

theorem Op.code_lt (o : Op) : o.code < 2 ^ 6 := by cases o <;> decide

section
variable {op : Op} {tx htag agent crit tenant set way : Nat} {att wait : Bool} {la : LAddr}

theorem mkSnoop_op : hOp (mkSnoop op tx htag agent att wait crit tenant la set way).hdr = op.code := by
  rw [hOp, mkSnoop, bitsOf_pack _ (by decide)]
  exact (bitsOf_packNat (v := op.code) (by simp) (by simp [apart])).trans (Nat.mod_eq_of_lt op.code_lt)

theorem mkSnoop_htag : hHtag (mkSnoop op tx htag agent att wait crit tenant la set way).hdr = htag % 2 ^ 15 := by
  rw [hHtag, mkSnoop, bitsOf_pack _ (by decide)]
  exact bitsOf_packNat (by simp) (by simp [apart])

theorem mkSnoop_att : (mkSnoop op tx htag agent true wait crit tenant la set way).hdr.toNat.testBit 38 = true := by
  have field : bitsOf (mkSnoop op tx htag agent true wait crit tenant la set way).hdr.toNat 38 1 = 1 := by
    rw [mkSnoop, bitsOf_pack _ (by decide)]
    exact bitsOf_packNat (v := b2n true) (by simp) (by simp [apart])
  have bit := testBit_bitsOf (mkSnoop op tx htag agent true wait crit tenant la set way).hdr.toNat 38 1 0
  rw [field] at bit
  simpa using bit.symm

end

section
variable {cfg : Cfg} {f : Fabric} {i n a : Nat} {t : Txn}

/-- The first expiry of a snoop timer: the snoop is sent again with ATTN. -/
theorem Fabric.snoopTimeout_first {sn : Snoop} (at_ : f.txnAt i n = some t)
    (snooped : t.snoops.find? (fun x => x.agent = a && ¬ x.done) = some sn) (att : sn.att = false) :
    ∃ m : Msg, hOp m.hdr = sn.op.code ∧ hHtag m.hdr = t.htag % 2 ^ 15 ∧ m.hdr.toNat.testBit 38 = true ∧
      f.snoopTimeout cfg i n a = (f.put (t.modSnoop a (fun x => { x with att := true }))).send a m := by
  rw [Fabric.snoopTimeout, at_]
  dsimp only
  rw [snooped]
  exact ⟨_, mkSnoop_op, mkSnoop_htag, mkSnoop_att, if_neg (by simp [att])⟩

/-- The second expiry declares the agent dead. -/
theorem Fabric.snoopTimeout_second {sn : Snoop} (at_ : f.txnAt i n = some t)
    (snooped : t.snoops.find? (fun x => x.agent = a && ¬ x.done) = some sn) (att : sn.att = true) :
    f.snoopTimeout cfg i n a = f.declareDead cfg i a := by
  rw [Fabric.snoopTimeout, at_]
  dsimp only
  rw [snooped]
  exact if_pos att

theorem Fabric.displaceTimeout_waiting {loc : Nat} {e : GEntry} (at_ : f.txnAt i n = some t)
    (waits : f.displacing t = some (loc, e)) : f.displaceTimeout i n =
      { f.mismatch loc 2 with arr := f.arr ++ [lineArr 2 (.reclaim (t.agent.getD 0) loc) .reclaim e.la] } := by
  rw [Fabric.displaceTimeout, at_]
  dsimp only
  rw [waits]
  rfl

theorem locBank_lt (loc : Nat) : locBank loc < 8 := Nat.mod_lt _ (by decide)

@[simp] theorem GrnBank.capture_displaceTo (x : GrnBank) (loc kind : Nat) : (x.capture loc kind).displaceTo = x.displaceTo := by
  unfold GrnBank.capture; split <;> rfl

@[simp] theorem GrnBank.capture_lasting (x : GrnBank) (loc kind : Nat) : (x.capture loc kind).lasting = x.lasting := by
  unfold GrnBank.capture; split <;> rfl

/-- A displacement that took too long is counted in the location's bank. -/
theorem Fabric.mismatch_displaceTo (f : Fabric) (loc : Nat) :
    (vget (f.mismatch loc 2).gran.banks GrnBank.zero (locBank loc)).displaceTo =
      bvSat (vget f.gran.banks GrnBank.zero (locBank loc)).displaceTo 1 := by
  simp [Fabric.mismatch, Fabric.raise, Granary.modBank, locBank_lt]

theorem Fabric.allocExpiry_waiting (at_ : f.txnAt i n = some t) (waits : t.allocating = true) : f.allocExpiry cfg i n =
    Fabric.settle cfg ((f.countNoalloc i).put { t with allocating := false, noalloc := true }) := by
  simp [Fabric.allocExpiry, at_, waits]

end

/-! ## Tag words that return (R163) -/

/-- Counting the words that were read leaves the queues and the contents of the memory. -/
theorem Mem.foldl_countBytes_frame (l : List MemReq) : ∀ m : Mem, ∃ tb rows,
    l.foldl (fun (m : Mem) r => (m.countBytes false r.word false).touchRow false r.word) m =
      { m with tapBytes := tb, hbmRows := rows } := by
  induction l with
  | nil => exact fun m => ⟨m.tapBytes, m.hbmRows, rfl⟩
  | cons r l ih => exact fun m => ih _

/-- The first reads of an owner leave the HBM queue. -/
theorem Fabric.takeReads_frame (f : Fabric) (who : Owner) : ∃ tb rows, f.takeReads who = { f with mem := { f.mem with
    hq := f.mem.hq.filter (fun r => ¬ (r.who = who ∧ r.again = false)), tapBytes := tb, hbmRows := rows } } := by
  obtain ⟨tb, rows, h⟩ := Mem.foldl_countBytes_frame (f.mem.hq.filter (fun r => r.who = who && ¬ r.again))
    { f.mem with hq := f.mem.hq.filter (fun r => ¬ (r.who = who && ¬ r.again)) }
  refine ⟨tb, rows, (congrArg (fun m => { f with mem := m }) h).trans ?_⟩
  simp

/-- A word of zeros that is read without an error is good. -/
theorem decodeWord_clean (ddr : Bool) : decodeWord ddr 0 false ErrPat.none = ⟨.good, 0, 0, 0, 0⟩ := if_pos rfl

/-- A good word counts nothing on its first read. -/
theorem Fabric.readCounts_good (cfg : Cfg) (f : Fabric) (ddr : Bool) (word : Nat) {d : Dec} (good : d.kind = .good) :
    f.readCounts cfg ddr word d false = f := by
  simp [Fabric.readCounts, good]

/-- The tag words return without an error: the tracker's tag lookup is at its next stage. -/
theorem Fabric.tagReturn_good {f : Fabric} {cfg : Cfg} {i n : Nat} {t : Txn} (w : Nat) (at_ : f.txnAt i n = some t)
    (stage : t.tagStage = 1) : f.tagReturn cfg i n w ErrPat.none =
      Fabric.settle cfg ((f.takeReads (.tags i n)).put { t with tagStage := 2 }) := by
  obtain ⟨tb, rows, frame⟩ := f.takeReads_frame (.tags i n)
  have at' : (f.takeReads (.tags i n)).txnAt i n = some t := by rw [frame]; exact at_
  rw [Fabric.tagReturn, at']
  dsimp only
  rw [if_neg (by simp [stage]), decodeWord_clean]
  exact (if_pos rfl).trans (by rw [Fabric.readCounts_good cfg _ _ _ rfl])

/-! ## The departure walk (R146) -/

theorem lt_headD {row d : Nat} {l : List Nat} (inside : ∀ x ∈ l, row < x) (beyond : row < d) : row < l.headD d := by
  cases l with
  | nil => exact beyond
  | cons x l => exact inside x List.mem_cons_self

/-- The next row behind `row` that the walk of slot `k` reads: one of a recorded entry, or the end. -/
def Granary.rowAfter (g : Granary) (k row : Nat) : Nat :=
  ((g.entries.filter (fun p => locSlot p.1 = k && row < locSet p.1)).map (fun p => locSet p.1)).headD (2 ^ 14)

theorem Granary.lt_rowAfter (g : Granary) (k : Nat) {row : Nat} (inside : row < 2 ^ 14) : row < g.rowAfter k row := by
  refine lt_headD (fun x hx => ?_) inside
  obtain ⟨p, hp, rfl⟩ := List.mem_map.mp hx
  have later := (List.mem_filter.mp hp).2
  simp only [Bool.and_eq_true, decide_eq_true_eq] at later
  exact later.2

/-- One row of the walk: every entry of the row gets a home line request. -/
theorem Fabric.walkRow_row {f : Fabric} {k row : Nat} (walk : (vget f.gran.slots ⟨none, none⟩ k).walk = some row)
    (inside : row < 2 ^ 14) : f.walkRow k = { f with
      gran := { f.gran with slots := vset f.gran.slots k ⟨f.gran.agentOf k, some (f.gran.rowAfter k row)⟩ }
      arr := f.arr ++ (f.gran.entries.filter (fun p => locSlot p.1 = k && locSet p.1 = row)).map
        (fun p => lineArr 2 (.walk k p.1) .walk p.2.la) } := by
  rw [Fabric.walkRow, walk]
  exact if_pos inside

/-- Behind the last row the slot is freed once nothing of it is recorded and no request of its walk is under way. -/
theorem Fabric.walkRow_end {f : Fabric} {k row : Nat} (walk : (vget f.gran.slots ⟨none, none⟩ k).walk = some row)
    (past : 2 ^ 14 ≤ row) (empty : f.gran.count k = 0) (arr : f.arr = []) (txns : f.txns = []) :
    f.walkRow k = { f with gran := { f.gran with slots := vset f.gran.slots k ⟨none, none⟩ } } := by
  rw [Fabric.walkRow, walk]
  exact (if_neg (Nat.not_lt.mpr past)).trans (if_pos (by simp [empty, arr, txns]))

/-! ## Granary words that are read again (R149 to R151) -/

theorem bvSat_toNat {w : Nat} (x : BitVec w) (n : Nat) : (bvSat x n).toNat = min (2 ^ w - 1) (x.toNat + n) := by
  rw [bvSat, satAdd, BitVec.toNat_ofNat]
  exact Nat.mod_eq_of_lt (by have := Nat.two_pow_pos w; omega)

section
variable (f : Fabric) (k old new n : Nat)

theorem Fabric.raiseEvery_frame : ∃ rs, f.raiseEvery k old new n = { f with raised := rs } := by
  unfold Fabric.raiseEvery
  split
  · exact ⟨_, rfl⟩
  · exact ⟨f.raised, rfl⟩

@[simp] theorem Fabric.raiseEvery_gran : (f.raiseEvery k old new n).gran = f.gran :=
  (f.raiseEvery_frame k old new n).elim fun _ h => h ▸ rfl

@[simp] theorem Fabric.raiseEvery_txns : (f.raiseEvery k old new n).txns = f.txns :=
  (f.raiseEvery_frame k old new n).elim fun _ h => h ▸ rfl

end

theorem Fabric.raiseEvery_due (f : Fabric) {k old new n : Nat} (more : old < new) (due : new % k = 0) :
    (n, 0) ∈ (f.raiseEvery k old new n).raised := by
  rw [Fabric.raiseEvery, if_pos (by simp [more, due])]
  simp [Fabric.raise]

theorem gwArray_entry (arr : GWord) : gwArray arr = .entry ↔ arr = .entry := by cases arr <;> simp [gwArray]

section
variable {cfg : Cfg} {f : Fabric} {b : Nat} {arr : GArray} {loc row : Nat} {out : GRead}

/-- A word that is good when it is read again, or good once corrected, counts a transient fault; each 256th raises the
source of its bank. -/
theorem Fabric.granaryReread_usable (usable : out ≠ .bad) : f.granaryReread cfg b arr loc row out =
    ({ f with gran := f.gran.modBank b (fun x => { x with
        transient := bvSat (vget f.gran.banks GrnBank.zero b).transient 1
        corr := if out = .corrected ∧ arr = .entry then bvSat x.corr 1 else x.corr }) } : Fabric).raiseEvery 256
      (vget f.gran.banks GrnBank.zero b).transient.toNat
      (bvSat (vget f.gran.banks GrnBank.zero b).transient 1).toNat (72 + b) := by
  simp [Fabric.granaryReread, usable]

end

theorem Fabric.elogWrite_frame (f : Fabric) (e : Elog) :
    ∃ gl rs, f.elogWrite e = { f with gln := gl, raised := f.raised ++ rs } := by
  unfold Fabric.elogWrite
  dsimp only
  split
  · exact ⟨_, _, rfl⟩
  · exact ⟨_, [], by rw [List.append_nil]⟩

theorem Fabric.nominate_frame (f : Fabric) (block row loc dram : Nat) :
    ∃ gl, f.nominate block row loc dram = { f with gln := gl } := by
  unfold Fabric.nominate
  split
  · exact ⟨f.gln, rfl⟩
  · exact ⟨_, rfl⟩

/-- A lasting array fault is logged, told as source 173 and nominated for repair (R318). -/
theorem Fabric.arrayFault_frame (f : Fabric) (array inst row : Nat) : ∃ gl rs, f.arrayFault array inst row =
    { f with gln := gl, raised := f.raised ++ rs ++ [(173, 0)] } := by
  unfold Fabric.arrayFault
  generalize packNat [(0, 16, row), (16, 8, array), (24, 3, inst)] = loc
  obtain ⟨gl, rs, logged⟩ := f.elogWrite_frame { Elog.zero with block := 10, kind := 7, loc := BitVec.ofNat 48 loc }
  obtain ⟨gl', nominated⟩ := Fabric.nominate_frame (({ f with gln := gl, raised := f.raised ++ rs } : Fabric).raise 173) 10
    loc loc 10
  dsimp only
  rw [logged]
  exact ⟨gl', rs, nominated⟩

/-- The number of an array in the error log (Table 11.9). -/
def GArray.code : GArray → Nat
  | .entry => 1
  | .link => 2
  | .bucket => 3

/-- A lasting fault of a Granary word is counted and captured in its bank, told, logged and written to the journal
(R149, R154). -/
def Fabric.countLasting (f : Fabric) (b : Nat) (arr : GArray) (loc row : Nat) : Fabric :=
  let g := Fabric.arrayFault (Fabric.raise { f with
    gran := f.gran.modBank b (fun x => { x with lasting := bvSat x.lasting 1 }.capture loc 3) } (72 + b)) arr.code b row
  { g with jreq := g.jreq ++ [(0x16, row, 8 * arr.code + b)] }

/-- Counting a lasting fault of a word changes its bank, the error log, the events and the journal's requests. -/
theorem Fabric.countLasting_frame (f : Fabric) (b : Nat) (arr : GArray) (loc row : Nat) : ∃ gl rs js,
    f.countLasting b arr loc row = { f with
      gran := f.gran.modBank b (fun x => { x with lasting := bvSat x.lasting 1 }.capture loc 3)
      gln := gl
      raised := f.raised ++ [(72 + b, 0)] ++ rs ++ [(173, 0)]
      jreq := js } := by
  obtain ⟨gl, rs, told⟩ := Fabric.arrayFault_frame (Fabric.raise { f with
    gran := f.gran.modBank b (fun x => { x with lasting := bvSat x.lasting 1 }.capture loc 3) } (72 + b)) arr.code b row
  exact ⟨gl, rs, _, by rw [Fabric.countLasting, told]; rfl⟩

section
variable (f : Fabric) (b : Nat) (arr : GArray) (loc row : Nat)

theorem Fabric.countLasting_gran : (f.countLasting b arr loc row).gran =
    f.gran.modBank b (fun x => { x with lasting := bvSat x.lasting 1 }.capture loc 3) :=
  (f.countLasting_frame b arr loc row).elim fun _ ⟨_, _, h⟩ => h ▸ rfl

@[simp] theorem Fabric.countLasting_entries : (f.countLasting b arr loc row).gran.entries = f.gran.entries := by
  rw [Fabric.countLasting_gran, Granary.modBank]

@[simp] theorem Fabric.countLasting_twin : (f.countLasting b arr loc row).twin = f.twin :=
  (f.countLasting_frame b arr loc row).elim fun _ ⟨_, _, h⟩ => h ▸ rfl

@[simp] theorem Fabric.countLasting_txns : (f.countLasting b arr loc row).txns = f.txns :=
  (f.countLasting_frame b arr loc row).elim fun _ ⟨_, _, h⟩ => h ▸ rfl

@[simp] theorem Fabric.countLasting_mirrors : (f.countLasting b arr loc row).mirrors = f.mirrors := by
  simp only [Fabric.mirrors, Fabric.countLasting_twin]

theorem Fabric.countLasting_tells :
    (72 + b, 0) ∈ (f.countLasting b arr loc row).raised ∧ (173, 0) ∈ (f.countLasting b arr loc row).raised := by
  obtain ⟨gl, rs, js, h⟩ := f.countLasting_frame b arr loc row
  simp [h]

/-- The bank of the lost word counts it. -/
theorem Fabric.countLasting_lasting (hb : b < 8) : (vget (f.countLasting b arr loc row).gran.banks GrnBank.zero b).lasting =
    bvSat (vget f.gran.banks GrnBank.zero b).lasting 1 := by
  simp [Fabric.countLasting_gran, Granary.modBank, hb]

end

/-! ### A word that is bad again (R149 to R151) -/

/-- The chains of bank `b` begin to be rebuilt, which is told (R150). -/
def Fabric.startRebuild (f : Fabric) (b : Nat) : Fabric :=
  ({ f with gran := f.gran.modBank b (fun x => { x with rebuild := true }) } : Fabric).raise (72 + b)

/-- The partner is asked for the entry of a location (R151). -/
def Fabric.askPartner (f : Fabric) (loc : Nat) : Fabric :=
  ({ f with gran := { f.gran with queries := addOnce loc f.gran.queries } } : Fabric).sendCtl 7 loc

theorem mem_addOnce {α : Type} [BEq α] [LawfulBEq α] (x : α) (l : List α) : x ∈ addOnce x l := by
  unfold addOnce
  split
  next listed => exact List.contains_iff_mem.mp listed
  · simp

section
variable (f : Fabric) {b : Nat} (loc : Nat)

theorem Fabric.startRebuild_rebuild (hb : b < 8) : (vget (f.startRebuild b).gran.banks GrnBank.zero b).rebuild = true := by
  simp [Fabric.startRebuild, Fabric.raise, Granary.modBank, hb]

theorem Fabric.startRebuild_lasting (hb : b < 8) :
    (vget (f.startRebuild b).gran.banks GrnBank.zero b).lasting = (vget f.gran.banks GrnBank.zero b).lasting := by
  simp [Fabric.startRebuild, Fabric.raise, Granary.modBank, hb]

@[simp] theorem Fabric.startRebuild_raised : (f.startRebuild b).raised = f.raised ++ [(72 + b, 0)] := rfl
@[simp] theorem Fabric.startRebuild_entries : (f.startRebuild b).gran.entries = f.gran.entries := rfl
@[simp] theorem Fabric.startRebuild_txns : (f.startRebuild b).txns = f.txns := rfl

theorem Fabric.askPartner_queries : loc ∈ (f.askPartner loc).gran.queries := mem_addOnce _ _

@[simp] theorem Fabric.askPartner_sentCtl : (f.askPartner loc).twin.sentCtl = f.twin.sentCtl ++ [(7, loc)] := rfl
@[simp] theorem Fabric.askPartner_banks : (f.askPartner loc).gran.banks = f.gran.banks := rfl
@[simp] theorem Fabric.askPartner_entries : (f.askPartner loc).gran.entries = f.gran.entries := rfl

end

section
variable {cfg : Cfg} {f : Fabric} {b loc row : Nat}

/-- A link or bucket word: the chains of its bank are to be rebuilt. -/
theorem Fabric.granaryReread_chains {arr : GArray} (other : arr ≠ .entry) :
    f.granaryReread cfg b arr loc row .bad = (f.countLasting b arr loc row).startRebuild b := by
  cases arr with
  | entry => exact absurd rfl other
  | link => rfl
  | bucket => rfl

/-- An entry word is asked of the partner where there is one, and is lost where there is none. -/
theorem Fabric.granaryReread_entry : f.granaryReread cfg b .entry loc row .bad =
    if f.mirrors then (f.countLasting b .entry loc row).askPartner loc
    else (f.countLasting b .entry loc row).entryLost cfg b loc := by
  rw [← f.countLasting_mirrors b .entry loc row]
  rfl

end

/-! ### A lost entry word (R151, R154) -/

/-- No agent holds the slot of a lost entry: the bucket of its line is tainted, and that is all. -/
theorem Fabric.entryLost_unheld (cfg : Cfg) {g : Fabric} {loc : Nat} {e : GEntry} (c : Nat)
    (found : Tab.find g.gran.entries loc = some e) (unheld : g.gran.agentOf (locSlot loc) = none) : g.entryLost cfg c loc =
      Fabric.raise { g with gran := { g.gran with
        taint := addOnce (g.gran.bucket e.la) g.gran.taint
        banks := vmod g.gran.banks (bucketBank e.la) (fun x => { x with taintSet := true }) } } (72 + bucketBank e.la) := by
  simp only [Fabric.entryLost, found]
  simp only [Fabric.raise, Granary.modBank, Granary.agentOf] at unheld ⊢
  rw [unheld]

theorem sliceOf_lt (la : LAddr) : sliceOf la < 8 := by
  have bit : ∀ b : Bool, b2n b ≤ 1 := fun b => by cases b <;> decide
  have h0 := bit (xorStep (la.toNat / 64) 3 0 14)
  have h1 := bit (xorStep (la.toNat / 64) 3 1 13)
  have h2 := bit (xorStep (la.toNat / 64) 3 2 13)
  simp only [sliceOf]
  omega

theorem Fabric.rebuildEnd_running {f : Fabric} {b : Nat} (cfg : Cfg)
    (running : (vget f.gran.banks GrnBank.zero b).rebuild = true) :
    f.rebuildEnd cfg b =
      (({ f with gran := f.gran.modBank b (fun x => { x with rebuild := false }) } : Fabric).raise (72 + b)).settle cfg :=
  if_pos running

/-! ## Granary words asked of the partner, and by it (R151, R348) -/

@[simp] theorem Fabric.ctlTaken_gran (f : Fabric) (kind : Nat) : (f.ctlTaken kind).gran = f.gran :=
  (f.ctlTaken_frame kind).elim fun _ h => h ▸ rfl

/-- The query for a location is answered. -/
def Granary.unasked (g : Granary) (loc : Nat) : Granary := { g with queries := g.queries.filter (fun y => y ≠ loc) }

section
variable {cfg : Cfg} {f : Fabric} {loc : Nat} (asked : loc ∈ f.gran.queries)
include asked

theorem Fabric.qryAnswer_entry (x : GEntry) :
    f.qryAnswer cfg loc true (some x) = { f with gran := (f.gran.unasked loc).place loc x.la x.st } :=
  if_neg (by simp [asked])

theorem Fabric.qryAnswer_nothing : f.qryAnswer cfg loc true none = { f with gran := (f.gran.unasked loc).remove loc } :=
  if_neg (by simp [asked])

theorem Fabric.qryAnswer_failed (e : Option GEntry) :
    f.qryAnswer cfg loc false e = Fabric.entryLost cfg { f with gran := f.gran.unasked loc } (locBank loc) loc :=
  if_neg (by simp [asked])

end

/-- The twin link has no part in the numbers of a partner's slots. -/
theorem Fabric.slotHere_tlink (f : Fabric) (tl : Link) (k : Nat) :
    ({ f with tlink := tl } : Fabric).slotHere k = f.slotHere k := by
  have agent : ∀ n, ({ f with tlink := tl } : Fabric).mapAgent n = f.mapAgent n := by
    intro n
    unfold Fabric.mapAgent
    dsimp only
    cases f.twin.agentMap.find? (fun m => m.2.1 = n) with
    | none => rfl
    | some m =>
      refine List.find?_congr fun a ha => ?_
      have port : a ≠ 32 := Nat.ne_of_lt (List.mem_range.mp ha)
      rw [Fabric.link, Fabric.link, if_neg port, if_neg port]
  unfold Fabric.slotHere Fabric.mapSlot
  simp only [agent]

/-- The entry of this device that a partner's query for a location means. -/
def Fabric.queried (f : Fabric) (loc : Nat) : Option GEntry :=
  (f.slotHere (locSlot loc)).bind (fun k => Tab.find f.gran.entries (locNum k (locSet loc) (locWay loc)))

/-- The word that answers a query for a location with the entry found there. -/
def queryWord (loc : Nat) : Option GEntry → Nat
  | some e => packNat [(0, 22, loc), (22, 1, 1), (23, 46, e.la.toNat), (69, 3, e.st.code)]
  | none => packNat [(0, 22, loc)]

theorem Fabric.qryRequest_eq (f : Fabric) (loc : Nat) : f.qryRequest loc = f.sendCtl 8 (queryWord loc (f.queried loc)) := by
  unfold Fabric.qryRequest Fabric.queried
  cases f.slotHere (locSlot loc) with
  | none => rfl
  | some k =>
    dsimp only [Option.map_some, Option.bind_some]
    cases Tab.find f.gran.entries (locNum k (locSet loc) (locWay loc)) <;> rfl

theorem Fabric.ctlTaken_queried (f : Fabric) (kind loc : Nat) : (f.ctlTaken kind).queried loc = f.queried loc := by
  obtain ⟨tl, h⟩ := f.ctlTaken_frame kind
  rw [h, Fabric.queried, Fabric.slotHere_tlink, Fabric.queried]

theorem LSt.code_lt (st : LSt) : st.code < 2 ^ 3 := by cases st <;> decide

theorem queryWord_none (loc : Nat) : queryWord loc none = loc % 2 ^ 22 := by simp [queryWord, packNat]

theorem queryWord_loc (loc : Nat) (e : Option GEntry) : queryWord loc e % 2 ^ 22 = loc % 2 ^ 22 := by
  cases e with
  | none => rw [queryWord_none, Nat.mod_mod]
  | some e =>
    exact bitsOf_packNat (fs := [(0, 22, loc), (22, 1, 1), (23, 46, e.la.toNat), (69, 3, e.st.code)]) (off := 0)
      (by simp) (by simp [apart])

section
variable (loc : Nat) (e : GEntry)

theorem queryWord_found : (queryWord loc (some e)).testBit 22 = true :=
  (testBit_packNat _ _).mpr ⟨(22, 1, 1), by simp, by decide, by decide, by decide⟩

theorem queryWord_la : bitsOf (queryWord loc (some e)) 23 46 = e.la.toNat :=
  (bitsOf_packNat (v := e.la.toNat) (by simp) (by simp [apart])).trans (Nat.mod_eq_of_lt e.la.isLt)

theorem queryWord_st : bitsOf (queryWord loc (some e)) 69 3 = e.st.code :=
  (bitsOf_packNat (v := e.st.code) (by simp) (by simp [apart])).trans (Nat.mod_eq_of_lt e.st.code_lt)

end

end Sys2Proof.Machine

namespace Sys2Proof
open Machine

/-- Settles O48: each event of a home slice, of the departure walk and of the Granary's words, by the rule of that event
(R111, R113, R126, R127, R142, R146, R149 to R151, R163, R169). -/
theorem homeSlicesAndTheGranaryWork : Obligations.HomeSlicesAndTheGranaryWork := by
  unfold Obligations.HomeSlicesAndTheGranaryWork
  constructor
  · intro s i hi on f goes turn still
    refine ⟨fun idle ⟨queue, placers, waits⟩ none => ?idle,
      fun idle x n ⟨queue, placers, waits⟩ record fast single one here free op ⟨a, who, caching⟩ => ?admits,
      fun la a mem => ?hold, fun n a t sn at_ snooped att => ?snoopAgain, fun n a t sn at_ snooped att => ?agentDead,
      fun k row mem _ walk inside => ?walkRow, fun k row mem _ walk past empty arr txns => ?walkEnd,
      fun n t loc e at_ waits => ?displaced, fun n t at_ waits => ?allocWait, fun n t w at_ stage => ?tagWords,
      fun n => ?tagReads⟩
    case idle =>
      exact exec_after (exec_sliceArbitration hi on idle [])
        (congrArg (Fabric.goesOn s.cfg) (Fabric.arbitrate_idle queue placers waits idle none))
    case admits =>
      exact exec_after (exec_sliceArbitration hi on idle [])
        (congrArg (Fabric.goesOn s.cfg)
          (Fabric.arbitrate_read queue placers waits idle record fast single one here free op who caching))
    case hold => exact exec_holdExpiry mem la a
    case snoopAgain =>
      obtain ⟨m, op, htag, attn, sent⟩ := Fabric.snoopTimeout_first (cfg := s.cfg) at_ snooped att
      exact ⟨m, op, htag, attn, exec_after (exec_snoopTimeout hi on n a) (by rw [sent])⟩
    case agentDead =>
      exact exec_after (exec_snoopTimeout hi on n a) (by rw [Fabric.snoopTimeout_second at_ snooped att])
    case walkRow =>
      exact ⟨_, f.gran.lt_rowAfter k inside, exec_after (exec_departureWalkRow mem k) (Fabric.walkRow_row walk inside)⟩
    case walkEnd => exact exec_after (exec_departureWalkRow mem k) (Fabric.walkRow_end walk past empty arr txns)
    case displaced =>
      exact ⟨_, exec_after (exec_displacementTimeout hi on n) (Fabric.displaceTimeout_waiting at_ waits), rfl, rfl,
        f.mismatch_displaceTo loc, rfl, rfl⟩
    case allocWait => exact exec_after (exec_allocWaitExpiry hi on n) (Fabric.allocExpiry_waiting at_ waits)
    case tagWords => exact exec_after (exec_tagStoreReadReturn hi on n w _) (Fabric.tagReturn_good w at_ stage)
    case tagReads =>
      obtain ⟨tb, rows, h⟩ := f.takeReads_frame (.tags i n)
      rw [h]
      exact ⟨rfl, rfl, rfl⟩
  · intro s b hb on mem
    dsimp only
    have lost := fun arr loc row => s.fab.countLasting_lasting b arr loc row hb
    have tells := s.fab.countLasting_tells b
    refine ⟨fun arr loc row out usable => ?usable, fun arr loc row other => ?chains, fun loc row alone => ?lost,
      fun g c loc e found unheld => ?tainted, fun loc row pair => ?asked, fun running => ?rebuilt,
      fun loc x asked => ?answeredEntry, fun loc asked => ?answeredNone, fun loc e asked => ?answeredLost,
      fun loc twin => ?answers⟩
    case usable =>
      refine ⟨_, exec_after (exec_granaryReread hb on arr loc row out)
        (congrArg (Fabric.flow s.cfg) (Fabric.granaryReread_usable usable)),
        ?_, by rw [Fabric.raiseEvery_gran]; rfl, Fabric.raiseEvery_txns .., fun due more => ?_⟩
      · simp [Granary.modBank, hb, gwArray_entry]
      · have counts := bvSat_toNat (vget s.fab.gran.banks GrnBank.zero b).transient 1
        exact Fabric.raiseEvery_due _ (by omega) (by omega)
    case chains =>
      have other' : gwArray arr ≠ .entry := fun h => other ((gwArray_entry arr).mp h)
      obtain ⟨-, toldArray⟩ := tells (gwArray arr) loc row
      exact ⟨_, exec_after (exec_granaryReread hb on arr loc row .bad)
          (congrArg (Fabric.flow s.cfg) (Fabric.granaryReread_chains other')),
        Fabric.startRebuild_rebuild _ hb, (Fabric.startRebuild_lasting _ hb).trans (lost _ loc row),
        by simp, by simp [toldArray], by simp, by simp⟩
    case lost =>
      obtain ⟨toldBank, toldArray⟩ := tells .entry loc row
      exact ⟨_, exec_after (exec_granaryReread hb on .entry loc row .bad)
          (congrArg (Fabric.flow s.cfg) (Fabric.granaryReread_entry.trans (if_neg (ne_true_of_eq_false alone)))),
        lost .entry loc row, toldBank, toldArray, by simp, by simp⟩
    case tainted =>
      rw [Fabric.entryLost_unheld s.cfg c found unheld]
      exact ⟨rfl, by simp [Fabric.raise, bucketBank, sliceOf_lt], rfl, rfl, rfl⟩
    case asked =>
      exact ⟨_, exec_after (exec_granaryReread hb on .entry loc row .bad)
          (congrArg (Fabric.flow s.cfg) (Fabric.granaryReread_entry.trans (if_pos pair))),
        Fabric.askPartner_queries _ loc, by simp, by rw [Fabric.askPartner_banks, lost], by simp⟩
    case rebuilt =>
      exact ⟨_, exec_after (exec_indexRebuildEnd hb on) (Fabric.rebuildEnd_running s.cfg running),
        by simp [Fabric.raise, Granary.modBank, hb], rfl, rfl, rfl⟩
    case answeredEntry =>
      exact ⟨_, exec_after (exec_qryAnswer mem loc true (some x)) (by rw [Fabric.qryAnswer_entry (by simpa using asked)]),
        by rw [Fabric.ctlTaken_gran]; rfl⟩
    case answeredNone =>
      exact ⟨_, exec_after (exec_qryAnswer mem loc true none) (by rw [Fabric.qryAnswer_nothing (by simpa using asked)]),
        by rw [Fabric.ctlTaken_gran]; rfl⟩
    case answeredLost =>
      exact ⟨_, exec_after (exec_qryAnswer mem loc false e) (by rw [Fabric.qryAnswer_failed (by simpa using asked)]),
        by rw [Fabric.ctlTaken_gran]; rfl⟩
    case answers =>
      refine ⟨queryWord loc (s.fab.queried loc), exec_after (exec_qryRequest twin loc)
        (by rw [Fabric.qryRequest_eq, Fabric.ctlTaken_queried]), queryWord_loc _ _, fun none => ?_,
        fun k slot => ⟨fun none => ?_, fun e found => ?_⟩⟩
      · simp [Fabric.queried, none, queryWord_none]
      · simp [Fabric.queried, slot, none, queryWord_none]
      · have here : s.fab.queried loc = some e := by rw [Fabric.queried, slot]; exact found
        rw [here]
        exact ⟨queryWord_found loc e, queryWord_la loc e, queryWord_st loc e⟩

end Sys2Proof
end

section
/-! SUPPORT. The end of a step of a drain: at once, or with the acknowledgement of its record in a pair; and the state
that refutes the order of the steps as it is stated. -/

namespace Sys2Proof.Machine

/-! ## The end of a step (R327, Table 13.5) -/

/-- The record that step `what` begins has gone to the partner, and its acknowledgement is awaited. -/
def State.stepLogged (s : State) (what : Nat) : State :=
  { s with
    fab := (s.fab.logRec (stewRec what 1)).1
    stw := { s.stw with stepGate := some (s.fab.logRec (stewRec what 1)).2 } }

/-- A step or sub-step ends in `t`, at once where no partner follows, else once the partner has acknowledged the record
of the step that begins; `goes u` says that the command leads to `u`. -/
def State.StepEnds (s : State) (goes : State → Prop) (t : State) : Prop :=
  ((s.fab.mirrors = false ∨ s.stw.stopping = true) → goes t) ∧
    (s.fab.mirrors = true → s.stw.stopping = false →
      (s.stw.stepGate = none → s.fab.logFull = true → goes s) ∧
      (s.stw.stepGate = none → s.fab.logFull = false → goes (s.stepLogged (t.stw.step + 16 * t.stw.sub))) ∧
      (∀ k, s.stw.stepGate = some k → s.fab.unacked k = true → goes s) ∧
      (∀ k, s.stw.stepGate = some k → s.fab.unacked k = false → goes { t with stw := { t.stw with stepGate := none } }))

section
variable {s : State} {g : State → State}

theorem State.stepBy_free (free : s.fab.mirrors = false ∨ s.stw.stopping = true) : s.stepBy g = g s :=
  if_pos (by rcases free with h | h <;> simp [h])

theorem State.stepBy_still (step : (g s).stw.step = s.stw.step) (sub : (g s).stw.sub = s.stw.sub) : s.stepBy g = g s :=
  if_pos (by simp [step, sub])

theorem State.stepBy_gated (mirrors : s.fab.mirrors = true) (goesOn : s.stw.stopping = false)
    (moved : (g s).stw.step ≠ s.stw.step ∨ (g s).stw.sub ≠ s.stw.sub) :
    s.stepBy g = match s.stw.stepGate with
      | some k => if s.fab.unacked k then s else (g s).modStw (fun w => { w with stepGate := none })
      | none => if s.fab.logFull then s else s.stepLogged ((g s).stw.step + 16 * (g s).stw.sub) :=
  if_neg (by rcases moved with h | h <;> simp [mirrors, goesOn, h])

/-- What moves the drain on by `g` ends the step in `g s`. -/
theorem State.stepBy_ends {goes : State → Prop} {t : State} (here : g s = t)
    (moved : t.stw.step ≠ s.stw.step ∨ t.stw.sub ≠ s.stw.sub) (run : goes (s.stepBy g)) : s.StepEnds goes t := by
  subst here
  refine ⟨fun free => (State.stepBy_free (g := g) free) ▸ run, fun mirrors goesOn => ?_⟩
  rw [State.stepBy_gated mirrors goesOn moved] at run
  refine ⟨fun gate full => ?_, fun gate room => ?_, fun k gate waits => ?_, fun k gate acked => ?_⟩
  · simpa [gate, full] using run
  · simpa [gate, room] using run
  · simpa [gate, waits] using run
  · rw [gate] at run
    simpa only [acked, Bool.false_eq_true, if_false, State.modStw] using run

end

theorem exec_drainStepEnd {s : State} (up : s.stw.up = true) (on : s.stw.step ≠ 8) :
    exec .drainStepEnd s = .next (s.followed (s.stepBy State.nextStep)) := by
  show Host.Outcome.next (s.drainMove _) = _
  rw [State.drainMove, if_pos up, if_neg on]
  rfl

/-! ## Step 4 in a pair (Table 12.2) -/

/-- The record of the step after step 4 names the sub-step along with the step. -/
theorem exec_drainStepEnd_four {s : State} (up : s.stw.up = true) (four : s.stw.step = 4) (mirrors : s.fab.mirrors = true)
    (acked : s.fab.twin.outstanding = []) (late : s.fab.twin.late = []) (goesOn : s.stw.stopping = false)
    (gate : s.stw.stepGate = none) :
    exec .drainStepEnd s = .next (s.followed (s.stepLogged (5 + 16 * s.stw.sub))) := by
  have next : s.nextStep = { s with wgb := s.wgb.closeShort, stw := { s.stw with step := 5 } } := by
    simp [State.nextStep, four, acked, late]
  have room : s.fab.logFull = false := by simp [Fabric.logFull, acked, late]
  rw [exec_drainStepEnd up (by omega), State.stepBy_gated mirrors goesOn (.inl (by simp [next, four])), gate, next]
  simp [room]

/-- A mirroring device at step 4 of a drain whose sub-step field holds 1, which steps 1 to 6 of a drain leave at 0. -/
def subStepAtFour : State :=
  { State.reset with
    fab := { State.reset.fab with twin := { Twin.init with pair := .paired } }
    stw := { Stw.init with up := true, step := 4, sub := 1 } }

/-- The records whose acknowledgement by the partner is awaited. -/
def Fabric.awaited (f : Fabric) : List (Option (Line × Bool)) := f.twin.outstanding.map (·.data)

end Sys2Proof.Machine

namespace Sys2Proof
open Machine

/-- Refutes O56: in a pair the model sends, at the end of step 4, the record of step 5 and of the sub-step
(5 + 16 · sub-step), where the statement has the record 5 for every state at step 4. They differ in a state whose
sub-step is not 0 (`Machine.subStepAtFour`). -/
theorem not_drainStepsEndInOrder : ¬ Obligations.DrainStepsEndInOrder := by
  unfold Obligations.DrainStepsEndInOrder
  intro h
  obtain ⟨inOrder, -⟩ := h
  obtain ⟨-, -, -, -, -, -, -, atFour, -⟩ := inOrder subStepAtFour rfl
  obtain ⟨-, mirroring⟩ := atFour rfl
  obtain ⟨begins, -⟩ := mirroring rfl rfl rfl rfl
  have sent := exec_drainStepEnd_four (s := subStepAtFour) rfl rfl rfl rfl rfl rfl rfl
  have same := congrArg (·.fab.awaited) (Host.Outcome.next.inj (sent.symm.trans (begins rfl)))
  revert same
  decide +kernel

end Sys2Proof
end

section
/-! SUPPORT. The sub-steps 7a to 7g of a drain, and what ends them: the flushes, the repairs, the written configuration,
the disagreement, the commit, the stopped state and step 8. -/

namespace Sys2Proof.Machine

/-! ## The sub-steps (Table 12.4) -/

theorem exec_drainSubstepEnd {s : State} (up : s.stw.up = true) (dis : Nat) (oks : List Bool) (partner : Bool) :
    exec (.drainSubstepEnd dis oks partner) s = .next (s.followed (s.stepBy (fun s => s.nextSub dis oks partner))) := by
  show Host.Outcome.next (s.drainMove _) = _
  rw [State.drainMove, if_pos up]
  rfl

/-- The command that ends a sub-step leads to `u`, with what follows from it. -/
def State.subGoes (s : State) (dis : Nat) (oks : List Bool) (partner : Bool) (u : State) : Prop :=
  exec (.drainSubstepEnd dis oks partner) s = .next (s.followed u)

section
variable {s t : State} {dis : Nat} {oks : List Bool} {partner : Bool}

theorem State.subGoes_still (up : s.stw.up = true) (here : s.nextSub dis oks partner = t)
    (step : t.stw.step = s.stw.step) (sub : t.stw.sub = s.stw.sub) : s.subGoes dis oks partner t := by
  subst here
  rw [State.subGoes, exec_drainSubstepEnd up, State.stepBy_still step sub]

theorem State.subGoes_ends (up : s.stw.up = true) (here : s.nextSub dis oks partner = t)
    (moved : t.stw.step ≠ s.stw.step ∨ t.stw.sub ≠ s.stw.sub) : s.StepEnds (s.subGoes dis oks partner) t :=
  State.stepBy_ends here moved (exec_drainSubstepEnd up dis oks partner)

variable (seven : s.stw.step = 7)
include seven

theorem State.nextSub_7b (sub : s.stw.sub = 1) : s.nextSub dis oks partner = s.start7b := by
  simp [State.nextSub, seven, sub]

theorem State.nextSub_stop {m : Nat} (sub : s.stw.sub = 2) (stop : s.stw.by_ = .stop m) :
    s.nextSub dis oks partner = if s.fab.queue1Empty && s.fab.mem.dq = [] then s.stopped m else s := by
  simp [State.nextSub, seven, sub, stop]

theorem State.nextSub_flushed (sub : s.stw.sub = 2) (on : ∀ m, s.stw.by_ ≠ .stop m) :
    s.nextSub dis oks partner = if s.fab.queue1Empty && (¬ s.disabling || s.dirtySum = 0)
      then s.end7b.modStw (fun w => { w with sub := 3 }) else s := by
  simp [State.nextSub, seven, sub]

theorem State.nextSub_7c (sub : s.stw.sub = 3) :
    s.nextSub dis oks partner = (s.repairs oks).modStw (fun w => { w with sub := 4 }) := by
  simp [State.nextSub, seven, sub]

theorem State.nextSub_7d (sub : s.stw.sub = 4) : s.nextSub dis oks partner = (s.write7d s.stw.staged).start7e := by
  simp [State.nextSub, seven, sub]

theorem State.nextSub_7e (sub : s.stw.sub = 5) : s.nextSub dis oks partner =
    if s.stw.rewrite || s.fab.gran.slots.toList.any (fun c => c.walk.isSome) then s
    else s.modStw (fun w => { w with sub := 6 }) := by
  simp [State.nextSub, seven, sub]

theorem State.nextSub_7f (sub : s.stw.sub = 6) :
    s.nextSub dis oks partner = (s.end7f dis).modStw (fun w => { w with sub := 7 }) := by
  simp [State.nextSub, seven, sub]

theorem State.nextSub_7g (sub : s.stw.sub = 7) :
    s.nextSub dis oks partner = if s.commit7g.together && ¬ partner then s.commit7g else s.commit7g.step8 := by
  simp [State.nextSub, seven, sub]

end

/-! ## Sub-step 7b: flushes, Cober invalidation, the clean (R182, R188) -/

theorem State.disabling_iff (s : State) : s.disabling = true ↔
    ∃ i, i < 8 ∧ s.stw.before.cacheEn i = true ∧ s.stw.staged.cacheEn i = false := by
  simp [State.disabling]

/-- A range of at most 2²⁷ pages is flushed by one descriptor. -/
theorem State.flushPages_one (s : State) {base limit : Nat} (ordered : base ≤ limit) (short : limit < base + 2 ^ 27) :
    s.flushPages base limit = (s.internal 50 (mkDesc 3 0 (base * 4096) ((limit + 1 - base) * 4096) false)).1 := by
  have count : (limit + 1 - base + 2 ^ 27 - 1) / 2 ^ 27 = 1 := by omega
  have all : min (2 ^ 27) (limit + 1 - base) = limit + 1 - base := by omega
  simp only [State.flushPages, count, List.range_one, List.foldl_cons, List.foldl_nil, Nat.zero_mul, Nat.add_zero,
    Nat.sub_zero, all]

/-- The ranges that 7b flushes: the changed regions that are cacheable (R182). -/
def Stw.flushed (w : Stw) : List RgnWords := (w.before.changed w.staged).filter (fun r => r.rtype.cacheable)

/-- Sub-step 7b has begun and the changed regions have their flushes. -/
def State.flushing (s : State) : State :=
  s.stw.flushed.foldl (fun s r => s.flushPages r.base r.limit) (s.modStw (fun w => { w with sub := 2 }))

theorem State.flushing_none {s : State} (noFlush : s.stw.flushed = []) :
    s.flushing = s.modStw (fun w => { w with sub := 2 }) := by
  rw [State.flushing, noFlush]; rfl

theorem State.flushing_one {s : State} {r : RgnWords} (one : s.stw.flushed = [r]) (ordered : r.base ≤ r.limit)
    (short : r.limit < r.base + 2 ^ 27) : s.flushing = { s with
      fab := (s.fab.enqueue 50 (mkDesc 3 0 (r.base * 4096) ((r.limit + 1 - r.base) * 4096) false) none).1
      stw := { s.stw with sub := 2 } } := by
  rw [State.flushing, one, List.foldl_cons, List.foldl_nil, State.flushPages_one _ ordered short]
  rfl

theorem State.flushPages_frame (s : State) (base limit : Nat) : ∃ f, s.flushPages base limit = { s with fab := f } := by
  unfold State.flushPages
  dsimp only
  generalize List.range _ = l
  induction l generalizing s with
  | nil => exact ⟨s.fab, rfl⟩
  | cons i l ih =>
    obtain ⟨f, rest⟩ := ih (s.internal 50 (mkDesc 3 0 ((base + i * 2 ^ 27) * 4096)
      (min (2 ^ 27) (limit + 1 - base - i * 2 ^ 27) * 4096) false)).1
    exact ⟨f, rest⟩

theorem State.flushing_frame (s : State) : ∃ f, s.flushing = { s with fab := f, stw := { s.stw with sub := 2 } } := by
  have all : ∀ (l : List RgnWords) (t : State), ∃ f, l.foldl (fun s r => s.flushPages r.base r.limit) t = { t with fab := f } := by
    intro l
    induction l with
    | nil => exact fun t => ⟨t.fab, rfl⟩
    | cons r l ih =>
      intro t
      obtain ⟨f, one⟩ := t.flushPages_frame r.base r.limit
      obtain ⟨f', rest⟩ := ih { t with fab := f }
      exact ⟨f', by rw [List.foldl_cons, one, rest]⟩
  exact all _ _

/-- The Cober partition has been invalidated. -/
def State.coberDropped (s : State) : State := { s with fab := { s.fab with cache := s.fab.cache.dropCober } }

section
variable {s : State} (on : ∀ m, s.stw.by_ ≠ .stop m) (noInval : s.stw.opts.testBit 2 = false)
include on noInval

/-- The end of 7a of a drain that neither stops the device nor flushes every region. -/
theorem State.start7b_eq : s.start7b =
    let t := if s.stw.staged.coberGib ≠ s.stw.before.coberGib || s.stw.staged.coberWays ≠ s.stw.before.coberWays
      then s.flushing.coberDropped else s.flushing
    if s.stw.opts.testBit 1 || s.disabling then (t.internal 50 cleanAll).1 else t := by
  have flush : ((s.stw.before.changed s.stw.staged).filter (fun w => w.rtype.cacheable)).foldl
      (fun s w => s.flushPages w.base w.limit) (s.modStw (fun w => { w with sub := 2 })) = s.flushing := rfl
  have disabling : ∀ t : State, t.stw = s.flushing.stw → t.disabling = s.disabling := by
    obtain ⟨f, flushing⟩ := s.flushing_frame
    intro t same
    simp [State.disabling, same, flushing]
  have cleans : ∀ t : State, t.stw = s.flushing.stw →
      (if (s.stw.opts.testBit 1 || (decide ¬False && t.disabling)) = true then (t.internal 50 cleanAll).1 else t) =
        if s.stw.opts.testBit 1 || s.disabling then (t.internal 50 cleanAll).1 else t := by
    intro t same
    simp [disabling t same]
  simp only [State.start7b, Bool.false_eq_true, if_false, flush, State.modStw_stw, noInval]
  by_cases differ : (s.stw.staged.coberGib ≠ s.stw.before.coberGib || s.stw.staged.coberWays ≠ s.stw.before.coberWays) = true
  · simp only [if_pos differ]
    exact cleans s.flushing.coberDropped rfl
  · simp only [if_neg differ]
    exact cleans s.flushing rfl

/-- With Cober as it was, 7b ends with the flushes and, where one is due, the clean. -/
theorem State.start7b_same (same : s.stw.staged.coberGib = s.stw.before.coberGib ∧ s.stw.staged.coberWays = s.stw.before.coberWays) :
    s.start7b = if s.stw.opts.testBit 1 || s.disabling then (s.flushing.internal 50 cleanAll).1 else s.flushing := by
  rw [State.start7b_eq on noInval]
  simp only [same, ne_eq, not_true_eq_false, decide_false, Bool.or_self, Bool.false_eq_true, if_false]

/-- A Cober partition whose size or ways change is invalidated. -/
theorem State.start7b_differ (differ : ¬ (s.stw.staged.coberGib = s.stw.before.coberGib ∧ s.stw.staged.coberWays = s.stw.before.coberWays))
    (noClean : s.stw.opts.testBit 1 = false) (able : s.disabling = false) : s.start7b = s.flushing.coberDropped := by
  have differs : (s.stw.staged.coberGib ≠ s.stw.before.coberGib || s.stw.staged.coberWays ≠ s.stw.before.coberWays) = true := by
    simpa [imp_iff_not_or] using differ
  rw [State.start7b_eq on noInval]
  simp only [if_pos differs, noClean, able, Bool.or_self, Bool.false_eq_true, if_false]

end

/-! ## What the end of a sub-step does to the ports (R333, Table 19.4) -/

/-- Between two fabrics only links and what is kept per port differ, and events of `g` have been added. -/
def Fabric.PortsOnly (f g : Fabric) : Prop := ∃ ls tl od lf rs,
  g = { f with links := ls, tlink := tl, ord := od, laneFault := lf, raised := f.raised ++ rs }

theorem Fabric.PortsOnly.refl (f : Fabric) : f.PortsOnly f := ⟨f.links, f.tlink, f.ord, f.laneFault, [], by simp⟩

/-- The links and what is kept per port have changed, and no event was raised. -/
theorem Fabric.portsOnly_ports (f : Fabric) (ls : Vector Link 32) (tl : Link) (od : Vector Ord 32) (lf : Vector (BitVec 8) 16) :
    f.PortsOnly { f with links := ls, tlink := tl, ord := od, laneFault := lf } := ⟨ls, tl, od, lf, [], by simp⟩

theorem Fabric.PortsOnly.trans {f g h : Fabric} (fg : f.PortsOnly g) (gh : g.PortsOnly h) : f.PortsOnly h := by
  obtain ⟨ls, tl, od, lf, rs, rfl⟩ := fg
  obtain ⟨ls', tl', od', lf', rs', rfl⟩ := gh
  exact ⟨ls', tl', od', lf', rs ++ rs', by simp⟩

theorem Fabric.PortsOnly.foldl {α : Type} {k : Fabric → α → Fabric} (one : ∀ (f : Fabric) (x : α), f.PortsOnly (k f x)) :
    ∀ (l : List α) (f : Fabric), f.PortsOnly (l.foldl k f)
  | [], f => .refl f
  | x :: l, f => (one f x).trans (Fabric.PortsOnly.foldl one l (k f x))

theorem Fabric.portsOnly_setLink (f : Fabric) (a : Nat) (l : Link) : f.PortsOnly (f.setLink a l) := by
  unfold Fabric.setLink
  split
  · exact f.portsOnly_ports f.links l f.ord f.laneFault
  · exact f.portsOnly_ports _ f.tlink f.ord f.laneFault

theorem Fabric.portsOnly_raise (f : Fabric) (n : Nat) : f.PortsOnly (f.raise n) :=
  ⟨f.links, f.tlink, f.ord, f.laneFault, [(n, 0)], rfl⟩

theorem Fabric.portsOnly_evtIrqAll (f : Fabric) (source count : Nat) : f.PortsOnly (f.evtIrqAll source count) := by
  obtain ⟨ls, tl, sent⟩ := f.evtIrqAll_frame source count
  exact ⟨ls, tl, f.ord, f.laneFault, [], by simp [sent]⟩

theorem Fabric.portsOnly_retrain (f : Fabric) (a : Nat) (rate : BitVec 2) : f.PortsOnly (f.retrain a rate) :=
  (f.portsOnly_setLink a _).trans (Fabric.portsOnly_raise _ _)

theorem Fabric.portsOnly_linkDark (f : Fabric) (a : Nat) : f.PortsOnly (f.linkDark a) := by
  unfold Fabric.linkDark
  split
  · exact f.portsOnly_ports f.links _ f.ord f.laneFault
  · have dark : f.PortsOnly { f with
        links := vset f.links a (Link.init .disabled)
        ord := vset f.ord a Ord.init
        laneFault := if a % 2 = 0 then vset f.laneFault (a / 2) 0 else f.laneFault } :=
      f.portsOnly_ports _ f.tlink _ _
    dsimp only
    split
    · exact dark
    · exact dark.trans (Fabric.portsOnly_raise _ _)

section
variable {f g : Fabric} (h : f.PortsOnly g)
include h
theorem Fabric.PortsOnly.mem : g.mem = f.mem := by obtain ⟨_, _, _, _, _, rfl⟩ := h; rfl
theorem Fabric.PortsOnly.txns : g.txns = f.txns := by obtain ⟨_, _, _, _, _, rfl⟩ := h; rfl
theorem Fabric.PortsOnly.gran : g.gran = f.gran := by obtain ⟨_, _, _, _, _, rfl⟩ := h; rfl
theorem Fabric.PortsOnly.twin : g.twin = f.twin := by obtain ⟨_, _, _, _, _, rfl⟩ := h; rfl
theorem Fabric.PortsOnly.raised {e : Nat × Nat} (he : e ∈ f.raised) : e ∈ g.raised := by
  obtain ⟨_, _, _, _, _, rfl⟩ := h
  exact List.mem_append_left _ he
end

/-- Between two states only power domains of ports and what `Fabric.PortsOnly` names differ. -/
def State.PortsOnly (s t : State) : Prop := ∃ f p, s.fab.PortsOnly f ∧ t = { s with fab := f, pcr := p }

theorem State.PortsOnly.refl (s : State) : s.PortsOnly s := ⟨s.fab, s.pcr, .refl _, rfl⟩

theorem State.PortsOnly.trans {s t u : State} (st : s.PortsOnly t) (tu : t.PortsOnly u) : s.PortsOnly u := by
  obtain ⟨f, p, ports, rfl⟩ := st
  obtain ⟨f', p', ports', rfl⟩ := tu
  exact ⟨f', p', ports.trans ports', rfl⟩

theorem State.portsOnly_switchPorts (s : State) (j : Nat) (want : Bool) : s.PortsOnly (s.switchPorts j want) := by
  unfold State.switchPorts
  dsimp only
  split
  · exact ⟨_, _, .refl _, rfl⟩
  · split
    · exact ⟨_, _, s.fab.portsOnly_linkDark 32, rfl⟩
    · exact ⟨_, _, .foldl (fun f i => f.portsOnly_linkDark (4 * j + i)) _ _, rfl⟩

theorem State.portsOnly_portDomains (s : State) : s.PortsOnly s.portDomains := by
  have one : ∀ (t : State) (j : Nat) (want : Bool), t.PortsOnly (if want == t.on j then t else t.switchPorts j want) := by
    intro t j want
    split
    · exact .refl t
    · exact t.portsOnly_switchPorts j want
  have all : ∀ (l : List Nat) (t : State), t.PortsOnly (l.foldl (fun s j =>
      let want := s.cfg.portEn (2 * j) || s.cfg.portEn (2 * j + 1)
      if want == s.on j then s else s.switchPorts j want) t) := by
    intro l
    induction l with
    | nil => exact .refl
    | cons j l ih => exact fun t => (one t j _).trans (ih _)
  exact (all _ s).trans (one _ 8 _)

/-- A port's links are reset only where the condition `due` on its number holds. -/
theorem Fabric.foldl_resetPort_none (cfg : Cfg) (due : Nat → Bool) (f : Fabric) (noneDue : ∀ n, n < 16 → due n = false) :
    (List.range 16).foldl (fun f n => if due n then f.resetPort cfg n else f) f = f := by
  have noneDue' : ∀ n ∈ List.range 16, due n = false := fun n hn => noneDue n (List.mem_range.mp hn)
  revert noneDue'
  generalize List.range 16 = l
  intro noneDue'
  induction l with
  | nil => rfl
  | cons n l ih =>
    simp only [List.foldl_cons, noneDue' n List.mem_cons_self, Bool.false_eq_true, if_false]
    exact ih (fun n hn => noneDue' n (List.mem_cons_of_mem _ hn))

/-- Writing a configuration touches itself, the fabric and the power domains only. -/
theorem State.write7d_frame (s : State) (new : Cfg) : ∃ f p, s.write7d new = { s with cfg := new, fab := f, pcr := p } := by
  have domains : ∀ g, ∃ f p, ({ s with cfg := new, fab := g } : State).portDomains = { s with cfg := new, fab := f, pcr := p } := by
    intro g
    obtain ⟨f, p, -, eq⟩ := ({ s with cfg := new, fab := g } : State).portsOnly_portDomains
    exact ⟨f, p, eq⟩
  exact domains _

/-- Where no port is disabled, writing a configuration resets none. -/
theorem State.write7d_ports {s : State} {new : Cfg} (kept : ∀ n, n < 16 → s.cfg.portEn n = true → new.portEn n = true) :
    s.fab.PortsOnly (s.write7d new).fab := by
  have noneDue : ∀ n, n < 16 → (s.cfg.portEn n && ¬ new.portEn n) = false := by
    intro n hn
    have := kept n hn
    simpa using this
  unfold State.write7d
  dsimp only
  rw [Fabric.foldl_resetPort_none s.cfg _ s.fab noneDue]
  have twin : s.fab.PortsOnly (if (s.cfg.twinEn && ¬ new.twinEn) = true then s.fab.setLink 32 (Link.init .disabled) else s.fab) := by
    split
    · exact s.fab.portsOnly_setLink 32 _
    · exact .refl _
  obtain ⟨f, p, ports, eq⟩ := ({ s with cfg := new, fab := _ } : State).portsOnly_portDomains
  rw [eq]
  exact twin.trans ports

/-! ## Sub-steps 7d and 7e (R331, R62, R182) -/

/-- Where no SPLIT changes, 7e touches the caches only. -/
theorem State.start7e_cache {s : State} (same : ∀ n, n < 16 → s.stw.before.split n = s.cfg.split n) :
    ∃ c, s.start7e.fab = { s.fab with cache := c } := by
  have noneDue : ∀ n, n < 16 → (s.stw.before.split n ≠ s.cfg.split n && s.cfg.portEn n) = false := by
    intro n hn
    simp [same n hn]
  unfold State.start7e
  dsimp only
  rw [Fabric.foldl_resetPort_none s.cfg _ s.fab noneDue]
  split
  · exact ⟨_, rfl⟩
  · exact ⟨s.fab.cache, rfl⟩

/-! ## Sub-step 7c: pending repairs (Table 11.10) -/

theorem Fabric.mem_raised_raise (f : Fabric) (n : Nat) : (n, 0) ∈ (f.raise n).raised := by simp [Fabric.raise]

theorem Journal.append_entries (j : Journal) (rtype key : Nat) (body : List Nat) :
    (j.append rtype key body).entries = j.entries ++ [⟨j.nextSeq, rtype, key, body, false⟩] := rfl

theorem State.repairs_idle {s : State} (idle : ∀ r ∈ s.fab.gln.repairs, r.state ≠ 1) (oks : List Bool) : s.repairs oks = s := by
  rw [State.repairs, List.filter_eq_nil_iff.mpr]
  · rfl
  · intro i _
    cases here : s.fab.gln.repairs[i]? with
    | none => simp
    | some r => simpa using idle r (List.mem_of_getElem? here)

/-- What becomes of a pending repair, which the memory's own test grants or refuses (R290, R311). -/
def State.repaired (s : State) (r : Repair) (granted : Bool) : Repair :=
  { r with state := if granted then 2 else 3, epoch := s.stw.jrnl.committed + 1 }

/-- The repair is granted: its outcome is good and its DRAM has not been declared faulty (R311). -/
def State.grants (s : State) (r : Repair) (outcome : Bool) : Bool :=
  outcome && ¬ (4 ≤ r.block && r.block < 10 && s.fab.gln.faulty.contains (r.block, s.fab.rankOf r.loc, r.dram))

theorem State.grants_eq (s : State) (r : Repair) (outcome : Bool) : s.grants r outcome =
    if 4 ≤ r.block ∧ r.block < 10 ∧ (r.block, s.fab.rankOf r.loc, r.dram) ∈ s.fab.gln.faulty then false else outcome := by
  by_cases dead : 4 ≤ r.block ∧ r.block < 10 ∧ (r.block, s.fab.rankOf r.loc, r.dram) ∈ s.fab.gln.faulty
  · simp [State.grants, dead]
  · have alive : (4 ≤ r.block && r.block < 10 && s.fab.gln.faulty.contains (r.block, s.fab.rankOf r.loc, r.dram)) = false := by
      rw [Bool.eq_false_iff]
      simpa [and_assoc] using dead
    rw [if_neg dead, State.grants, alive]
    simp

theorem State.repairs_one {s : State} {r : Repair} (one : s.fab.gln.repairs = [r]) (pending : r.state = 1) (oks : List Bool) :
    s.repairs oks = s.repairOne 0 (oks.getD 0 true) := by
  simp [State.repairs, one, pending, List.range_succ]

/-- The outcome of a repair is recorded, journalled and told to the partner. -/
def State.repairNoted (s : State) (r : Repair) (i : Nat) (granted : Bool) : State :=
  (({ s with fab := { s.fab with gln := { s.fab.gln with repairs := s.fab.gln.repairs.set i (s.repaired r granted) } } } :
    State).modStw (fun w => w.log 0x30 i (s.repaired r granted).body)).tellPartner (i + 2 ^ 16 * (s.repaired r granted).state) 2

/-- The counters of a block and its events are no part of the repairs, of the configuration or of the metering, and
the journal only grows. -/
def State.Counts (s t : State) : Prop :=
  t.fab.gln = s.fab.gln ∧ s.stw.jrnl.entries ⊆ t.stw.jrnl.entries ∧ t.stw.step = s.stw.step ∧ t.stw.sub = s.stw.sub ∧
    t.cfg = s.cfg ∧ t.wgb = s.wgb

/-- A repair is noted, counted in its block, and signalled. -/
theorem State.repairOne_eq {s : State} {i : Nat} {r : Repair} (here : s.fab.gln.repairs[i]? = some r) (outcome : Bool) :
    ∃ u, (s.repairNoted r i (s.grants r outcome)).Counts u ∧
      s.repairOne i outcome = u.raise (if s.grants r outcome then 173 else 174) := by
  unfold State.repairOne
  rw [here]
  dsimp only
  have granted : (outcome && decide ¬(4 ≤ r.block && r.block < 10 &&
    s.fab.gln.faulty.contains (r.block, s.fab.rankOf r.loc, r.dram)) = true) = s.grants r outcome := rfl
  rw [granted]
  generalize s.grants r outcome = ok
  refine ⟨_, ?_, rfl⟩
  split
  · exact ⟨rfl, List.Subset.refl _, rfl, rfl, rfl, rfl⟩
  · split
    · cases ok with
      | true => exact ⟨rfl, List.subset_append_left _ _, rfl, rfl, rfl, rfl⟩
      | false => exact ⟨rfl, List.Subset.refl _, rfl, rfl, rfl, rfl⟩
    · exact ⟨rfl, List.Subset.refl _, rfl, rfl, rfl, rfl⟩

/-- What the only repair of the list leaves when it is applied or refused. -/
theorem State.repairOne_first {s : State} {r : Repair} (one : s.fab.gln.repairs = [r]) (outcome : Bool) :
    let t := s.repairOne 0 outcome
    let ok := s.grants r outcome
    t.fab.gln.repairs = [s.repaired r ok] ∧ (if ok then 173 else 174, 0) ∈ t.fab.raised ∧
      (∃ e ∈ t.stw.jrnl.entries, e.rtype = 0x30 ∧ e.key = 0 ∧ e.body = (s.repaired r ok).body) ∧
      t.stw.step = s.stw.step ∧ t.cfg = s.cfg ∧ t.wgb = s.wgb := by
  obtain ⟨u, ⟨gln, grows, step, sub, cfg, wgb⟩, eq⟩ := s.repairOne_eq (i := 0) (by rw [one]; rfl) outcome
  intro t ok
  refine ⟨?_, ?_, ⟨⟨s.stw.jrnl.nextSeq, 0x30, 0, (s.repaired r ok).body, false⟩, ?_, rfl, rfl, rfl⟩, ?_, ?_, ?_⟩
  all_goals simp only [t, eq]
  · rw [State.raise_fab, Fabric.raise, gln]
    simp [State.repairNoted, State.tellPartner, one, ok]
  · exact Fabric.mem_raised_raise _ _
  · exact grows (List.mem_append_right _ List.mem_cons_self)
  · exact step
  · exact cfg
  · exact wgb

/-! ## Sub-step 7f (Table 13.4) -/

theorem State.end7f_agrees {s : State} {dis : Nat} (agrees : dis = 0 ∨ s.together = false) : s.end7f dis = s :=
  if_pos (by rcases agrees with h | h <;> simp [h])

/-- The pair disagrees: the previous configuration is back. -/
theorem State.end7f_disagrees {s : State} {dis : Nat} (disagrees : dis ≠ 0) (pair : s.together = true) :
    let t := ({ s with fab := s.fab.disagree dis, stw := { s.stw with disagree := dis } } : State).write7d s.stw.before
    s.end7f dis = if dis = 2 && ¬ t.fab.primary then { t with fab := t.fab.isolate t.cfg } else t :=
  if_neg (by simp [disagrees, pair])

/-! ## Sub-step 7g (R324, R331) -/

/-- A number is read back from as many bytes as it needs. -/
theorem leNat_leBytes : ∀ (n x : Nat), x < 256 ^ n → leNat (leBytes x n) = x
  | 0, x, h => by
    have : x = 0 := by simpa using h
    simp [leBytes, leNat, this]
  | n + 1, x, h => by
    have rest := leNat_leBytes n (x / 256) (by rw [Nat.pow_succ] at h; omega)
    rw [leBytes, leNat, rest]
    omega

theorem Journal.committed_append (j : Journal) (n : Nat) (digest : BitVec 384) (opts : Nat) (fits : n < 2 ^ 32) :
    (j.append 0x10 1 (epochBody n digest opts)).committed = n := by
  have body : (epochBody n digest opts).take 4 = leBytes n 4 := by
    simp [epochBody]
  unfold Journal.committed Journal.last
  rw [Journal.append_entries]
  simp [body, leNat_leBytes 4 n (by omega)]

/-- An image goes to the journal. -/
theorem Stw.logImage_frame (w : Stw) (kind : Nat) (c : Cfg) : ∃ j, w.logImage kind c = { w with jrnl := j } := by
  unfold Stw.logImage
  generalize List.range 3 = l
  induction l generalizing w with
  | nil => exact ⟨w.jrnl, rfl⟩
  | cons i l ih => exact ih (w.log 0x11 (16 * kind + i) ((c.image.drop (832 * i)).take 832))

/-- The epoch number is committed: the fabric has it and the journal holds it. -/
theorem State.commit7g_new {s : State} (first : s.stw.done7g = false) : ∃ j, s.commit7g = { s with
      fab := { s.fab with epoch := s.stw.jrnl.committed + 1 }
      stw := { s.stw with jrnl := j, done7g := true } } ∧
    (s.stw.jrnl.committed + 1 < 2 ^ 32 → j.committed = s.stw.jrnl.committed + 1) := by
  obtain ⟨j, image⟩ := s.stw.logImage_frame 1 s.cfg
  refine ⟨j.append 0x10 1 (epochBody (s.stw.jrnl.committed + 1) s.cfg.digest s.stw.opts), ?_,
    Journal.committed_append j _ _ _⟩
  rw [State.commit7g, if_neg (by simp [first])]
  dsimp only
  rw [image]
  rfl

/-- Sub-step 7g commits once. -/
theorem State.commit7g_frame (s : State) : ∃ j, s.commit7g = { s with
    fab := { s.fab with epoch := if s.stw.done7g = true then s.fab.epoch else s.stw.jrnl.committed + 1 }
    stw := { s.stw with jrnl := j, done7g := true } } := by
  by_cases done : s.stw.done7g = true
  · refine ⟨s.stw.jrnl, ?_⟩
    rw [State.commit7g, if_pos done, if_pos done, ← done]
  · obtain ⟨j, eq, -⟩ := State.commit7g_new (Bool.eq_false_iff.mpr done)
    exact ⟨j, by rw [eq, if_neg done]⟩

/-! ## The command of the drain completes (R422, R446) -/

/-- Between two Stewards the drain is the same: its step and sub-step, the configurations, the drains that wait. -/
def Stw.SameDrain (w v : Stw) : Prop :=
  v.step = w.step ∧ v.sub = w.sub ∧ v.staged = w.staged ∧ v.waiting = w.waiting

/-- The Steward after a completion: mailboxes, queues of commands and the alert line have changed. -/
theorem State.answer_frame (s : State) (m st : Nat) (resp : List Nat) : ∃ mb sq uq lg al,
    (s.answer m st resp).stw = { s.stw with mbox := mb, sq := sq, uq := uq, longs := lg, smbAlert := al } := by
  unfold State.answer
  dsimp only
  split
  · exact ⟨_, _, _, _, _, rfl⟩
  · split
    · rw [State.alert_stw]
      exact ⟨_, _, _, _, _, rfl⟩
    · exact ⟨_, _, _, _, _, rfl⟩

/-- STATUS of a completion: a success after a restart or a retry has its own (R427, R428). -/
def Mbox.statusOf (b : Mbox) (status : Nat) : Nat :=
  if status ≠ 0 then status else if b.rerun then 0x06F1 else if b.faults = 1 then 0x06F0 else 0

/-- Steward at a completion: the commit record is in the journal, and EPOCH_APPLY leaves the LAST fields (R428, R446). -/
theorem State.complete_eq (s : State) (m status : Nat) (resp : List Nat) : ∃ w : Stw,
    s.complete m status resp = ({ s with stw := w } : State).answer m ((s.stw.mb m).statusOf status) resp ∧
      s.stw.SameDrain w ∧ w.mbox = s.stw.mbox ∧ ((s.stw.mb m).opcode = 0x0201 → w.lastMb = m ∧
        w.lastTag = (s.stw.mb m).cmdTag ∧ w.lastStatus = (s.stw.mb m).statusOf status ∧ w.lastEpoch = s.fab.epoch) := by
  unfold State.complete
  by_cases apply : (s.stw.mb m).opcode = 0x0201
  · simp only [apply, if_true]
    split <;> exact ⟨_, rfl, ⟨rfl, rfl, rfl, rfl⟩, rfl, fun _ => ⟨rfl, rfl, rfl, rfl⟩⟩
  · simp only [apply, if_false]
    split <;> exact ⟨_, rfl, ⟨rfl, rfl, rfl, rfl⟩, rfl, False.elim⟩

/-- A completion leaves the drain as it is. -/
theorem State.complete_sameDrain (s : State) (m status : Nat) (resp : List Nat) :
    s.stw.SameDrain (s.complete m status resp).stw := by
  obtain ⟨w, eq, ⟨step, sub, staged, waiting⟩, -, -⟩ := s.complete_eq m status resp
  obtain ⟨_, _, _, _, _, stw⟩ := State.answer_frame ({ s with stw := w } : State) m ((s.stw.mb m).statusOf status) resp
  rw [eq, stw]
  exact ⟨step, sub, staged, waiting⟩

section
variable {s : State} {m : Nat} (kept : (s.stw.mb m).discard = false) (status : Nat) (resp : List Nat)
include kept

theorem State.complete_done (hm : m < 17) : ((s.complete m status resp).stw.mb m).st = .done := by
  obtain ⟨w, eq, -, mbox, -⟩ := s.complete_eq m status resp
  have mb : ∀ k, w.mb k = s.stw.mb k := fun k => by rw [Stw.mb, mbox]; rfl
  obtain ⟨⟨done, -⟩, -⟩ := State.answer_only { s with stw := w } m ((s.stw.mb m).statusOf status) resp hm
    (by rw [← kept]; exact congrArg Mbox.discard (mb m))
  rw [eq, done]

/-- The completion of a host mailbox asserts its source (R422). -/
theorem State.complete_fab (hm : m < 16) : (s.complete m status resp).fab = s.fab.level (200 + m) true := by
  obtain ⟨w, eq, -, mbox, -⟩ := s.complete_eq m status resp
  have mb : ∀ k, w.mb k = s.stw.mb k := fun k => by rw [Stw.mb, mbox]; rfl
  obtain ⟨-, signal, -⟩ := State.answer_only { s with stw := w } m ((s.stw.mb m).statusOf status) resp (by omega)
    (by rw [← kept]; exact congrArg Mbox.discard (mb m))
  rw [State.Signalled, if_neg (by omega)] at signal
  rw [eq, signal]

end

/-- A completion is no business of the memories. -/
theorem State.complete_mem (s : State) (m status : Nat) (resp : List Nat) : (s.complete m status resp).fab.mem = s.fab.mem := by
  obtain ⟨w, eq, -⟩ := s.complete_eq m status resp
  rw [eq]
  unfold State.answer
  dsimp only
  split
  · rfl
  · split
    · rw [State.alert_fab]
      rfl
    · rfl

/-- A completed EPOCH_APPLY leaves the LAST fields (R446). -/
theorem State.complete_last (s : State) (m status : Nat) (resp : List Nat) (apply : (s.stw.mb m).opcode = 0x0201) :
    let w := (s.complete m status resp).stw
    w.lastMb = m ∧ w.lastTag = (s.stw.mb m).cmdTag ∧ w.lastStatus = (s.stw.mb m).statusOf status ∧ w.lastEpoch = s.fab.epoch := by
  obtain ⟨w, eq, -, -, last⟩ := s.complete_eq m status resp
  obtain ⟨_, _, _, _, _, stw⟩ := State.answer_frame ({ s with stw := w } : State) m ((s.stw.mb m).statusOf status) resp
  rw [eq, stw]
  exact last apply

theorem Mbox.statusOf_plain {b : Mbox} (once : b.rerun = false) (good : b.faults = 0) (status : Nat) :
    b.statusOf status = status := by
  simp [Mbox.statusOf, once, good]
  omega

/-! ## DEVICE_STOP ends in the stopped state (R471, R525) -/

theorem State.nextDrain_none {s : State} (waiting : s.stw.waiting = []) : s.nextDrain = s := by
  rw [State.nextDrain, waiting]; rfl

/-- The power domains that stay on in the stopped state. -/
theorem kept_domains : ∀ k, k < 31 → (2 ^ 9 + 0x3F * 2 ^ 22 + 2 ^ 28 + 2 ^ 29 + 2 ^ 30).testBit k = true →
    k ∈ [9, 22, 23, 24, 25, 26, 27, 28, 29, 30] := by decide

theorem State.stopState_pd (s : State) {k : Nat} (hk : k < 31) (on : s.stopState.pcr.pd.toNat.testBit k = true) :
    s.pcr.pd.toNat.testBit k = true ∧ k ∈ [9, 22, 23, 24, 25, 26, 27, 28, 29, 30] := by
  have both : (s.pcr.pd.toNat &&& (2 ^ 9 + 0x3F * 2 ^ 22 + 2 ^ 28 + 2 ^ 29 + 2 ^ 30) % 2 ^ 32).testBit k = true := by
    rw [← BitVec.toNat_ofNat, ← BitVec.toNat_and]
    exact on
  rw [Nat.testBit_and, Bool.and_eq_true] at both
  exact ⟨both.1, kept_domains k hk both.2⟩

/-- The command completes and the device stops; no drain waits. -/
theorem State.stopped_eq {s : State} (noDrain : s.stw.waiting = []) (m : Nat) :
    let c := (s.modStw (fun w => { w.log 0x12 0 [2] with step := 0, sub := 0, staged := s.cfg })).complete m 0 []
    s.stopped m = { c.stopState with pcr := { c.stopState.pcr with byStop := true } } := by
  intro c
  obtain ⟨-, -, -, waiting⟩ := State.complete_sameDrain
    (s.modStw (fun w => { w.log 0x12 0 [2] with step := 0, sub := 0, staged := s.cfg })) m 0 []
  exact State.nextDrain_none (waiting.trans noDrain)

/-! ## Step 8: admission resumes (R324, R335) -/

/-- Admission has resumed in `g`, and the transactions, the memories and the Granary are those of `f`. -/
def Fabric.Resumed (f g : Fabric) : Prop :=
  g.draining = false ∧ g.portHeld = [] ∧ g.gln.stopped = false ∧ g.hrw.paused = false ∧ g.hrw.cutting = false ∧
    g.pfu.stopped = false ∧ (226, 0) ∈ g.raised ∧ g.txns = f.txns ∧ g.mem = f.mem ∧ g.gran = f.gran ∧ g.epoch = f.epoch

theorem Fabric.Resumed.ports {f g h : Fabric} (resumed : f.Resumed g) (ports : g.PortsOnly h) : f.Resumed h := by
  obtain ⟨drain, held, gln, paused, cutting, pfu, told, rest⟩ := resumed
  obtain ⟨_, _, _, _, _, rfl⟩ := ports
  exact ⟨drain, held, gln, paused, cutting, pfu, List.mem_append_left _ told, rest⟩

section
variable {f g : Fabric} (resumed : f.Resumed g)
include resumed

theorem Fabric.Resumed.raise (n : Nat) : f.Resumed (g.raise n) := resumed.ports (g.portsOnly_raise n)

theorem Fabric.Resumed.modTwin (k : Twin → Twin) : f.Resumed (g.modTwin k) := resumed

theorem Fabric.Resumed.setPair (p : PairState) : f.Resumed (g.setPair p) := by
  unfold Fabric.setPair
  split
  · exact resumed
  · dsimp only
    split
    · exact ((resumed.modTwin _).raise 32).raise 38
    · exact (resumed.modTwin _).raise 32

/-- Entering PAIRED is the business of the pair's record, of mirrored descriptors and of the agents told. -/
theorem Fabric.Resumed.pairUp (primary : Bool) : f.Resumed (g.pairUp primary) := by
  unfold Fabric.pairUp
  extract_lets was paired told recorded h noMirrors
  have told' : f.Resumed told := by
    unfold told
    split
    · exact (resumed.setPair _).raise 39
    · exact resumed.setPair _
  have noMirrors' : f.Resumed noMirrors := told'.modTwin _
  exact noMirrors'.ports (Fabric.portsOnly_evtIrqAll _ _ _)

end

/-- Step 8 has begun with the fabric that follows from `g`: held declarations are answered and held requests
delivered. -/
def State.resumedFrom (s : State) (g : Fabric) : State :=
  { s with
    fab := Fabric.flow s.cfg (Fabric.svcRun s.cfg
      (s.fab.portHeld.foldl (fun f p => f.deliverHeld s.cfg p) (g.answerHeld s.cfg)))
    irq := s.irq.resume
    stw := { s.stw with step := 8, sub := 0, staged := s.cfg, joint := false } }

theorem State.resumedFrom_fab (s : State) (g : Fabric) : (s.resumedFrom g).fab = Fabric.flow s.cfg (Fabric.svcRun s.cfg
    (s.fab.portHeld.foldl (fun f p => f.deliverHeld s.cfg p) (g.answerHeld s.cfg))) := by
  rw [State.resumedFrom]

theorem State.resumedFrom_rest (s : State) (g : Fabric) : (s.resumedFrom g).cfg = s.cfg ∧ (s.resumedFrom g).wgb = s.wgb ∧
    (s.resumedFrom g).stw.by_ = s.stw.by_ ∧ (s.resumedFrom g).stw.disagree = s.stw.disagree ∧
    ∀ m, (s.resumedFrom g).stw.mb m = s.stw.mb m := by
  rw [State.resumedFrom]
  exact ⟨rfl, rfl, rfl, rfl, fun _ => rfl⟩

/-- The command that asked for the drain completes. -/
def State.drainDone (s : State) : State :=
  match s.stw.by_ with
  | .apply m =>
    if s.stw.disagree ≠ 0 then s.complete m 0x0203 []
    else s.complete m 0 (leBytes s.fab.epoch 4 ++ [0, 0, 0, 0] ++ leBytes s.cfg.digest.toNat 32)
  | _ => s

theorem State.step8_eq (s : State) : ∃ g, s.fab.Resumed g ∧ s.step8 = (s.resumedFrom g).drainDone := by
  unfold State.step8
  extract_lets old f free held p h g opened told paired linked up
  have told' : s.fab.Resumed told := by
    have opened' : s.fab.Resumed (opened.raise 226) :=
      ⟨rfl, rfl, rfl, rfl, rfl, rfl, Fabric.mem_raised_raise _ _, rfl, rfl, rfl, rfl⟩
    exact opened'.ports (Fabric.portsOnly_evtIrqAll _ _ _)
  have paired' : s.fab.Resumed paired := by
    unfold paired
    split
    · exact told'.pairUp _
    · exact told'
  have linked' : s.fab.Resumed linked := by
    refine paired'.ports (.foldl (fun f a => ?_) _ _)
    dsimp only
    split
    · exact .refl f
    · split
      · exact f.portsOnly_setLink a _
      · split
        · exact f.portsOnly_retrain a _
        · exact .refl f
  have up' : s.fab.Resumed up := by
    unfold up
    split
    · exact linked'.ports (Fabric.portsOnly_setLink _ _ _)
    · exact linked'
  exact ⟨up, up', rfl⟩

theorem State.drainDone_other {s : State} (other : ∀ m, s.stw.by_ ≠ .apply m) : s.drainDone = s := by
  unfold State.drainDone
  cases asker : s.stw.by_ with
  | apply m => exact absurd asker (other m)
  | stop | cacheOff | joint => rfl

/-- EPOCH_APPLY completes with success, or says that the pair disagrees. -/
theorem State.drainDone_apply {s : State} {m : Nat} (asker : s.stw.by_ = .apply m) :
    ∃ resp, s.drainDone = s.complete m (if s.stw.disagree = 0 then 0 else 0x0203) resp := by
  unfold State.drainDone
  rw [asker]
  by_cases agree : s.stw.disagree = 0
  · exact ⟨_, by simp only [agree, ne_eq, not_true_eq_false, if_false, if_true]; rfl⟩
  · exact ⟨_, by simp only [agree, ne_eq, not_false_eq_true, if_false, if_true]; rfl⟩

theorem State.drainDone_rest (s : State) : s.SameRest s.drainDone ∧ s.stw.SameDrain s.drainDone.stw := by
  by_cases apply : ∃ m, s.stw.by_ = .apply m
  · obtain ⟨m, asker⟩ := apply
    obtain ⟨resp, done⟩ := State.drainDone_apply asker
    rw [done]
    exact ⟨s.complete_rest m _ resp, s.complete_sameDrain m _ resp⟩
  · rw [State.drainDone_other (fun m asker => apply ⟨m, asker⟩)]
    exact ⟨.refl s, rfl, rfl, rfl, rfl⟩

/-! ## The command that ends a sub-step -/

theorem State.end7b_eq (s : State) :
    s.end7b = { s with fab := if s.stw.before.changed s.stw.staged = [] then s.fab else s.fab.raise 88 } := by
  unfold State.end7b
  by_cases changed : s.stw.before.changed s.stw.staged = []
  · rw [if_neg (by simp [changed]), if_pos changed]
  · rw [if_pos changed, if_neg changed]
    rfl

theorem State.commit7g_together (s : State) : s.commit7g.together = s.together := by
  obtain ⟨j, eq⟩ := s.commit7g_frame
  rw [eq]
  rfl

/-- What step 8 finds after the commit of 7g but for the epoch number. -/
theorem State.commit7g_rest (s : State) : let c := s.commit7g
    c.cfg = s.cfg ∧ c.irq = s.irq ∧ c.wgb = s.wgb ∧ c.stw.by_ = s.stw.by_ ∧ c.stw.disagree = s.stw.disagree ∧
      c.stw.mbox = s.stw.mbox ∧ c.fab = { s.fab with
        epoch := if s.stw.done7g = true then s.fab.epoch else s.stw.jrnl.committed + 1 } := by
  obtain ⟨j, eq⟩ := s.commit7g_frame
  rw [eq]
  exact ⟨rfl, rfl, rfl, rfl, rfl, rfl, rfl⟩

theorem State.commit7g_resumedFrom (s : State) (g : Fabric) : (s.commit7g.resumedFrom g).fab = (s.resumedFrom g).fab := by
  obtain ⟨cfg, -, -, -, -, -, fab⟩ := s.commit7g_rest
  simp only [State.resumedFrom, cfg, fab]

section
variable {s : State} {dis : Nat} {oks : List Bool} {partner : Bool} (up : s.stw.up = true) (seven : s.stw.step = 7)
include up seven

section
variable (sub : s.stw.sub = 1) (on : ∀ m, s.stw.by_ ≠ .stop m) (noInval : s.stw.opts.testBit 2 = false)
include sub on noInval

theorem State.subEnds_7b (same : s.stw.staged.coberGib = s.stw.before.coberGib ∧ s.stw.staged.coberWays = s.stw.before.coberWays)
    (noClean : s.stw.opts.testBit 1 = false) (able : s.disabling = false) {f : Fabric}
    (flushing : s.flushing = { s with fab := f, stw := { s.stw with sub := 2 } }) :
    s.StepEnds (s.subGoes dis oks partner) { s with fab := f, stw := { s.stw with sub := 2 } } := by
  refine State.subGoes_ends up ?_ (.inr (by simp [sub]))
  rw [State.nextSub_7b seven sub, State.start7b_same on noInval same, noClean, able, flushing]
  rfl

theorem State.subEnds_7b_clean (noFlush : s.stw.flushed = [])
    (same : s.stw.staged.coberGib = s.stw.before.coberGib ∧ s.stw.staged.coberWays = s.stw.before.coberWays)
    (clean : s.stw.opts.testBit 1 = true ∨ s.disabling = true) : s.StepEnds (s.subGoes dis oks partner) { s with
      fab := (s.fab.enqueue 50 cleanAll none).1
      stw := { s.stw with sub := 2 } } := by
  refine State.subGoes_ends up ?_ (.inr (by simp [sub]))
  rw [State.nextSub_7b seven sub, State.start7b_same on noInval same, if_pos (by simpa using clean), State.flushing_none noFlush]
  rfl

theorem State.subEnds_7b_cober (noFlush : s.stw.flushed = [])
    (differ : ¬ (s.stw.staged.coberGib = s.stw.before.coberGib ∧ s.stw.staged.coberWays = s.stw.before.coberWays))
    (noClean : s.stw.opts.testBit 1 = false) (able : s.disabling = false) :
    s.StepEnds (s.subGoes dis oks partner) (s.modStw (fun w => { w with sub := 2 })).coberDropped := by
  refine State.subGoes_ends up ?_ (.inr (by simp [sub, State.coberDropped]))
  rw [State.nextSub_7b seven sub, State.start7b_differ on noInval differ noClean able, State.flushing_none noFlush]

end

section
variable (sub : s.stw.sub = 2)
include sub

theorem State.subGoes_flushing (busy : s.fab.queue1Empty = false) : s.subGoes dis oks partner s := by
  refine State.subGoes_still up ?_ rfl rfl
  by_cases stop : ∃ m, s.stw.by_ = .stop m
  · obtain ⟨m, asker⟩ := stop
    simp [State.nextSub_stop seven sub asker, busy]
  · simp [State.nextSub_flushed seven sub (fun m asker => stop ⟨m, asker⟩), busy]

theorem State.subGoes_cleaning (on : ∀ m, s.stw.by_ ≠ .stop m) (disables : s.disabling = true) (dirty : s.dirtySum ≠ 0) :
    s.subGoes dis oks partner s := by
  refine State.subGoes_still up ?_ rfl rfl
  simp [State.nextSub_flushed seven sub on, disables, dirty]

theorem State.subEnds_flushed (on : ∀ m, s.stw.by_ ≠ .stop m) (idle : s.fab.queue1Empty = true)
    (clean : s.disabling = false ∨ s.dirtySum = 0) : s.StepEnds (s.subGoes dis oks partner) { s with
      fab := if s.stw.before.changed s.stw.staged = [] then s.fab else s.fab.raise 88
      stw := { s.stw with sub := 3 } } := by
  refine State.subGoes_ends up ?_ (.inr (by simp [sub]))
  rw [State.nextSub_flushed seven sub on, if_pos (by simpa [idle] using clean), State.end7b_eq]
  rfl

/-- DEVICE_STOP ends here: the device is in the stopped state and its command is complete. -/
theorem State.subGoes_stops {m : Nat} (asker : s.stw.by_ = .stop m) (idle : s.fab.queue1Empty = true) (dq : s.fab.mem.dq = []) :
    s.subGoes dis oks partner (s.stopped m) := by
  have next : s.nextSub dis oks partner = s.stopped m := by
    rw [State.nextSub_stop seven sub asker, if_pos (by simp [idle, dq])]
  have free : s.stw.stopping = true := by simp [Stw.stopping, asker]
  rw [State.subGoes, exec_drainSubstepEnd up, State.stepBy_free (.inr free), next]

end

theorem State.subEnds_7c_idle (sub : s.stw.sub = 3) (idle : ∀ r ∈ s.fab.gln.repairs, r.state ≠ 1) :
    s.StepEnds (s.subGoes dis oks partner) { s with stw := { s.stw with sub := 4 } } := by
  refine State.subGoes_ends up ?_ (.inr (by simp [sub]))
  rw [State.nextSub_7c seven sub, State.repairs_idle idle]
  rfl

theorem State.subEnds_7c (sub : s.stw.sub = 3) :
    s.StepEnds (s.subGoes dis oks partner) ((s.repairs oks).modStw (fun w => { w with sub := 4 })) :=
  State.subGoes_ends up (State.nextSub_7c seven sub) (.inr (by simp [sub]))

theorem State.subEnds_7d (sub : s.stw.sub = 4) :
    s.StepEnds (s.subGoes dis oks partner) (s.write7d s.stw.staged).start7e :=
  State.subGoes_ends up (State.nextSub_7d seven sub) (.inr (by simp [sub, State.start7e]))

theorem State.subGoes_rewriting (sub : s.stw.sub = 5)
    (busy : s.stw.rewrite = true ∨ s.fab.gran.slots.toList.any (fun c => c.walk.isSome) = true) : s.subGoes dis oks partner s := by
  refine State.subGoes_still up ?_ rfl rfl
  rw [State.nextSub_7e seven sub, if_pos (by simpa using busy)]

theorem State.subEnds_7e (sub : s.stw.sub = 5) (done : s.stw.rewrite = false)
    (walked : s.fab.gran.slots.toList.any (fun c => c.walk.isSome) = false) :
    s.StepEnds (s.subGoes dis oks partner) { s with stw := { s.stw with sub := 6 } } := by
  refine State.subGoes_ends up ?_ (.inr (by simp [sub]))
  rw [State.nextSub_7e seven sub, if_neg (by simp [done, walked])]
  rfl

theorem State.subEnds_7f (sub : s.stw.sub = 6) :
    s.StepEnds (s.subGoes dis oks partner) ((s.end7f dis).modStw (fun w => { w with sub := 7 })) :=
  State.subGoes_ends up (State.nextSub_7f seven sub) (.inr (by simp [sub]))

/-- The partner has yet to commit the number. -/
theorem State.subGoes_commits (sub : s.stw.sub = 7) (pair : s.together = true) (alone : partner = false) :
    s.subGoes dis oks partner s.commit7g := by
  obtain ⟨j, eq⟩ := s.commit7g_frame
  refine State.subGoes_still up ?_ (by rw [eq]) (by rw [eq])
  rw [State.nextSub_7g seven sub, State.commit7g_together, if_pos (by simp [pair, alone])]

theorem State.subEnds_7g (sub : s.stw.sub = 7) (both : s.together = false ∨ partner = true) :
    s.StepEnds (s.subGoes dis oks partner) s.commit7g.step8 := by
  obtain ⟨g, -, eq⟩ := s.commit7g.step8_eq
  obtain ⟨-, step, -⟩ := (s.commit7g.resumedFrom g).drainDone_rest
  refine State.subGoes_ends up ?_ (.inl ?_)
  · rw [State.nextSub_7g seven sub, State.commit7g_together, if_neg (by rcases both with h | h <;> simp [h])]
  · rw [eq, step, seven]
    exact (by decide : (8 : Nat) ≠ 7)

end

/-! ## What each sub-step leaves -/

/-- The stopped state: the command is complete, every domain but the kept ones is off, and only the DDR5 keeps what it
held (R525). -/
theorem State.stopped_leaves {s : State} {m : Nat} (hm : m < 17) (kept : (s.stw.mb m).discard = false)
    (waiting : s.stw.waiting = []) : let u := s.stopped m
    u.stw.step = 0 ∧ u.stw.sub = 0 ∧ u.pcr.byStop = true ∧ u.pcr.stopped = true ∧ (u.stw.mb m).st = .done ∧
      (∀ k, k < 31 → u.pcr.pd.toNat.testBit k = true →
        s.pcr.pd.toNat.testBit k = true ∧ k ∈ [9, 22, 23, 24, 25, 26, 27, 28, 29, 30]) ∧
      u.fab.mem.ddr = s.fab.mem.ddr ∧ u.fab.cache.sectors = [] ∧ u.fab.gran.entries = [] ∧ u.cfg = s.cfg ∧ u.wgb = s.wgb := by
  let r := s.modStw (fun w => { w.log 0x12 0 [2] with step := 0, sub := 0, staged := s.cfg })
  obtain ⟨step, sub, -, -⟩ := r.complete_sameDrain m 0 []
  obtain ⟨-, cfg, pcr, wgb, -⟩ := r.complete_rest m 0 []
  have ddr : (r.complete m 0 []).fab.mem.ddr = s.fab.mem.ddr := congrArg Mem.ddr (r.complete_mem m 0 [])
  rw [State.stopped_eq waiting]
  refine ⟨step, sub, rfl, rfl, State.complete_done (s := r) kept 0 [] hm, fun k hk on => ?_, ddr, rfl, rfl, cfg, wgb⟩
  have := (r.complete m 0 []).stopState_pd hk on
  rwa [pcr] at this

/-- The one repair that is pending is applied or refused (R290). -/
theorem State.repairs_leave {s : State} {r : Repair} (one : s.fab.gln.repairs = [r]) (pending : r.state = 1) (oks : List Bool) :
    let u := (s.repairs oks).modStw (fun w => { w with sub := 4 })
    let ok := s.grants r (oks.getD 0 true)
    u.stw.sub = 4 ∧ u.stw.step = s.stw.step ∧ u.fab.gln.repairs = [s.repaired r ok] ∧
      (if ok then 173 else 174, 0) ∈ u.fab.raised ∧
      (∃ e ∈ u.stw.jrnl.entries, e.rtype = 0x30 ∧ e.key = 0 ∧ e.body = (s.repaired r ok).body) ∧ u.cfg = s.cfg ∧ u.wgb = s.wgb := by
  obtain ⟨list, told, logged, step, cfg, wgb⟩ := State.repairOne_first one (oks.getD 0 true)
  rw [State.repairs_one one pending]
  exact ⟨rfl, step, list, told, logged, cfg, wgb⟩

/-- The staged configuration is the applied one (R331). -/
theorem State.write7d_start7e_leaves (s : State) : let u := (s.write7d s.stw.staged).start7e
    u.cfg = s.stw.staged ∧
      u.stw = { s.stw with sub := 5, rewrite := decide (s.stw.before.retenanted s.stw.staged ≠ []) } ∧
      u.wgb = s.wgb ∧ u.irq = s.irq := by
  obtain ⟨f, p, eq⟩ := s.write7d_frame s.stw.staged
  rw [eq]
  exact ⟨rfl, rfl, rfl, rfl⟩

/-- Where no port is disabled and no SPLIT changes, memories, transactions and the Granary stay. -/
theorem State.write7d_start7e_keeps {s : State} (kept : ∀ n, n < 16 → (s.cfg.portEn n = true → s.stw.staged.portEn n = true) ∧
    s.stw.before.split n = s.stw.staged.split n) : let u := (s.write7d s.stw.staged).start7e
    u.fab.mem = s.fab.mem ∧ u.fab.txns = s.fab.txns ∧ u.fab.gran = s.fab.gran := by
  have ports := State.write7d_ports (s := s) (new := s.stw.staged) (fun n hn => (kept n hn).1)
  obtain ⟨f, p, eq⟩ := s.write7d_frame s.stw.staged
  obtain ⟨c, caches⟩ := State.start7e_cache (s := s.write7d s.stw.staged) (by
    rw [eq]
    exact fun n hn => (kept n hn).2)
  intro u
  rw [show u.fab = _ from caches]
  exact ⟨ports.mem, ports.txns, ports.gran⟩

/-- A disagreement restores the configuration before the drain (R331, R335). -/
theorem State.end7f_restores {s : State} {dis : Nat} (disagrees : dis ≠ 0) (pair : s.together = true) :
    (s.end7f dis).cfg = s.stw.before ∧ (s.end7f dis).stw = { s.stw with disagree := dis } := by
  obtain ⟨f, p, eq⟩ := ({ s with fab := s.fab.disagree dis, stw := { s.stw with disagree := dis } } : State).write7d_frame s.stw.before
  rw [State.end7f_disagrees disagrees pair, eq]
  split <;> exact ⟨rfl, rfl⟩

/-- The disagreement is shown and signalled; unless it isolates the device, the memories stay. -/
theorem State.end7f_shows {s : State} {dis : Nat} (disagrees : dis ≠ 0) (pair : s.together = true)
    (kept : ∀ n, n < 16 → s.cfg.portEn n = true → s.stw.before.portEn n = true) (stays : dis ≠ 2 ∨ s.fab.primary = true) :
    let f := (s.end7f dis).fab
    f.twin.disagree = true ∧ f.twin.disCode = BitVec.ofNat 4 dis ∧ (34, 0) ∈ f.raised ∧ f.mem = s.fab.mem := by
  have ports := State.write7d_ports (s := { s with fab := s.fab.disagree dis, stw := { s.stw with disagree := dis } })
    (new := s.stw.before) kept
  have role : (({ s with fab := s.fab.disagree dis, stw := { s.stw with disagree := dis } } : State).write7d
      s.stw.before).fab.primary = s.fab.primary := by
    rw [Fabric.primary, ports.twin]
    rfl
  rw [State.end7f_disagrees disagrees pair, if_neg (by rw [role]; rcases stays with h | h <;> simp [h])]
  intro f
  rw [show f.twin = _ from ports.twin, show f.mem = _ from ports.mem]
  exact ⟨rfl, rfl, ports.raised (Fabric.mem_raised_raise _ _), rfl⟩

/-- EPOCH_APPLY of a host mailbox completes, with the LAST fields (R446). -/
theorem State.drainDone_leaves {s : State} {m : Nat} (asker : s.stw.by_ = .apply m) (hm : m < 16)
    (op : (s.stw.mb m).opcode = 0x0201) (kept : (s.stw.mb m).discard = false) (once : (s.stw.mb m).rerun = false)
    (good : (s.stw.mb m).faults = 0) : s.drainDone.fab = s.fab.level (200 + m) true ∧ (s.drainDone.stw.mb m).st = .done ∧
      s.drainDone.stw.lastMb = m ∧ s.drainDone.stw.lastTag = (s.stw.mb m).cmdTag ∧
      s.drainDone.stw.lastStatus = (if s.stw.disagree = 0 then 0 else 0x0203) ∧ s.drainDone.stw.lastEpoch = s.fab.epoch := by
  obtain ⟨resp, done⟩ := State.drainDone_apply asker
  rw [done]
  obtain ⟨mb, tag, status, epoch⟩ := s.complete_last m (if s.stw.disagree = 0 then 0 else 0x0203) resp op
  exact ⟨State.complete_fab kept _ _ hm, State.complete_done kept _ _ (by omega), mb, tag,
    status.trans (Mbox.statusOf_plain once good _), epoch⟩

/-- Step 8 has begun and the command that asked for the drain is complete. -/
theorem State.step8_leaves (s : State) : ∃ g, s.fab.Resumed g ∧
    s.step8.stw.step = 8 ∧ s.step8.stw.sub = 0 ∧ s.step8.stw.staged = s.cfg ∧ s.step8.cfg = s.cfg ∧
    s.step8.irq = s.irq.resume ∧ s.step8.wgb = s.wgb ∧
    ((∀ m, s.stw.by_ ≠ .apply m) → s.step8.fab = (s.resumedFrom g).fab) ∧
    (∀ m, s.stw.by_ = .apply m → m < 16 → (s.stw.mb m).opcode = 0x0201 → (s.stw.mb m).discard = false →
      (s.stw.mb m).rerun = false → (s.stw.mb m).faults = 0 → s.step8.fab = (s.resumedFrom g).fab.level (200 + m) true ∧
      (s.step8.stw.mb m).st = .done ∧ s.step8.stw.lastMb = m ∧ s.step8.stw.lastTag = (s.stw.mb m).cmdTag ∧
      s.step8.stw.lastStatus = (if s.stw.disagree = 0 then 0 else 0x0203) ∧ s.step8.stw.lastEpoch = (s.resumedFrom g).fab.epoch) := by
  obtain ⟨g, resumed, eq⟩ := s.step8_eq
  obtain ⟨⟨-, cfg, -, wgb, irq⟩, step, sub, staged, -⟩ := (s.resumedFrom g).drainDone_rest
  obtain ⟨cfg', wgb', by', disagree', mb'⟩ := s.resumedFrom_rest g
  rw [eq]
  refine ⟨g, resumed, step, sub, staged, cfg.trans cfg', irq, wgb.trans wgb', fun other => ?_, fun m asker hm op kept once good => ?_⟩
  · rw [State.drainDone_other (by rwa [by'])]
  · rw [← by'] at asker
    rw [← mb' m] at op kept once good ⊢
    rw [← disagree']
    exact State.drainDone_leaves asker hm op kept once good

end Sys2Proof.Machine

namespace Sys2Proof
open Machine

/-- Settles O57, sub-step by sub-step: which state `nextSub` gives, that it ends the step there (`StepEnds`), and what
that state holds. -/
theorem drainSubstepsApplyTheConfiguration : Obligations.DrainSubstepsApplyTheConfiguration := by
  unfold Obligations.DrainSubstepsApplyTheConfiguration
  intro s dis oks partner up seven w goes ends flushed on7b disabling sameCober
  have able_of : ¬ disabling → s.disabling = false := fun no => Bool.eq_false_iff.mpr (fun h => no (s.disabling_iff.mp h))
  refine ⟨fun ⟨sub, on, noInval⟩ noFlush same noClean able => ?plain, fun ⟨sub, on, noInval⟩ noFlush same clean => ?cleans,
    fun r ⟨sub, on, noInval⟩ one ordered short same noClean able => ?flushes,
    fun ⟨sub, on, noInval⟩ noFlush differ noClean able => ?cober, fun sub busy => ?flushing,
    fun sub on idle clean => ?flushed, fun sub on disables dirty => ?cleaning,
    fun m sub asker idle dq hm kept _ _ waiting => ?stops, fun sub idle => ?noRepair, fun r sub one pending => ?repairs,
    fun sub => ?writes, fun sub busy => ?rewriting, fun sub done walked => ?rewritten, fun sub agrees => ?agrees,
    fun sub disagrees pair => ?disagrees, fun sub first pair alone => ?commits, fun sub both => ?resumes⟩
  case plain => exact State.subEnds_7b up seven sub on noInval same noClean (able_of able) (State.flushing_none noFlush)
  case cleans =>
    exact State.subEnds_7b_clean up seven sub on noInval noFlush same (clean.imp_right s.disabling_iff.mpr)
  case flushes =>
    exact State.subEnds_7b up seven sub on noInval same noClean (able_of able) (State.flushing_one one ordered short)
  case cober =>
    exact ⟨_, State.subEnds_7b_cober up seven sub on noInval noFlush differ noClean (able_of able), rfl, rfl, rfl, rfl⟩
  case flushing => exact State.subGoes_flushing up seven sub busy
  case flushed => exact State.subEnds_flushed up seven sub on idle (clean.imp_left able_of)
  case cleaning => exact State.subGoes_cleaning up seven sub on (s.disabling_iff.mpr disables) dirty
  case stops => exact ⟨_, State.subGoes_stops up seven sub asker idle dq, State.stopped_leaves hm kept waiting⟩
  case noRepair => exact State.subEnds_7c_idle up seven sub idle
  case repairs =>
    obtain ⟨sub4, step, list, told, logged, cfg, wgb⟩ := State.repairs_leave one pending oks
    rw [State.grants_eq] at list told logged
    exact ⟨_, State.subEnds_7c up seven sub, sub4, step.trans seven, list, told, logged, cfg, wgb⟩
  case writes =>
    obtain ⟨cfg, stw, wgb, irq⟩ := s.write7d_start7e_leaves
    exact ⟨_, State.subEnds_7d up seven sub, cfg, stw, wgb, irq, State.write7d_start7e_keeps⟩
  case rewriting => exact State.subGoes_rewriting up seven sub busy
  case rewritten => exact State.subEnds_7e up seven sub done walked
  case agrees =>
    have same := State.end7f_agrees agrees
    have next := State.subEnds_7f (dis := dis) (oks := oks) (partner := partner) up seven sub
    rw [same] at next
    exact next
  case disagrees =>
    obtain ⟨cfg, stw⟩ := State.end7f_restores disagrees pair
    exact ⟨_, State.subEnds_7f up seven sub, cfg, by rw [State.modStw_stw, stw], State.end7f_shows disagrees pair⟩
  case commits =>
    obtain ⟨j, eq, committed⟩ := State.commit7g_new first
    refine ⟨_, State.subGoes_commits up seven sub pair alone, ?_⟩
    rw [eq]
    exact ⟨rfl, rfl, seven, sub, rfl, committed⟩
  case resumes =>
    intro resumed
    obtain ⟨g, ⟨drain, held, gln, paused, cutting, pfu, told, txns, mem, gran, epoch⟩, step8, sub0, staged, cfg, irq, wgb,
      other, apply⟩ := s.commit7g.step8_leaves
    obtain ⟨cfg', irq', wgb', by', disagree', mbox', fab'⟩ := s.commit7g_rest
    have mb : s.commit7g.stw.mb = s.stw.mb := funext fun m => by rw [Stw.mb, mbox']; rfl
    rw [fab'] at txns mem gran epoch
    rw [cfg'] at staged cfg
    rw [irq'] at irq
    rw [wgb'] at wgb
    rw [by', State.commit7g_resumedFrom, State.resumedFrom_fab] at other
    rw [by', mb, disagree', State.commit7g_resumedFrom, State.resumedFrom_fab] at apply
    exact ⟨_, g, State.subEnds_7g up seven sub both, epoch, drain, held, gln, paused, cutting, pfu, told, txns, mem, gran,
      step8, sub0, staged, cfg, irq, wgb, other, apply⟩

end Sys2Proof
end
section
/-! SUPPORT. The channel queues and the memories: a read at the front of a queue, a write at the front that is accepted,
what a tracker is given, a zero-map word, a page fill (R192, R194, R215, R275, R280, R282, R298, R301). -/
namespace Sys2Proof.Machine

/-! ## Commands of the memories -/

section
variable {s : State} (on : s.on 10 = true)
include on

theorem exec_hbmReadReturn (word : Nat) (err : ErrPat) :
    exec (.hbmReadReturn word err) s = .next (s.after (s.fab.hbmReturn s.cfg word err)) :=
  congrArg Host.Outcome.next (State.atMem_on on _)

theorem exec_ddr5ReadReturn (word : Nat) (err : ErrPat) :
    exec (.ddr5ReadReturn word err) s = .next (s.after (s.fab.ddrReturn s.cfg word err)) :=
  congrArg Host.Outcome.next (State.atMem_on on _)

theorem exec_rereadReturn_hbm (word : Nat) (err : ErrPat) :
    exec (.rereadReturn (.hbm word err)) s = .next (s.after (s.fab.rereadReturn s.cfg false word err)) :=
  congrArg Host.Outcome.next (State.atMem_on on _)

theorem exec_hbmWriteAccept (word : Nat) : exec (.hbmWriteAccept word) s = .next (s.after (s.fab.hbmAccept s.cfg word)) :=
  congrArg Host.Outcome.next (State.atMem_on on _)

theorem exec_ddr5WriteAccept (word : Nat) (e1 e2 : ErrPat) :
    exec (.ddr5WriteAccept word e1 e2) s = .next (s.after (s.fab.ddrAccept s.cfg word e1 e2)) :=
  congrArg Host.Outcome.next (State.atMem_on on _)

end

section
variable {s : State} {i : Nat} (hi : i < 8) (on : s.on (10 + i) = true)
include hi on

theorem exec_zeroMapWordReturn (n : Nat) (err : ErrPat) :
    exec (.zeroMapWordReturn i n err) s = .next (s.after (s.fab.mapReturn s.cfg i n err)) :=
  congrArg Host.Outcome.next (State.atSlice_on hi on _)

theorem exec_pageFillQueued (n : Nat) : exec (.pageFillQueued i n) s = .next (s.after (s.fab.pageFill s.cfg i n)) :=
  congrArg Host.Outcome.next (State.atSlice_on hi on _)

end

/-! ## What an access leaves of a memory -/

/-- Between two memories only what an access leaves behind differs: bytes counted, rows open, refreshes made up. -/
def Mem.Accessed (m n : Mem) : Prop :=
  ∃ tb rows hrows rf, n = { m with tapBytes := tb, openRows := rows, hbmRows := hrows, refresh := rf }

theorem Mem.Accessed.refl (m : Mem) : m.Accessed m := ⟨m.tapBytes, m.openRows, m.hbmRows, m.refresh, rfl⟩

theorem Mem.Accessed.trans {m n k : Mem} (mn : m.Accessed n) (nk : n.Accessed k) : m.Accessed k := by
  obtain ⟨_, _, _, _, rfl⟩ := mn
  obtain ⟨tb, rows, hrows, rf, rfl⟩ := nk
  exact ⟨tb, rows, hrows, rf, rfl⟩

theorem Mem.accessed_countBytes (m : Mem) (ddr : Bool) (word : Nat) (write : Bool) : m.Accessed (m.countBytes ddr word write) :=
  ⟨_, m.openRows, m.hbmRows, m.refresh, rfl⟩

theorem Mem.accessed_touchRow (m : Mem) (ddr : Bool) (word : Nat) : m.Accessed (m.touchRow ddr word) := by
  cases ddr with
  | true => exact ⟨m.tapBytes, _, m.hbmRows, m.refresh, rfl⟩
  | false => exact ⟨m.tapBytes, m.openRows, _, m.refresh, rfl⟩

theorem Mem.accessed_makeUp (m : Mem) (ddr : Bool) (word : Nat) : m.Accessed (m.makeUp ddr word) := by
  unfold Mem.makeUp
  dsimp only
  split
  · exact ⟨m.tapBytes, m.openRows, m.hbmRows, _, rfl⟩
  · exact .refl m

/-- A memory once a read of a word has been served. -/
def Mem.served (m : Mem) (ddr : Bool) (word : Nat) : Mem := ((m.countBytes ddr word false).touchRow ddr word).makeUp ddr word

theorem Mem.accessed_served (m : Mem) (ddr : Bool) (word : Nat) : m.Accessed (m.served ddr word) :=
  ((m.accessed_countBytes ddr word false).trans (Mem.accessed_touchRow _ ddr word)).trans (Mem.accessed_makeUp _ ddr word)

/-- The channel queues of HBM or of DDR5. -/
def Mem.queueOf (m : Mem) (ddr : Bool) : List MemReq := if ddr then m.dq else m.hq

/-- The words of HBM or of DDR5. -/
def Mem.wordsOf (m : Mem) (ddr : Bool) : Tab CWord := if ddr then m.ddr else m.hbm

/-- The memory with other entries in the queues of HBM or of DDR5. -/
def Mem.withQueue (m : Mem) (ddr : Bool) (q : List MemReq) : Mem := if ddr then { m with dq := q } else { m with hq := q }

/-! ## What a read decodes to (R298, R318) -/

/-- What the read of a stored word decodes to; a read whose queue entry lost its data carries poison (R318). -/
def readDec (ddr : Bool) (w : CWord) (pois : Bool) (err : ErrPat) : Dec :=
  let d := decodeWord ddr w.data w.pm err
  if pois && d.usable then { d with kind := .poisoned } else d

/-- Without an error a word is good or poisoned, with its data as stored. -/
theorem readDec_none (ddr : Bool) (w : CWord) (pois : Bool) :
    readDec ddr w pois ErrPat.none = ⟨if w.pm || pois then .poisoned else .good, w.data, 0, 0, 0⟩ := by
  have stored : decodeWord ddr w.data w.pm ErrPat.none = ⟨if w.pm then .poisoned else .good, w.data, 0, 0, 0⟩ := if_pos rfl
  rw [readDec, stored]
  cases w.pm <;> cases pois <;> rfl

/-- A word that is read without an error is usable as it is stored. -/
theorem readDec_clean (ddr : Bool) (w : CWord) (pois : Bool) : (readDec ddr w pois ErrPat.none).usable = true ∧
    (readDec ddr w pois ErrPat.none).kind ≠ .correctable ∧ (readDec ddr w pois ErrPat.none).data = w.data ∧
    (readDec ddr w pois ErrPat.none).poisoned = (w.pm || pois) := by
  rw [readDec_none]
  cases w.pm <;> cases pois <;> simp [Dec.usable, Dec.poisoned]

theorem readDec_unusable {ddr : Bool} {w : CWord} {err : ErrPat} (bad : (decodeWord ddr w.data w.pm err).usable = false)
    (pois : Bool) : readDec ddr w pois err = decodeWord ddr w.data w.pm err := by
  simp [readDec, bad]

/-- A word that is good or poisoned counts nothing on its first read. -/
theorem Fabric.readCounts_first (cfg : Cfg) (f : Fabric) (ddr : Bool) (word : Nat) {d : Dec} (stored : d.kind ≠ .correctable) :
    f.readCounts cfg ddr word d false = f := by
  simp [Fabric.readCounts, stored]

/-- A word that is good on its re-read counts a transient fault (R301). -/
theorem Fabric.readCounts_reread (cfg : Cfg) (f : Fabric) (ddr : Bool) (word : Nat) {d : Dec} (good : d.kind = .good) :
    f.readCounts cfg ddr word d true = f.transientFault ddr word := by
  simp [Fabric.readCounts, Dec.poisoned, good]

theorem bitsOf_lt (x off w : Nat) : bitsOf x off w < 2 ^ w := Nat.mod_lt _ (Nat.two_pow_pos w)

theorem hbmChan_lt (word : Nat) : hbmChan word < 2 ^ 6 := Nat.xor_lt_two_pow (bitsOf_lt _ _ _) (bitsOf_lt _ _ _)

/-- An HBM word belongs to one of the four stacks. -/
theorem blockOf_hbm_lt (word : Nat) : blockOf false word < 4 := Nat.div_lt_of_lt_mul (hbmChan_lt word)

theorem Fabric.transientFault_hbm (f : Fabric) (word : Nat) :
    (vget (f.transientFault false word).gln.blks GlnBlk.zero (blockOf false word)).transient =
      bvSat (vget f.gln.blks GlnBlk.zero (blockOf false word)).transient 1 :=
  congrArg GlnBlk.transient (vget_vmod_same _ _ _ _ (Nat.lt_trans (blockOf_hbm_lt word) (by decide)))

/-! ## A read at the front of its queue (R192) -/

section
variable {f : Fabric} {r : MemReq} {rest : List MemReq}

theorem nextReader_head (read : r.write = false) : nextReader (r :: rest) r.word r.again = some r.who := by
  simp [nextReader, read]

theorem takeRead_head (read : r.write = false) (t : Tab CWord) : takeRead r.word r.again (r :: rest) t = some (r, t, rest) := by
  simp [takeRead, read]

/-- The read at the front of a queue is served with the word as the memory holds it. -/
theorem Fabric.readReturn_head (ddr : Bool) (q : f.mem.queueOf ddr = r :: rest) (read : r.write = false) (err : ErrPat) :
    f.readReturn ddr r.word r.again err = some (r, { f with mem := (f.mem.withQueue ddr rest).served ddr r.word },
      readDec ddr (getWord (f.mem.wordsOf ddr) r.word) r.pois err) := by
  cases ddr
  all_goals
    simp only [Mem.queueOf, if_true, Bool.false_eq_true, if_false] at q
    simp only [Fabric.readReturn, q, takeRead_head read, if_true, Bool.false_eq_true, if_false]
    rfl

end

/-! ## A tracker's read has returned -/

theorem Fabric.txnAt_mem (f : Fabric) (m : Mem) (i n : Nat) : ({ f with mem := m } : Fabric).txnAt i n = f.txnAt i n := rfl

section
variable {cfg : Cfg} {f : Fabric} {r : MemReq} {d : Dec} {i n : Nat} {t : Txn}

theorem Txn.not_gleaner_of_patrol (demand : t.patrol = false) (found : Option Dec) : t.who ≠ .gleaner found := by
  intro gleaner
  simp [Txn.patrol, gleaner] at demand

theorem Txn.foundLasting_of_patrol (demand : t.patrol = false) : t.foundLasting = false := by
  unfold Txn.foundLasting
  split
  next gleaner => exact absurd gleaner (Txn.not_gleaner_of_patrol demand _)
  next => rfl

theorem Fabric.replacedLog_of_patrol (f : Fabric) (demand : t.patrol = false) (word : Nat) : f.replacedLog t word = f := by
  unfold Fabric.replacedLog
  split
  next gleaner => exact absurd gleaner (Txn.not_gleaner_of_patrol demand _)
  next => rfl

/-- A word that is good or poisoned goes to the tracker that waits for it. -/
theorem Fabric.txnRead_stored (at_ : f.txnAt i n = some t) (demand : t.patrol = false) (ddr again : Bool)
    (usable : d.usable = true) (stored : d.kind ≠ .correctable) : f.txnRead cfg ddr r d again i n =
      Fabric.settle cfg ((f.readCounts cfg ddr r.word d again).give { t with retried := t.retried || again }
        d.data d.poisoned ddr) := by
  have same := (f.readCounts cfg ddr r.word d again).replacedLog_of_patrol demand r.word
  simp [Fabric.txnRead, at_, usable, stored, same]

/-- A word read without an error goes to the tracker that waits for it, poisoned where it is stored so or its queue entry
lost its data. -/
theorem Fabric.txnRead_first (at_ : f.txnAt i n = some t) (demand : t.patrol = false) (ddr : Bool) (w : CWord) (pois : Bool) :
    f.txnRead cfg ddr r (readDec ddr w pois ErrPat.none) false i n =
      Fabric.settle cfg (f.give { t with retried := t.retried } w.data (w.pm || pois) ddr) := by
  obtain ⟨usable, stored, data, poisoned⟩ := readDec_clean ddr w pois
  rw [Fabric.txnRead_stored at_ demand ddr false usable stored, Fabric.readCounts_first _ _ _ _ stored, data, poisoned,
    Bool.or_false]

/-- A word that is good on its second read goes to its tracker, and a transient fault is counted (R301). -/
theorem Fabric.txnRead_second (at_ : f.txnAt i n = some t) (demand : t.patrol = false) (ddr : Bool) {w : CWord}
    (clean : w.pm = false) : f.txnRead cfg ddr r (readDec ddr w false ErrPat.none) true i n =
      Fabric.settle cfg ((f.transientFault ddr r.word).give { t with retried := true } w.data false ddr) := by
  have good : readDec ddr w false ErrPat.none = ⟨.good, w.data, 0, 0, 0⟩ := by rw [readDec_none, clean]; rfl
  rw [good, Fabric.txnRead_stored at_ demand ddr true rfl (show DecKind.good ≠ .correctable by decide),
    Fabric.readCounts_reread _ _ _ _ rfl, Bool.or_true]
  rfl

/-- A word that is not usable is read once more, ahead of what its queue holds (R301). -/
theorem Fabric.txnRead_again (at_ : f.txnAt i n = some t) (demand : t.patrol = false) (ddr : Bool) (bad : d.usable = false) :
    f.txnRead cfg ddr r d false i n = f.reread ddr r := by
  simp [Fabric.txnRead, at_, bad, Txn.foundLasting_of_patrol demand]

end

/-! ## The commands of returning reads -/

section
variable {f : Fabric} {r : MemReq} {rest : List MemReq} {i n : Nat} (cfg : Cfg) (read : r.write = false)
  (who : r.who = .txn i n) (err : ErrPat)
include read who

/-- HBM data returns for a tracker (R298). -/
theorem Fabric.hbmReturn_head (q : f.mem.hq = r :: rest) (first : r.again = false) : f.hbmReturn cfg r.word err =
    ({ f with mem := ({ f.mem with hq := rest } : Mem).served false r.word } : Fabric).txnRead cfg false r
      (readDec false (getWord f.mem.hbm r.word) r.pois err) false i n := by
  have reader := nextReader_head (rest := rest) read
  have served := Fabric.readReturn_head false q read err
  rw [first] at reader served
  rw [Fabric.hbmReturn, q, reader, who]
  dsimp only
  rw [served]
  rfl

/-- Backing data returns for a tracker (R194). -/
theorem Fabric.ddrReturn_head (q : f.mem.dq = r :: rest) (first : r.again = false) : f.ddrReturn cfg r.word err =
    ({ f with mem := ({ f.mem with dq := rest } : Mem).served true r.word } : Fabric).txnRead cfg true r
      (readDec true (getWord f.mem.ddr r.word) r.pois err) false i n := by
  have reader := nextReader_head (rest := rest) read
  have served := Fabric.readReturn_head true q read err
  rw [first] at reader served
  rw [Fabric.ddrReturn, q, reader, who]
  dsimp only
  rw [served]
  rfl

/-- The second read of an HBM word returns for a tracker (R301). -/
theorem Fabric.rereadReturn_head (q : f.mem.hq = r :: rest) (second : r.again = true) :
    f.rereadReturn cfg false r.word err =
      ({ f with mem := ({ f.mem with hq := rest } : Mem).served false r.word } : Fabric).txnRead cfg false r
        (readDec false (getWord f.mem.hbm r.word) r.pois err) true i n := by
  have served := Fabric.readReturn_head false q read err
  rw [second] at served
  rw [Fabric.rereadReturn, served]
  dsimp only
  rw [who]
  rfl

end

section
variable {f : Fabric} {r : MemReq} {rest : List MemReq} {i n : Nat} {t : Txn} (cfg : Cfg) (read : r.write = false)
  (who : r.who = .txn i n) (at_ : f.txnAt i n = some t) (demand : t.patrol = false)
include read who at_ demand

/-- HBM data without an error goes to the tracker that waits for it. -/
theorem Fabric.hbmReturn_gives (q : f.mem.hq = r :: rest) (first : r.again = false) :
    ∃ m : Mem, ({ f.mem with hq := rest } : Mem).Accessed m ∧ f.hbmReturn cfg r.word ErrPat.none = Fabric.settle cfg
      (({ f with mem := m } : Fabric).give { t with retried := t.retried } (getWord f.mem.hbm r.word).data
        ((getWord f.mem.hbm r.word).pm || r.pois) false) :=
  ⟨_, Mem.accessed_served _ false r.word,
    (Fabric.hbmReturn_head cfg read who _ q first).trans (Fabric.txnRead_first ((f.txnAt_mem _ i n).trans at_) demand false _ _)⟩

/-- Backing data without an error goes to the tracker that waits for it. -/
theorem Fabric.ddrReturn_gives (q : f.mem.dq = r :: rest) (first : r.again = false) :
    ∃ m : Mem, ({ f.mem with dq := rest } : Mem).Accessed m ∧ f.ddrReturn cfg r.word ErrPat.none = Fabric.settle cfg
      (({ f with mem := m } : Fabric).give { t with retried := t.retried } (getWord f.mem.ddr r.word).data
        ((getWord f.mem.ddr r.word).pm || r.pois) true) :=
  ⟨_, Mem.accessed_served _ true r.word,
    (Fabric.ddrReturn_head cfg read who _ q first).trans (Fabric.txnRead_first ((f.txnAt_mem _ i n).trans at_) demand true _ _)⟩

/-- HBM data that is not usable is read once more (R301). -/
theorem Fabric.hbmReturn_again (q : f.mem.hq = r :: rest) (first : r.again = false) {err : ErrPat}
    (bad : (decodeWord false (getWord f.mem.hbm r.word).data (getWord f.mem.hbm r.word).pm err).usable = false) :
    ∃ m : Mem, ({ f.mem with hq := rest } : Mem).Accessed m ∧
      f.hbmReturn cfg r.word err = { f with mem := { m with hq := { r with again := true } :: m.hq } } := by
  refine ⟨_, Mem.accessed_served _ false r.word, (Fabric.hbmReturn_head cfg read who _ q first).trans ?_⟩
  rw [readDec_unusable bad]
  exact Fabric.txnRead_again ((f.txnAt_mem _ i n).trans at_) demand false bad

/-- A second read that finds the word good goes to its tracker and counts a transient fault (R301). -/
theorem Fabric.rereadReturn_gives (q : f.mem.hq = r :: rest) (second : r.again = true)
    (clean : (getWord f.mem.hbm r.word).pm = false) (whole : r.pois = false) :
    ∃ m : Mem, ({ f.mem with hq := rest } : Mem).Accessed m ∧ f.rereadReturn cfg false r.word ErrPat.none = Fabric.settle cfg
      ((({ f with mem := m } : Fabric).transientFault false r.word).give { t with retried := true }
        (getWord f.mem.hbm r.word).data false false) := by
  refine ⟨_, Mem.accessed_served _ false r.word, (Fabric.rereadReturn_head cfg read who _ q second).trans ?_⟩
  rw [whole]
  exact Fabric.txnRead_second ((f.txnAt_mem _ i n).trans at_) demand false clean

end

/-! ## A write at the front of its queue is accepted (R215, R275) -/

/-- A memory once the DDR5 controller has accepted a write of a line and holds the entries `q`. -/
def Mem.ddrAccepted (m : Mem) (word : Nat) (q : List MemReq) : Mem :=
  (({ m with dq := q } : Mem).countBytes true word true).touchRow true word

section
variable {f : Fabric} {r : MemReq} {rest : List MemReq} (write : r.write = true) (waits : r.acc = false)
include write waits

theorem acceptable_head (ddr : Bool) : acceptable ddr (r :: rest) r.word = true := by
  cases ddr <;> simp [acceptable, chanEntries, MemReq.chan, write, waits]

theorem takeWrite_head (t : Tab CWord) : takeWrite r.word (r :: rest) t = some (r, t) := by
  simp [takeWrite, write, waits]

theorem acceptWrite_head (g : MemReq → MemReq) : acceptWrite r.word g (r :: rest) = g r :: rest := by
  simp [acceptWrite, modFirst, write, waits]

variable {i n : Nat} {t : Txn} (cfg : Cfg) (at_ : f.txnAt i n = some t) (who : r.who = .txn i n)
include at_ who

/-- HBM accepts the write: the end point of its tracker (R215). -/
theorem Fabric.hbmAccept_head (q : f.mem.hq = r :: rest) : f.hbmAccept cfg r.word = Fabric.settle cfg
    (({ f with mem := ({ f.mem with hq := { r with acc := true } :: rest } : Mem).countBytes false r.word true } : Fabric).put
      { t with wend := true }) := by
  have queued : ¬ ¬ acceptable false f.mem.hq r.word = true := by simp [q, acceptable_head write waits]
  have taken : takeWrite r.word f.mem.hq f.mem.hbm = some (r, f.mem.hbm) := q ▸ takeWrite_head write waits _
  rw [Fabric.hbmAccept, if_neg queued, taken]
  simp only [who, Fabric.modMem, Fabric.txnAt_mem, at_, q, acceptWrite_head write waits]

/-- The DDR5 controller accepts a write of a whole line: the end point of its tracker (R215). -/
theorem Fabric.ddrAccept_whole (q : f.mem.dq = r :: rest) (whole : r.be = allEn) (e1 e2 : ErrPat) :
    f.ddrAccept cfg r.word e1 e2 = Fabric.settle cfg
      (({ f with mem := f.mem.ddrAccepted r.word ({ r with acc := true } :: rest) } : Fabric).put { t with wend := true }) := by
  have queued : ¬ ¬ acceptable true f.mem.dq r.word = true := by simp [q, acceptable_head write waits]
  have taken : takeWrite r.word f.mem.dq f.mem.ddr = some (r, f.mem.ddr) := q ▸ takeWrite_head write waits _
  rw [Fabric.ddrAccept, if_neg queued, taken]
  simp only [if_pos whole, who, Fabric.modMem, Fabric.txnAt_mem, at_, q, acceptWrite_head write waits, Mem.ddrAccepted]

/-- The DDR5 controller accepts a write of some bytes: it reads the line, merges and rewrites it (R275). -/
theorem Fabric.ddrAccept_partial (q : f.mem.dq = r :: rest) (part : r.be ≠ allEn) (bytes : r.be ≠ 0)
    (good : (getWord f.mem.ddr r.word).pm = false) : f.ddrAccept cfg r.word ErrPat.none ErrPat.none = Fabric.settle cfg
      (({ f with mem := f.mem.ddrAccepted r.word ({ r with
        acc := true
        be := allEn
        data := mergeLine (getWord f.mem.ddr r.word).data r.data r.be } :: rest) } : Fabric).put { t with wend := true }) := by
  have queued : ¬ ¬ acceptable true f.mem.dq r.word = true := by simp [q, acceptable_head write waits]
  have taken : takeWrite r.word f.mem.dq f.mem.ddr = some (r, f.mem.ddr) := q ▸ takeWrite_head write waits _
  have decoded : decodeWord true (getWord f.mem.ddr r.word).data (getWord f.mem.ddr r.word).pm ErrPat.none =
      ⟨.good, (getWord f.mem.ddr r.word).data, 0, 0, 0⟩ := by rw [good]; exact if_pos rfl
  have enabled : r.be ≠ 0#64 := bytes
  rw [Fabric.ddrAccept, if_neg queued, taken]
  simp [part, enabled, who, decoded, Dec.usable, Fabric.mergeLog, mergeOnto, Fabric.modMem, Fabric.txnAt_mem, at_, q,
    acceptWrite_head write waits, Mem.ddrAccepted]

end

/-! ## A zero-map word returns (R280, R284) -/

/-- The word that a slice has used is in its cache. -/
theorem Mem.mapTouch_cached (m : Mem) {s : Nat} (hs : s < 8) (w : Nat) : (m.mapTouch s w).mapCached s w = true := by
  have last : w ∈ ((vget m.mapCache [] s).filter (fun x => x ≠ w) ++ [w]).drop
      (((vget m.mapCache [] s).filter (fun x => x ≠ w) ++ [w]).length - 1024) := by
    rw [List.drop_append_of_le_length (by simp)]
    simp
  simpa [Mem.mapTouch, Mem.mapCached, hs] using last

/-- The writes that mend a map word of which a copy was found bad (R284). -/
def Mem.mapMends (m : Mem) (w : Nat) : List MemReq :=
  if ∃ p ∈ m.mapBad, p.1 = w then [MemReq.tagWr (mapPrimary w), MemReq.tagWr (mapMirror w)] else []

/-- A memory once a slice has used a map word: no copy of it is bad, the slice holds it, and its summary bit clears when
no page of it is marked (R280). -/
def Mem.mapSeen (m : Mem) (s w : Nat) : Mem :=
  let n := ({ m with mapBad := m.mapBad.filter (fun p => p.1 ≠ w) } : Mem).mapTouch s w
  if n.wordClear w then { n with sumClear := Tab.set n.sumClear (s * 2 ^ 22 + w) () } else n

theorem Mem.mapSeen_keeps (m : Mem) (s w : Nat) : (m.mapSeen s w).hbm = m.hbm ∧ (m.mapSeen s w).ddr = m.ddr ∧
    (m.mapSeen s w).unmarked = m.unmarked ∧ (m.mapSeen s w).hq = m.hq := by
  unfold Mem.mapSeen
  dsimp only
  split
  · exact ⟨rfl, rfl, rfl, rfl⟩
  · exact ⟨rfl, rfl, rfl, rfl⟩

theorem Mem.mapSeen_cached (m : Mem) {s : Nat} (hs : s < 8) (w : Nat) : (m.mapSeen s w).mapCached s w = true := by
  have touched := Mem.mapTouch_cached { m with mapBad := m.mapBad.filter (fun p => p.1 ≠ w) } hs w
  unfold Mem.mapSeen
  dsimp only
  split
  · exact touched
  · exact touched

/-- A map word that a slice has read mends its bad copy and is then the slice's most recent. -/
theorem Fabric.mapLearn_eq (f : Fabric) (s w : Nat) : f.mapLearn s w 1 =
    { f with mem := ({ f.mem with hq := f.mem.hq ++ f.mem.mapMends w } : Mem).mapSeen s w } := by
  by_cases bad : ∃ p ∈ f.mem.mapBad, p.1 = w
  · have any : f.mem.mapBad.any (fun p => p.1 = w) = true := by simpa using bad
    rw [Fabric.mapLearn, Mem.mapMends, if_pos any, if_pos bad]
    simp only [Fabric.modMem, Fabric.pushH, Mem.mapSeen, List.append_assoc]
    rfl
  · have any : ¬ f.mem.mapBad.any (fun p => p.1 = w) = true := by simpa using bad
    rw [Fabric.mapLearn, Mem.mapMends, if_neg any, if_neg bad, List.append_nil]
    rfl

theorem Fabric.txnAt_slice {f : Fabric} {i n : Nat} {t : Txn} (at_ : f.txnAt i n = some t) : t.slice = i := by
  have here := List.find?_some at_
  simp only [Bool.and_eq_true, decide_eq_true_eq] at here
  exact here.1

/-- The map word that a tracker waits for returns without an error (R280). -/
theorem Fabric.mapReturn_good {f : Fabric} {i n : Nat} {t : Txn} (cfg : Cfg) (hn : n < 4096) (at_ : f.txnAt i n = some t)
    (asked : t.mapAsked = true) : f.mapReturn cfg i n ErrPat.none =
      Fabric.settle cfg ((f.takeReads (.map i n)).mapLearn i (mapWord (backPage t.back)) 1) := by
  have owner : f.mapOwner i n = .map i n := if_pos hn
  obtain ⟨tb, rows, frame⟩ := f.takeReads_frame (.map i n)
  have at' : (f.takeReads (.map i n)).txnAt i n = some t := by rw [frame]; exact at_
  have awaited : (f.takeReads (.map i n)).mapAwaited cfg (.map i n) = some (i, mapWord (backPage t.back), t.tenant) := by
    simp [Fabric.mapAwaited, at', asked]
  rw [Fabric.mapReturn, owner]
  dsimp only
  rw [awaited]
  dsimp only
  rw [decodeWord_clean, Fabric.readCounts_good cfg _ _ _ rfl]
  rfl

/-- The reads of an owner are taken and the map word that they brought is learnt: what that leaves of the memory. -/
theorem Fabric.takeReads_mapLearn_frame (f : Fabric) (who : Owner) {s : Nat} (hs : s < 8) (w : Nat) : ∃ m : Mem,
    (f.takeReads who).mapLearn s w 1 = { f with mem := m } ∧ m.mapCached s w = true ∧ m.hbm = f.mem.hbm ∧ m.ddr = f.mem.ddr ∧
      m.unmarked = f.mem.unmarked ∧
      m.hq = f.mem.hq.filter (fun r => ¬ (r.who = who ∧ r.again = false)) ++ f.mem.mapMends w := by
  obtain ⟨tb, rows, reads⟩ := f.takeReads_frame who
  rw [reads, Fabric.mapLearn_eq]
  exact ⟨_, rfl, Mem.mapSeen_cached _ hs w, Mem.mapSeen_keeps _ s w⟩

/-! ## A page fill reaches the DDR5 queue (R282) -/

/-- A change of the counters of a slice that leaves what `h` reads leaves what `h` reads in every slice. -/
theorem vget_vmod_congr {α β : Type} {n : Nat} (v : Vector α n) (d : α) (i j : Nat) {g : α → α} {h : α → β}
    (same : ∀ x, h (g x) = h x) : h (vget (vmod v i g) d j) = h (vget v d j) := by
  by_cases e : j = i
  · subst e
    by_cases hj : j < n
    · rw [vget_vmod_same _ _ _ _ hj, same]
    · simp [vget, vmod, hj]
  · rw [vget_vmod_other _ _ _ _ _ e]

/-- Counting discarded speculative data counts no page fill. -/
theorem Fabric.foldl_specDiscard_frame (l : List Txn) : ∀ f : Fabric, ∃ ss,
    l.foldl (fun f t => f.modStat t.slice (fun x => { x with specDiscard := bvSat x.specDiscard 1 })) f = { f with sstat := ss } ∧
    ∀ i, (vget ss SliceStat.zero i).pageFills = (vget f.sstat SliceStat.zero i).pageFills := by
  induction l with
  | nil => exact fun f => ⟨f.sstat, rfl, fun _ => rfl⟩
  | cons t l ih =>
    intro f
    obtain ⟨ss, eq, fills⟩ := ih (f.modStat t.slice (fun x => { x with specDiscard := bvSat x.specDiscard 1 }))
    exact ⟨ss, eq, fun i => (fills i).trans (vget_vmod_congr (h := SliceStat.pageFills) _ _ _ _ fun _ => rfl)⟩

/-- Discarding old speculative data changes counters and trackers, and counts no page fill (R193). -/
theorem Fabric.staleSpec_frame (f : Fabric) (hit : Txn → Bool) : ∃ ss tx, f.staleSpec hit = { f with sstat := ss, txns := tx } ∧
    ∀ i, (vget ss SliceStat.zero i).pageFills = (vget f.sstat SliceStat.zero i).pageFills := by
  obtain ⟨ss, counted, fills⟩ := Fabric.foldl_specDiscard_frame
    (f.txns.filter (fun t => hit t && (match t.spec with | some (some _) => true | _ => false))) f
  exact ⟨ss, _, congrArg (fun g : Fabric =>
    { g with txns := modAll hit (fun (t : Txn) => { t with spec := none }) g.txns }) counted, fills⟩

/-- The write of line `k` of a page that tracker `n` of slice `i` fills: the written line merged onto zeros, or zeros. -/
def Txn.fillWrite (t : Txn) (i n : Nat) (through : Bool) (k : Nat) : MemReq :=
  if backPage t.back * 64 + k = t.back then
    MemReq.wr t.back (mergeLine 0 t.wd t.wbe) allEn t.wpo (if through then .through t.la else .txn i n)
  else { MemReq.wr (backPage t.back * 64 + k) 0 allEn false (.fill i n) with acc := true }

theorem Txn.fillWrite_spec (t : Txn) (i n : Nat) (through : Bool) {k : Nat} (hk : k < 64) :
    let q := t.fillWrite i n through k
    q.write = true ∧ q.be = allEn ∧ backPage q.word = backPage t.back ∧
      q.data = if q.word = t.back then mergeLine 0 t.wd t.wbe else 0 := by
  by_cases here : backPage t.back * 64 + k = t.back
  · simp [Txn.fillWrite, here, MemReq.wr]
  · have page : backPage (backPage t.back * 64 + k) = backPage t.back := by unfold backPage; omega
    simp [Txn.fillWrite, here, MemReq.wr, page]

/-- A page fill of a device that is no part of a pair: 64 writes, the mark cleared, the count of the slice (R282). -/
theorem Fabric.pageFill_alone {f : Fabric} {i n : Nat} {t : Txn} {through : Bool} {rest : List Micro} (cfg : Cfg)
    (at_ : f.txnAt i n = some t) (hi : i < 8) (todo : t.todo = .fillWait through :: rest) (alone : f.mirrors = false)
    (untracked : f.twin.tracking = false) : ∃ g : Fabric,
      f.pageFill cfg i n = Fabric.settle cfg (g.put { t with todo := rest, wend := t.wend || through }) ∧
      g.mem.unmarked = Tab.set f.mem.unmarked (backPage t.back) () ∧
      g.mem.dq = f.mem.dq ++ (List.range 64).map (t.fillWrite i n through) ∧
      (vget g.sstat SliceStat.zero i).pageFills = bvSat (vget f.sstat SliceStat.zero i).pageFills 1 ∧
      g.mem.hbm = f.mem.hbm ∧ g.mem.ddr = f.mem.ddr := by
  have each : (fun (f : Fabric) k => if backPage t.back * 64 + k = t.back then
        f.pushD (MemReq.wr t.back (mergeLine 0 t.wd t.wbe) allEn t.wpo (if through then .through t.la else .txn i n))
      else f.pushD { MemReq.wr (backPage t.back * 64 + k) 0 allEn false (.fill i n) with acc := true }) =
      fun f k => f.pushD (t.fillWrite i n through k) := by
    funext f k
    unfold Txn.fillWrite
    split <;> rfl
  unfold Fabric.pageFill
  rw [at_]
  dsimp only
  rw [todo]
  dsimp only
  have told : ∀ (g : Fabric) (r : TRec), ∀ twin : g.twin = f.twin, (g.trackPage (backPage t.back)).logFree r = g := by
    intro g r twin
    have mirrors : g.mirrors = false := by rw [← alone, Fabric.mirrors, twin, Fabric.mirrors]
    rw [Fabric.trackPage, if_neg (by simp [twin, untracked]), Fabric.logFree, if_pos (by simp [mirrors])]
  obtain ⟨ss, tx, stale, fills⟩ := Fabric.staleSpec_frame
    ((({ f with mem := { f.mem with dq := f.mem.dq ++ (List.range 64).map (t.fillWrite i n through) } } : Fabric).modMem
      (fun m => m.unmark (backPage t.back))).mapWrites (backPage t.back))
    (fun u => u.rgn.isSome && backPage u.back = backPage t.back && t.other u)
  rw [each, Fabric.foldl_pushD, stale, told]
  case twin => rfl
  refine ⟨_, rfl, rfl, rfl, ?_, rfl, rfl⟩
  exact (congrArg SliceStat.pageFills (vget_vmod_same _ _ _ _ hi)).trans (congrArg (bvSat · 1) (fills i))

end Sys2Proof.Machine

namespace Sys2Proof
open Machine

/-- Settles O49: a read at the front of its queue gives its word to its tracker or is read again, an accepted write
reaches its tracker, a zero-map word is cached and mended, and a page fill queues the 64 lines of its page. -/
theorem memoriesReadAndAcceptWrites : Obligations.MemoriesReadAndAcceptWrites := by
  unfold Obligations.MemoriesReadAndAcceptWrites
  intro s i n t hi on onSlice at_ demand f goes
  refine ⟨fun r rest q read first who => ?hbm, fun r rest q read first who => ?ddr, fun r rest err q read first who bad => ?again,
    fun r rest q read second who clean whole => ?reread, fun r rest q write waits who => ?accept,
    fun r rest e1 e2 q write waits be who => ?whole, fun r rest q write waits part bytes clean who => ?merge,
    fun hn asked => ?map, fun through rest todo alone untracked => ?fill⟩
  case hbm =>
    obtain ⟨m, ⟨_, _, _, _, rfl⟩, gives⟩ := Fabric.hbmReturn_gives s.cfg read who at_ demand q first
    exact ⟨_, exec_after (exec_hbmReadReturn on _ _) gives, rfl, rfl, rfl, rfl, rfl⟩
  case ddr =>
    obtain ⟨m, ⟨_, _, _, _, rfl⟩, gives⟩ := Fabric.ddrReturn_gives s.cfg read who at_ demand q first
    exact ⟨_, exec_after (exec_ddr5ReadReturn on _ _) gives, rfl, rfl, rfl, rfl, rfl⟩
  case again =>
    obtain ⟨m, ⟨_, _, _, _, rfl⟩, again⟩ := Fabric.hbmReturn_again s.cfg read who at_ demand q first bad
    exact ⟨_, exec_after (exec_hbmReadReturn on _ _) again, rfl, rfl, rfl⟩
  case reread =>
    obtain ⟨m, ⟨_, _, _, _, rfl⟩, gives⟩ := Fabric.rereadReturn_gives s.cfg read who at_ demand q second clean whole
    exact ⟨_, exec_after (exec_rereadReturn_hbm on _ _) gives, rfl, Fabric.transientFault_hbm _ _⟩
  case accept =>
    exact ⟨_, exec_after (exec_hbmWriteAccept on _) (Fabric.hbmAccept_head write waits s.cfg at_ who q), rfl, rfl, rfl, rfl⟩
  case whole =>
    exact ⟨_, exec_after (exec_ddr5WriteAccept on _ _ _) (Fabric.ddrAccept_whole write waits s.cfg at_ who q be e1 e2),
      rfl, rfl, rfl, rfl⟩
  case merge =>
    exact ⟨_, exec_after (exec_ddr5WriteAccept on _ _ _) (Fabric.ddrAccept_partial write waits s.cfg at_ who q part bytes clean),
      rfl, rfl⟩
  case map =>
    obtain ⟨m, learnt, cached, hbm, ddr, unmarked, hq⟩ := f.takeReads_mapLearn_frame (.map i n) hi (mapWord (backPage t.back))
    refine ⟨m, exec_after (exec_zeroMapWordReturn hi onSlice n _) ?_, ?_, hbm, ddr, unmarked, hq⟩
    · rw [Fabric.mapReturn_good s.cfg hn at_ asked, learnt]
    · rw [Fabric.txnAt_slice at_]
      exact cached
  case fill =>
    obtain ⟨g, filled, unmarked, dq, count, hbm, ddr⟩ := Fabric.pageFill_alone s.cfg at_ hi todo alone untracked
    refine ⟨g, exec_after (exec_pageFillQueued hi onSlice n) filled, ?_, ?_, ?_, count, hbm, ddr⟩
    · simp [Mem.marked, unmarked, Tab.find_set_same]
    · simp [dq, f]
    · intro q new
      rw [dq, List.drop_left] at new
      obtain ⟨k, hk, rfl⟩ := List.mem_map.mp new
      exact t.fillWrite_spec i n through (List.mem_range.mp hk)

end Sys2Proof
end

section
/-! SUPPORT. Ordered tokens and end-point notices at an ordering unit, prefetch data that returns, resolutions, training
records and stride targets (R200, R203 to R207, R219, R226). -/
namespace Sys2Proof.Machine

/-! ## Commands of the ordering units and of prefetch -/

section
variable {s : State} {a : Nat} (ha : a < 32) (on : s.linkOn a = true)
include ha on

theorem exec_orderedToken : exec (.orderedToken a) s = .next (s.after (s.fab.orderedToken s.cfg a)) :=
  congrArg Host.Outcome.next ((if_pos ha).trans (State.atLink_on on _))

theorem exec_endPointNotice : exec (.endPointNotice a) s = .next (s.after (s.fab.endPointNotice s.cfg a)) :=
  congrArg Host.Outcome.next ((if_pos ha).trans (State.atLink_on on _))

end

section
variable {s : State} (on : s.on 10 = true)
include on

theorem exec_prefetchQueueTimeout (la : LAddr) : exec (.prefetchQueueTimeout la) s = .next (s.after (s.fab.pfTimeout la)) :=
  congrArg Host.Outcome.next (State.atMem_on on _)

theorem exec_prefetchDataReturn (line : Nat) (err : ErrPat) :
    exec (.prefetchDataReturn line err) s = .next (s.after (s.fab.prefetchReturn s.cfg line err)) :=
  congrArg Host.Outcome.next (State.atMem_on on _)

theorem exec_prefetchResolutionReport : exec .prefetchResolutionReport s = .next (s.after (s.fab.pfReport s.cfg)) :=
  congrArg Host.Outcome.next (State.atMem_on on _)

theorem exec_strideTrainingRecord : exec .strideTrainingRecord s = .next (s.after (s.fab.train s.cfg)) :=
  congrArg Host.Outcome.next (State.atMem_on on _)

theorem exec_strideTarget : exec .strideTarget s = .next (s.after (s.fab.strideTarget s.cfg)) :=
  congrArg Host.Outcome.next (State.atMem_on on _)

end

/-! ## Tokens and notices (R219, R226) -/

theorem Fabric.ordOf_modOrd_other (f : Fabric) {a b : Nat} (other : b ≠ a) (g : Ord → Ord) : (f.modOrd a g).ordOf b = f.ordOf b :=
  vget_vmod_other _ _ _ _ _ other

/-- A unit once the token of entry `x` has come: the entry is freed; it is short of its end point unless that has come, or
it is a device read. -/
def Ord.tokenTaken (o : Ord) (id : Nat) (rest : List Nat) (x : OItem) : Ord :=
  { o with
    tokens := rest
    items := dropFirst (fun z => z.id = id) o.items
    short := if x.endp = true ∨ x.op = .rdUncached then o.short else o.short ++ [id] }

/-- A unit once the end-point notice of entry `id` has come. -/
def Ord.noticeTaken (o : Ord) (id : Nat) (rest : List Nat) : Ord :=
  { o with
    notices := rest
    short := o.short.filter (fun n => n ≠ id)
    items := modFirst (fun z => z.id = id) (fun z => { z with endp := true }) o.items }

/-- A token frees its entry, and what it held back goes on. -/
theorem Fabric.orderedToken_entry {f : Fabric} {a id : Nat} {rest : List Nat} {x : OItem} (cfg : Cfg)
    (token : (f.ordOf a).tokens = id :: rest) (entry : (f.ordOf a).items.find? (fun z => z.id = id) = some x) :
    f.orderedToken cfg a = Fabric.arbAll cfg
      (((((f.modOrd a (fun o => o.tokenTaken id rest x)).ordPromote cfg a).ordRun cfg a)).orphansDone a) := by
  rw [Fabric.orderedToken, token]
  dsimp only
  rw [entry]
  simp only [Ord.tokenTaken, Bool.or_eq_true, beq_iff_eq]

/-- A notice ends its entry, and what it held back goes on. -/
theorem Fabric.endPointNotice_entry {f : Fabric} {a id : Nat} {rest : List Nat} (cfg : Cfg)
    (notice : (f.ordOf a).notices = id :: rest) : f.endPointNotice cfg a = Fabric.arbAll cfg
      (((f.modOrd a (fun o => o.noticeTaken id rest)).ordRun cfg a).orphansDone a) := by
  rw [Fabric.endPointNotice, notice]
  rfl

/-! ## A queued prefetch (R200) -/

theorem Fabric.modStat_sstat (f : Fabric) {s : Nat} (hs : s < 8) (g : SliceStat → SliceStat) :
    vget (f.modStat s g).sstat SliceStat.zero s = g (vget f.sstat SliceStat.zero s) := vget_vmod_same _ _ _ _ hs

/-- The prefetch at the front of the queue has waited too long: it is dropped and counted. -/
theorem Fabric.pfTimeout_head {f : Fabric} {p : Pf} {rest : List Pf} (queue : f.pfu.queue = p :: rest) (waits : p.issued = false) :
    f.pfTimeout p.la = ({ f with pfu := { f.pfu with queue := rest } } : Fabric).modStat p.slice
      (fun x => { x with dropped := bvSat x.dropped 1 }) := by
  simp [Fabric.pfTimeout, queue, waits, dropFirst]

/-! ## Prefetch data returns (R203, R204) -/

/-- Tidying a way changes nothing but the cache. -/
theorem Fabric.tidyWay_frame (f : Fabric) (r : TagRes) (la : LAddr) : ∃ c, f.tidyWay r la = { f with cache := c } := by
  unfold Fabric.tidyWay
  repeat' split
  all_goals exact ⟨_, rfl⟩

section
variable {f : Fabric} {p : Pf} (cfg : Cfg) (queue : f.pfu.queue = [p]) (issued : p.issued = true) (kept : p.promoted = false)
include queue issued kept

/-- The data of a cancelled prefetch is discarded and counted; at most a Cober way is tidied. -/
theorem Fabric.prefetchFill_cancelled (cancelled : p.cancelled = true) (data : Line) (pois : Bool) : ∃ c,
    f.prefetchFill cfg p.la data pois = { ({ f with pfu := { f.pfu with queue := [] } } : Fabric).modStat p.slice
      (fun x => { x with cancelled := bvSat x.cancelled 1 }) with cache := c } ∧
    ((∀ k, p.key ≠ some (true, k)) → c = f.cache) := by
  have discards : f.prefetchFill cfg p.la data pois = (({ f with pfu := { f.pfu with queue := [] } } : Fabric).modStat p.slice
      (fun x => { x with cancelled := bvSat x.cancelled 1 })).tidyWay
        (if (p.key.getD (false, 0)).1 then .cober (p.key.getD (false, 0)).2 else .sector (p.key.getD (false, 0)).2) p.la := by
    simp [Fabric.prefetchFill, queue, issued, kept, cancelled, dropFirst]
  rw [discards]
  match e : p.key with
  | some (true, k) =>
    obtain ⟨c, tidied⟩ := Fabric.tidyWay_frame (({ f with pfu := { f.pfu with queue := [] } } : Fabric).modStat p.slice
      (fun x => { x with cancelled := bvSat x.cancelled 1 })) (.cober k) p.la
    exact ⟨c, tidied, fun sector => absurd rfl (sector k)⟩
  | some (false, k) => exact ⟨f.cache, rfl, fun _ => rfl⟩
  | none => exact ⟨f.cache, rfl, fun _ => rfl⟩

/-- The data of a prefetch fills its line, which is recorded. -/
theorem Fabric.prefetchFill_sector {k : Nat} (wanted : p.cancelled = false) (key : p.key = some (false, k))
    (here : f.cache.find cfg false p.la = .sector k) (invalid : (f.cache.bits (.sector k) (subOf p.la)).1 = false)
    (record : f.pfu.record = []) (data : Line) : f.prefetchFill cfg p.la data false = { f with
      pfu := { f.pfu with queue := [], record := [{ slice := p.slice, la := p.la, agent := p.agent, shadow := false }] }
      cache := f.cache.setBitsOf (.sector k) (subOf p.la) true false false
      mem := { f.mem with hq := f.mem.hq ++
        [{ MemReq.wr (lineWord cfg (.sector k) (subOf p.la)) data allEn false .none with acc := true }] } } := by
  simp [Fabric.prefetchFill, queue, issued, kept, wanted, key, here, invalid, dropFirst, Fabric.recordAdd, record, Fabric.pushH]

end

/-- A prefetch's word without an error goes where its prefetch says, poisoned where it is stored so or its map word is
lost. -/
theorem Fabric.prefetchRead_first (cfg : Cfg) (f : Fabric) (r : MemReq) (w : CWord) (pois : Bool) (la : LAddr) :
    f.prefetchRead cfg r (readDec true w pois ErrPat.none) false la =
      Fabric.settle cfg (f.prefetchFill cfg la w.data (w.pm || pois || f.mem.mapLost (backPage r.word))) := by
  obtain ⟨usable, stored, data, poisoned⟩ := readDec_clean true w pois
  rw [Fabric.prefetchRead, if_pos usable, Fabric.readCounts_first _ _ _ _ stored]
  dsimp only
  rw [if_neg stored, data, poisoned]

/-- Backing data of a prefetch returns without an error (R203). -/
theorem Fabric.prefetchReturn_head {f : Fabric} {r : MemReq} {rest : List MemReq} {i : Nat} {la : LAddr} (cfg : Cfg)
    (read : r.write = false) (first : r.again = false) (who : r.who = .prefetch i la) (q : f.mem.dq = r :: rest) :
    ∃ m : Mem, ({ f.mem with dq := rest } : Mem).Accessed m ∧ f.prefetchReturn cfg r.word ErrPat.none = Fabric.settle cfg
      (({ f with mem := m } : Fabric).prefetchFill cfg la (getWord f.mem.ddr r.word).data
        ((getWord f.mem.ddr r.word).pm || r.pois || m.mapLost (backPage r.word))) := by
  have reader := nextReader_head (rest := rest) read
  have served := Fabric.readReturn_head true q read ErrPat.none
  rw [first] at reader served
  refine ⟨_, Mem.accessed_served _ true r.word, ?_⟩
  rw [Fabric.prefetchReturn, q, reader, who]
  dsimp only
  rw [served]
  exact Fabric.prefetchRead_first cfg _ r _ _ la

/-! ## Resolutions (R205) -/

/-- A resolution below the 256th is counted. -/
theorem Fabric.pfReport_counts {f : Fabric} {a : Nat} {used : Bool} {rest : List (Nat × Bool)} (cfg : Cfg)
    (reports : f.pfu.reports = (a, used) :: rest) (fewer : (vget f.pfu.counts (0, 0) a).1 < 255) : f.pfReport cfg =
      { f with pfu := { f.pfu with
        reports := rest
        counts := vset f.pfu.counts a ((vget f.pfu.counts (0, 0) a).1 + 1, (vget f.pfu.counts (0, 0) a).2 + b2n used) } } := by
  rw [Fabric.pfReport, reports]
  exact congrArg (fun p => { f with pfu := p }) (if_pos (Nat.succ_lt_succ fewer))

/-- The 256th resolution of an agent in NSB mode with too few used sets its stride mode. -/
theorem Fabric.pfReport_stride {f : Fabric} {a : Nat} {used : Bool} {rest : List (Nat × Bool)} (cfg : Cfg)
    (reports : f.pfu.reports = (a, used) :: rest) (full : (vget f.pfu.counts (0, 0) a).1 = 255)
    (nsb : f.pfu.mode.toNat.testBit a = false) (poor : (vget f.pfu.counts (0, 0) a).2 + b2n used < cfg.accLo) :
    f.pfReport cfg = { f with pfu := { f.pfu with
      reports := rest
      counts := vset f.pfu.counts a (0, 0)
      mode := BitVec.ofNat 32 (putBit f.pfu.mode.toNat a true) } } := by
  simp [Fabric.pfReport, reports, full, nsb, poor]

theorem testBit_putBit {x i : Nat} (clear : x.testBit i = false) : (putBit x i true).testBit i = true := by
  have field : bitsOf x i 1 = 0 := by
    refine Nat.eq_of_testBit_eq fun j => ?_
    rw [testBit_bitsOf]
    by_cases hj : j = 0 <;> simp [hj, clear]
  have sum : putBit x i true = 2 ^ i + x := by
    simp [putBit, setBits, field, b2n, Nat.shiftLeft_eq, Nat.add_comm]
  rw [sum, Nat.testBit_two_pow_add_eq, clear]
  rfl

theorem testBit_ofNat_putBit {x i w : Nat} (hi : i < w) (clear : x.testBit i = false) :
    (BitVec.ofNat w (putBit x i true)).toNat.testBit i = true := by
  rw [BitVec.toNat_ofNat, Nat.testBit_mod_two_pow, testBit_putBit clear, decide_eq_true hi]
  rfl

/-! ## Training and targets (R206, R207) -/

/-- The stream that a training record starts where none is known. -/
def Train.starts (tr : Train) : Stream :=
  { pfu := (tr.agent + if tr.stream = 0 then bitsOf tr.la.toNat 16 3 else tr.stream) % 8
    agent := tr.agent
    key := if tr.stream = 0 then 8 + tr.la.toNat / 2 ^ 16 else tr.stream
    last := tr.la.toNat
    stride := 0
    conf := 0
    next := tr.la.toNat }

/-- The first training record starts a stream. -/
theorem Fabric.train_first {f : Fabric} {tr : Train} {rest : List Train} (cfg : Cfg) (training : f.pfu.training = tr :: rest)
    (streams : f.pfu.streams = []) :
    f.train cfg = { f with pfu := { f.pfu with training := rest, streams := [tr.starts] } } := by
  simp [Fabric.train, training, streams, Train.starts]

/-- A stopped prefetch unit drops a target. -/
theorem Fabric.strideTarget_stopped {f : Fabric} {a : Nat} {la : LAddr} {rest : List (Nat × LAddr)} (cfg : Cfg)
    (targets : f.pfu.targets = (a, la) :: rest) (stopped : f.pfu.stopped = true) :
    f.strideTarget cfg = { f with pfu := { f.pfu with targets := rest } } := by
  rw [Fabric.strideTarget, targets]
  exact if_pos (by simp [stopped])

theorem Fabric.activeHome_pfu (f : Fabric) (p : Pfu) (la : LAddr) :
    ({ f with pfu := p } : Fabric).activeHome la = f.activeHome la := rfl

/-- A target that is no candidate already known is queued at its home slice. -/
theorem Fabric.strideTarget_queued {f : Fabric} {a : Nat} {la : LAddr} {rest : List (Nat × LAddr)} (cfg : Cfg)
    (targets : f.pfu.targets = (a, la) :: rest) (runs : f.pfu.stopped = false) (alone : f.alone = true)
    (queue : f.pfu.queue = []) (new : f.candidateDrop cfg (cfg.regionOf la) la = false) :
    f.strideTarget cfg = { f with pfu := { f.pfu with
      targets := rest
      queue := [{ slice := sliceOf la, la := la, agent := a, issued := false, cancelled := false, promoted := false,
                  key := none, mapAsked := false }] } } := by
  have fresh : ({ f with pfu := { f.pfu with targets := rest } } : Fabric).candidateDrop cfg (cfg.regionOf la) la = false := new
  have free : ¬ 256 ≤ (f.pfu.queue.filter (fun p => p.slice = sliceOf la && ¬ p.issued)).length := by simp [queue]
  rw [Fabric.strideTarget, targets]
  refine (if_neg ?_).trans ?_
  · simp [runs, Fabric.activeHome_pfu, Fabric.activeHome_of_alone alone]
  · rw [Fabric.queuePrefetch, if_neg (by simp [fresh]), if_neg free, queue]
    rfl

end Sys2Proof.Machine

namespace Sys2Proof
open Machine

/-- Settles O51: a token or a notice changes its unit alone before what it held back goes on, prefetch data fills its line or
is discarded, resolutions move the counts and the mode, a record starts a stream, and a target is queued or dropped. -/
theorem tokensNoticesAndPrefetches : Obligations.TokensNoticesAndPrefetches := by
  unfold Obligations.TokensNoticesAndPrefetches
  intro s on f goes
  refine ⟨fun a id rest x ha link token entry => ?token, fun a id rest ha link notice => ?notice,
    fun p rest queue waits hs => ?timeout, fun p r rest queue issued cancelled kept hs q read first who => ?discarded,
    fun p r rest k queue record issued wanted kept key here invalid page q read first whole clean who => ?filled,
    fun a used rest reports ha fewer => ?counted, fun a used rest reports ha full nsb poor => ?stride,
    fun tr rest training streams => ?training, fun a la rest targets stopped => ?stopped,
    fun a la rest targets runs alone queue new => ?queued⟩
  case token =>
    exact ⟨_, exec_after (exec_orderedToken ha link) (Fabric.orderedToken_entry s.cfg token entry), Fabric.ordOf_modOrd ha _,
      rfl, rfl, rfl, fun b other => Fabric.ordOf_modOrd_other _ other _⟩
  case notice =>
    exact ⟨_, exec_after (exec_endPointNotice ha link) (Fabric.endPointNotice_entry s.cfg notice), Fabric.ordOf_modOrd ha _,
      rfl, rfl, rfl, fun b other => Fabric.ordOf_modOrd_other _ other _⟩
  case timeout =>
    exact ⟨_, exec_after (exec_prefetchQueueTimeout on _) (Fabric.pfTimeout_head queue waits), rfl,
      congrArg SliceStat.dropped (Fabric.modStat_sstat _ hs _), rfl, rfl, rfl⟩
  case discarded =>
    obtain ⟨m, acc, returns⟩ := Fabric.prefetchReturn_head s.cfg read first who q
    obtain ⟨c, fills, tidy⟩ := Fabric.prefetchFill_cancelled s.cfg (f := { f with mem := m }) queue issued kept cancelled
      (getWord f.mem.ddr r.word).data ((getWord f.mem.ddr r.word).pm || r.pois || m.mapLost (backPage r.word))
    obtain ⟨_, _, _, _, rfl⟩ := acc
    exact ⟨_, exec_after (exec_prefetchDataReturn on _ _) (returns.trans (congrArg (Fabric.settle s.cfg) fills)), rfl, rfl, rfl,
      tidy, rfl, congrArg SliceStat.cancelled (Fabric.modStat_sstat _ hs _), rfl⟩
  case filled =>
    obtain ⟨m, acc, returns⟩ := Fabric.prefetchReturn_head s.cfg read first who q
    have fills := Fabric.prefetchFill_sector s.cfg (f := { f with mem := m }) queue issued kept wanted key here invalid record
      (getWord f.mem.ddr r.word).data
    obtain ⟨_, _, _, _, rfl⟩ := acc
    have good : ((getWord f.mem.ddr r.word).pm || r.pois || f.mem.mapLost (backPage r.word)) = false := by
      simp [clean, whole, page]
    exact ⟨_, exec_after (exec_prefetchDataReturn on _ _) (returns.trans (congrArg (Fabric.settle s.cfg)
      ((congrArg _ good).trans fills))), rfl, rfl, rfl, rfl, rfl, rfl⟩
  case counted => exact exec_after (exec_prefetchResolutionReport on) (Fabric.pfReport_counts s.cfg reports fewer)
  case stride =>
    exact ⟨_, exec_after (exec_prefetchResolutionReport on) (Fabric.pfReport_stride s.cfg reports full nsb poor),
      testBit_ofNat_putBit ha nsb, vget_vset_same _ _ _ _ ha, rfl⟩
  case training =>
    exact ⟨_, exec_after (exec_strideTrainingRecord on) (Fabric.train_first s.cfg training streams), rfl,
      ⟨tr.starts, rfl, rfl, rfl, rfl, rfl⟩, rfl, rfl, rfl⟩
  case stopped => exact exec_after (exec_strideTarget on) (Fabric.strideTarget_stopped s.cfg targets stopped)
  case queued =>
    exact ⟨_, exec_after (exec_strideTarget on) (Fabric.strideTarget_queued s.cfg targets runs alone queue new), rfl, rfl, rfl, rfl⟩

end Sys2Proof
end

section
/-! SUPPORT. The Harrow's queues and its completion records: descriptors taken from agents, the host ring and the records
that wait for a place in it, the end of a descriptor, HARROW_REAP and HARROW_ABORT (R242, R243, R246, R248, R249, R251,
R258, R451, R452). -/
namespace Sys2Proof.Machine

/-! ## The descriptor with a ticket -/

/-- A change of the first entry that satisfies `p`, which satisfies it afterwards, is found there. -/
theorem find?_modFirst {α : Type} {p : α → Bool} {g : α → α} {x : α} : ∀ {l : List α}, l.find? p = some x → p (g x) = true →
    (modFirst p g l).find? p = some (g x)
  | y :: l, here, same => by
    by_cases first : p y = true
    · obtain rfl : y = x := by simpa [first] using here
      simp [modFirst, first, same]
    · have later : l.find? p = some x := by simpa [first] using here
      simp [modFirst, first, find?_modFirst later same]

section
variable {f : Fabric} {tk : Nat} {d : Desc}

theorem Fabric.ticket_of_desc (here : f.desc tk = some d) : d.ticket = tk := by
  simpa using List.find?_some here

theorem Fabric.mem_of_desc (here : f.desc tk = some d) : d ∈ f.hrw.descs := List.mem_of_find?_eq_some here

theorem Fabric.desc_modDesc (here : f.desc tk = some d) {g : Desc → Desc} (same : (g d).ticket = d.ticket) :
    (f.modDesc tk g).desc tk = some (g d) :=
  find?_modFirst here (by simp [same, f.ticket_of_desc here])

theorem Fabric.desc_of_only (only : f.hrw.descs.filter (fun x => x.ticket = tk) = [d]) : f.desc tk = some d := by
  rw [Fabric.desc, ← List.head?_filter, only]
  rfl

/-- The only descriptor with a ticket, where it is this device's own, is the one that a command of the ticket finds. -/
theorem Fabric.find?_own_of_only (only : f.hrw.descs.filter (fun x => x.ticket = tk) = [d]) (own : d.mirror = false) :
    f.hrw.descs.find? (fun x => x.ticket = tk && ¬ x.mirror) = some d := by
  have both := List.find?_filter (xs := f.hrw.descs) (p := fun x => decide (x.ticket = tk))
    (q := fun x => decide (¬ x.mirror = true))
  rw [only] at both
  simpa [own] using both.symm

end

/-! ## Descriptors taken from agents (R243, R248) -/

/-- Between two Harrows descriptors that agents released have been taken: the ring and the count of aborts are the same,
and every descriptor of the host or the BMC was there before. -/
def Harrow.Fed (h k : Harrow) : Prop :=
  k.ring = h.ring ∧ k.ringSeq = h.ringSeq ∧ k.ringLate = h.ringLate ∧ k.aborted = h.aborted ∧
    ∀ x ∈ k.descs, 17 ≤ x.queue ∨ ∃ y ∈ h.descs, y.ticket = x.ticket ∧ y.queue = x.queue

theorem Harrow.Fed.refl (h : Harrow) : h.Fed h := ⟨rfl, rfl, rfl, rfl, fun x hx => .inr ⟨x, hx, rfl, rfl⟩⟩

theorem Harrow.Fed.trans {h k l : Harrow} (hk : h.Fed k) (kl : k.Fed l) : h.Fed l := by
  obtain ⟨ring, seq, late, aborted, descs⟩ := hk
  obtain ⟨ring', seq', late', aborted', descs'⟩ := kl
  refine ⟨ring'.trans ring, seq'.trans seq, late'.trans late, aborted'.trans aborted, fun x hx => ?_⟩
  rcases descs' x hx with agent | ⟨y, hy, ticket, queue⟩
  · exact .inl agent
  · rcases descs y hy with agent | ⟨z, hz, ticket', queue'⟩
    · exact .inl (queue ▸ agent)
    · exact .inr ⟨z, hz, ticket'.trans ticket, queue'.trans queue⟩

/-- An event that is raised where a condition holds. -/
theorem Fabric.raise_if (f : Fabric) (c : Prop) [Decidable c] (n : Nat) :
    (if c then f.raise n else f) = { f with raised := f.raised ++ if c then [(n, 0)] else [] } := by
  by_cases h : c
  · simp only [if_pos h]
    rfl
  · simp only [if_neg h, List.append_nil]

/-- The Harrow with a good descriptor at the end of its queues, under the next ticket; in a pair it is gated on its record
(R246). -/
def Fabric.queued (f : Fabric) (q : Nat) (raw : Line) (owed : Option Nat) : Harrow :=
  { f.hrw with
    descs := f.hrw.descs ++ [{ Desc.new f.hrw.nextTicket q raw with
      owed := owed
      gate := if f.mirrors && decide (q < 49) then some (8, vget f.twin.lseq 0 8) else none }]
    nextTicket := (f.hrw.nextTicket + 1) % 2 ^ 32 }

/-- A good descriptor takes the next ticket; beyond the queues only its record and an event leave a trace (R242, R246). -/
theorem Fabric.enqueue_eq (f : Fabric) (q : Nat) (raw : Line) (owed : Option Nat) : ∃ out lseq tl rs, f.enqueue q raw owed =
    ({ f with
      twin := { f.twin with outstanding := out, lseq := lseq }
      tlink := tl
      raised := rs
      hrw := f.queued q raw owed }, f.hrw.nextTicket) := by
  unfold Fabric.enqueue Fabric.queued
  by_cases logged : (f.mirrors && decide (q < 49)) = true
  · simp only [if_pos logged, Fabric.raise_if]
    exact ⟨_, _, _, _, rfl⟩
  · simp only [if_neg logged, Fabric.raise_if]
    exact ⟨f.twin.outstanding, f.twin.lseq, f.tlink, _, rfl⟩

theorem Fabric.submit_good {cfg : Cfg} {q : Nat} {raw : Line} (good : dscStatus cfg q raw = 0) (f : Fabric) (owed : Option Nat) :
    f.submit cfg q raw owed = ((f.enqueue q raw owed).1, 0, (f.enqueue q raw owed).2) := if_pos good

theorem Fabric.submit_bad {cfg : Cfg} {q : Nat} {raw : Line} (bad : dscStatus cfg q raw ≠ 0) (f : Fabric) (owed : Option Nat) :
    f.submit cfg q raw owed =
      ({ f with hrw := { f.hrw with refused := bvSat f.hrw.refused 1 } }, dscStatus cfg q raw, 0) := if_neg bad

theorem Fabric.submit_fed (cfg : Cfg) (f : Fabric) {q : Nat} (agent : 17 ≤ q) (raw : Line) (owed : Option Nat) :
    f.hrw.Fed (f.submit cfg q raw owed).1.hrw := by
  by_cases good : dscStatus cfg q raw = 0
  · obtain ⟨_, _, _, _, enqueued⟩ := f.enqueue_eq q raw owed
    rw [Fabric.submit_good good, enqueued]
    refine ⟨rfl, rfl, rfl, rfl, fun x hx => ?_⟩
    rcases List.mem_append.mp hx with old | new
    · exact .inr ⟨x, old, rfl, rfl⟩
    · exact .inl (by rw [List.mem_singleton.mp new]; exact agent)
  · rw [Fabric.submit_bad good]
    exact .refl f.hrw

theorem Fabric.bareComp_hrw (f : Fabric) (a x : Nat) (r : Res) (v : Nat) : (f.bareComp a x r v).hrw = f.hrw := by
  obtain ⟨ls, tl, sent⟩ := f.modLink_frame a (fun l => l.send portKind (mkComp x 0 .i false r v))
  obtain ⟨ls', tl', ended⟩ := (f.send a (mkComp x 0 .i false r v)).modLink_frame a (fun l => l.endTxid x)
  rw [Fabric.bareComp, Fabric.endLive, ended, Fabric.send, sent]

/-- Descriptors lose what they owe, and keep their tickets and queues. -/
theorem Harrow.fed_settleOwed (h : Harrow) (p : Desc → Bool) :
    h.Fed { h with descs := modAll p (fun d => { d with owed := none }) h.descs } := by
  refine ⟨rfl, rfl, rfl, rfl, fun x hx => ?_⟩
  obtain ⟨y, hy, rfl⟩ := List.mem_map.mp hx
  exact .inr ⟨y, hy, by split <;> rfl, by split <;> rfl⟩

theorem svcRunN_fed (cfg : Cfg) : ∀ (n : Nat) (f : Fabric), f.hrw.Fed (svcRunN cfg n f).hrw
  | 0, f => .refl f.hrw
  | n + 1, f => by
    unfold svcRunN
    split
    next => exact .refl f.hrw
    next a id tx raw next =>
      extract_lets rest
      set taken : Fabric := { f with hrw := { f.hrw with waiting := rest } }
      have fed : f.hrw.Fed (taken.submit cfg (17 + a) raw (some tx)).1.hrw :=
        taken.submit_fed cfg (Nat.le_add_right 17 a) raw (some tx)
      dsimp only
      refine (fed.trans ?_).trans (svcRunN_fed cfg n _)
      split
      · exact Harrow.fed_settleOwed _ _
      · simp only [Fabric.bareComp_hrw]
        exact Harrow.fed_settleOwed _ _

theorem Fabric.svcRun_fed (cfg : Cfg) (f : Fabric) : f.hrw.Fed (f.svcRun cfg).hrw := svcRunN_fed cfg _ f

/-! ## The host ring (R249, R451) -/

/-- Records that move into the ring are no business of the count of aborts. -/
theorem ringRunN_aborted : ∀ (n : Nat) (f : Fabric), (ringRunN n f).hrw.aborted = f.hrw.aborted
  | 0, _ => rfl
  | n + 1, f => by
    unfold ringRunN
    split
    · rfl
    · split
      · rfl
      · exact ringRunN_aborted n _

/-- A ring with a place takes a record that waits alone. -/
theorem ringRunN_one {f : Fabric} {l : Line} (late : f.hrw.ringLate = [l]) (room : f.hrw.ring.length < 256) :
    ringRunN 1 f = ({ f with hrw := { f.hrw with ringLate := [] } } : Fabric).ringPut l := by
  simp only [ringRunN, late]
  exact if_neg (Nat.not_le.mpr room)

/-- Records that take a place in the ring at once. -/
def Harrow.places (h : Harrow) : Nat := min h.ringLate.length (256 - h.ring.length)

/-- With no place, or no record that waits, the ring stays. -/
theorem ringRunN_of_none : ∀ (n : Nat) {f : Fabric}, f.hrw.places = 0 → ringRunN n f = f
  | 0, _, _ => rfl
  | n + 1, f, noPlace => by
    unfold ringRunN
    split
    next => rfl
    next l rest late => exact if_pos (by simp [Harrow.places, late] at noPlace; omega)

/-- A full ring takes no record. -/
theorem ringRunN_full (n : Nat) {f : Fabric} (full : 256 ≤ f.hrw.ring.length) : ringRunN n f = f :=
  ringRunN_of_none n (by simp [Harrow.places, Nat.sub_eq_zero_of_le full])

/-- The Harrow when the records that wait have taken the places of the ring, in order, each with the next ring sequence. -/
def Harrow.refilled (h : Harrow) : Harrow :=
  { h with
    ring := h.ring ++ (h.ringLate.take h.places).zipIdx.map (fun p => ((h.ringSeq + p.2) % 2 ^ 32, p.1))
    ringSeq := (h.ringSeq + h.places) % 2 ^ 32
    ringLate := h.ringLate.drop h.places }

theorem Harrow.refilled_of_none {h : Harrow} (seq : h.ringSeq < 2 ^ 32) (noPlace : h.places = 0) : h.refilled = h := by
  have same : (h.ringSeq + 0) % 2 ^ 32 = h.ringSeq := Nat.mod_eq_of_lt seq
  rw [Harrow.refilled, noPlace, same, List.take_zero, List.drop_zero, List.zipIdx_nil, List.map_nil, List.append_nil]

/-- The oldest record that waits takes a place, and the others follow. -/
theorem Harrow.refilled_cons {h : Harrow} {l : Line} {rest : List Line} (late : h.ringLate = l :: rest)
    (room : h.ring.length < 256) (seq : h.ringSeq < 2 ^ 32) :
    let k : Harrow := { h with ring := h.ring ++ [(h.ringSeq, l)], ringSeq := (h.ringSeq + 1) % 2 ^ 32, ringLate := rest }
    h.places = k.places + 1 ∧ h.refilled = k.refilled := by
  intro k
  have places : h.places = k.places + 1 := by
    simp only [Harrow.places, late, k, List.length_cons, List.length_append, List.length_nil]
    omega
  have next : ∀ i, (h.ringSeq + (i + 1)) % 2 ^ 32 = (k.ringSeq + i) % 2 ^ 32 := fun i => by
    simp only [k]
    omega
  have first : (h.ringSeq + 0) % 2 ^ 32 = h.ringSeq := Nat.mod_eq_of_lt seq
  refine ⟨places, ?_⟩
  have ring : (h.ringLate.take h.places).zipIdx.map (fun p => ((h.ringSeq + p.2) % 2 ^ 32, p.1)) =
      (h.ringSeq, l) :: (rest.take k.places).zipIdx.map (fun p => ((k.ringSeq + p.2) % 2 ^ 32, p.1)) := by
    rw [late, places, List.take_succ_cons, List.zipIdx_cons, List.map_cons, first, List.zipIdx_succ, List.map_map]
    exact congrArg _ (List.map_congr_left fun p _ => Prod.ext (next p.2) rfl)
  rw [Harrow.refilled, ring, places, next, late, List.drop_succ_cons, Harrow.refilled]
  simp [k]

/-- Where no record waits for a place in an empty ring, its first ring sequence is the one that it had before. -/
theorem Harrow.firstSeq_refilled {h : Harrow} (seq : h.ringSeq < 2 ^ 32) :
    h.refilled.firstSeq = Harrow.firstSeq { h.refilled with ringSeq := h.ringSeq } := by
  cases ring : h.refilled.ring with
  | cons r l => simp [Harrow.firstSeq, ring]
  | nil =>
    have noPlace : h.places = 0 := by
      have lengths : h.ring.length + min h.places h.ringLate.length = 0 := by simpa [Harrow.refilled] using ring
      simp only [Harrow.places] at lengths ⊢
      omega
    rw [Harrow.refilled_of_none seq noPlace]

/-- The records that wait enter the ring as long as it has places, and each raises source 144 (R249, R451). -/
theorem ringRunN_eq : ∀ (n : Nat) (f : Fabric), f.hrw.ringLate.length ≤ n → f.hrw.ringSeq < 2 ^ 32 → ringRunN n f =
    { f with raised := f.raised ++ List.replicate f.hrw.places (144, 0), hrw := f.hrw.refilled }
  | n, f, all, seq => by
    by_cases noPlace : f.hrw.places = 0
    · rw [Harrow.refilled_of_none seq noPlace, noPlace, ringRunN_of_none n noPlace, List.replicate_zero, List.append_nil]
    · match n, late : f.hrw.ringLate with
      | _, [] => simp [Harrow.places, late] at noPlace
      | 0, l :: rest => simp [late] at all
      | n + 1, l :: rest =>
        have room : f.hrw.ring.length < 256 := by
          simp [Harrow.places] at noPlace
          omega
        have fewer : rest.length ≤ n := by simpa [late] using all
        obtain ⟨places, refilled⟩ := Harrow.refilled_cons late room seq
        have others := ringRunN_eq n (({ f with hrw := { f.hrw with ringLate := rest } } : Fabric).ringPut l)
          fewer (Nat.mod_lt _ (Nat.two_pow_pos 32))
        simp only [ringRunN, late, if_neg (Nat.not_le.mpr room)]
        rw [others, places, refilled, List.replicate_succ]
        simp [Fabric.ringPut, Fabric.raise]

/-! ## A descriptor ends (R248, R249, R258) -/

/-- The status and the ticket of a completion record (Table 9.5). -/
theorem Desc.record_fields (d : Desc) (epoch : Nat) : bitsOf (d.record epoch).toNat 64 16 = d.status % 2 ^ 16 ∧
    bitsOf (d.record epoch).toNat 32 32 = d.ticket % 2 ^ 32 := by
  constructor
  all_goals
    rw [Desc.record, bitsOf_pack _ (by decide)]
    refine bitsOf_packNat (by simp) fun p hp => ?_
    simp only [List.mem_cons, List.not_mem_nil, or_false] at hp
    rcases hp with rfl | rfl | rfl | rfl | rfl | rfl | rfl | rfl | rfl | rfl <;> simp [apart]

/-- A descriptor whose issue was stopped by an abort, as it ends (R257, R258). -/
def Desc.aborted (d : Desc) : Desc := { d with status := 0x0201, progress := d.progressNow false, running := false }

/-- An ended descriptor whose completion record waits for the acknowledgement of a record (Table 13.5). -/
def Desc.endsWith (d : Desc) (g : Nat × Nat) : Desc := { d with ending := true, gate := some g }

/-- A descriptor that is stopped before it has begun (R258). -/
def Desc.unbegun (d : Desc) : Desc := { d with stop := 1, pos := dscStart d.raw }

/-- The fabric in which an aborted descriptor ends: it is counted, and its events are raised. -/
def Fabric.abortCounted (f : Fabric) (rs : List (Nat × Nat)) : Fabric :=
  { f with raised := rs, hrw := { f.hrw with aborted := bvSat f.hrw.aborted 1 } }

/-- An aborted descriptor is counted; its end is logged first in a pair, and its record is written at once otherwise. -/
theorem Fabric.conclude_aborted {d : Desc} (stopped : d.stop = 1) (own : d.mirror = false) (queue : d.queue < 49) (cfg : Cfg)
    (f : Fabric) : ∃ rs, f.conclude cfg d false =
      if f.mirrors then ((f.abortCounted rs).logRec (hrwRec d.ticket d.queue none 0 true)).1.modDesc d.ticket
        (fun _ => d.aborted.endsWith (8, vget f.twin.lseq 0 8))
      else (f.abortCounted rs).writeRecord cfg d.aborted := by
  have internal : d.aborted.internal = false := decide_eq_false (Nat.not_le.mpr queue)
  unfold Fabric.conclude
  extract_lets st d' own' f₁ f₂ h f₃ f₄ endRec
  have status : st = 0x0201 := if_pos stopped
  have ended : d' = d.aborted := by simp only [d', status]; rfl
  have counted : ∃ rs, f₄ = f.abortCounted rs := by
    have ours : (decide own' && decide (d'.stop = 1)) = true := by simp [own', d', own, stopped]
    simp only [f₄, f₃, h, if_pos ours, f₂, f₁, Fabric.raise_if]
    exact ⟨_, rfl⟩
  obtain ⟨rs, counted⟩ := counted
  refine ⟨rs, ?_⟩
  rw [ended, counted, if_neg (by simp [internal]), if_neg (by simp [Desc.aborted, own])]
  rfl

/-- A descriptor that leaves is gone with its ticket, which only a SvcReq that is taken may bear again; the ring and the count
of aborts stay (R243, R248). -/
theorem Fabric.retire_keeps (cfg : Cfg) (f : Fabric) (d : Desc) : let h := (f.retire cfg d).hrw
    h.ring = f.hrw.ring ∧ h.ringLate = f.hrw.ringLate ∧ h.aborted = f.hrw.aborted ∧
      ∀ x ∈ h.descs, x.ticket = d.ticket → 17 ≤ x.queue := by
  obtain ⟨ring, -, late, aborted, descs⟩ := Fabric.svcRun_fed cfg { f with hrw := { f.hrw with
    descs := f.hrw.descs.filter (fun x => x.ticket ≠ d.ticket)
    ended := f.hrw.ended ++ [{ d with running := false, reads := [], wq := [] }] } }
  refine ⟨ring, late, aborted, fun x hx same => (descs x hx).resolve_right ?_⟩
  rintro ⟨y, hy, ticket, -⟩
  simpa [ticket.trans same] using List.of_mem_filter hy

/-- The record of a descriptor of the host or the BMC goes to the ring, or waits for a place there; its descriptor leaves
(R249). -/
theorem Fabric.writeRecord_host {d : Desc} (host : d.queue < 17) (cfg : Cfg) (f : Fabric) :
    let g := f.writeRecord cfg d
    let r := d.record f.epoch
    g.hrw.aborted = f.hrw.aborted ∧ (∀ x ∈ g.hrw.descs, x.ticket = d.ticket → 17 ≤ x.queue) ∧
      (f.hrw.ringLate = [] → f.hrw.ring.length < 256 → g.hrw.ring = f.hrw.ring ++ [(f.hrw.ringSeq, r)]) ∧
      (256 ≤ f.hrw.ring.length → g.hrw.ring = f.hrw.ring ∧ g.hrw.ringLate = f.hrw.ringLate ++ [r]) := by
  intro g r
  set late : Fabric := { f with hrw := { f.hrw with ringLate := f.hrw.ringLate ++ [r] } }
  have noAgent : d.agent = none := if_neg (by simp; omega)
  have written : g = (ringRunN late.hrw.ringLate.length late).retire cfg { d with ending := false, gate := none } := by
    simp only [g, Fabric.writeRecord, noAgent]
    rfl
  obtain ⟨ring, waits, aborted, descs⟩ := Fabric.retire_keeps cfg (ringRunN late.hrw.ringLate.length late)
    { d with ending := false, gate := none }
  rw [← written] at ring waits aborted descs
  refine ⟨aborted.trans (ringRunN_aborted _ late), descs, fun empty room => ?_, fun full => ?_⟩
  · have alone : late.hrw.ringLate = [r] := by simp [late, empty]
    rw [ring, alone, List.length_singleton, ringRunN_one alone room]
    rfl
  · rw [ring, waits, ringRunN_full (f := late) _ full]
    exact ⟨rfl, rfl⟩

/-! ## Marks and passes of a descriptor that has lines in flight (R252, R260) -/

/-- A descriptor with other pages marked, and perhaps the record of a mark that waits. -/
def Desc.withMarks (d : Desc) (marked : Nat) (gate : Option (Nat × Nat)) (marks : List Nat) : Desc :=
  { d with marked := marked, gate := gate, marks := marks }

/-- Marking a page is no business of the Harrow. -/
theorem Fabric.markPage_hrw (cfg : Cfg) (f : Fabric) (la : LAddr) : (f.markPage cfg la).hrw = f.hrw := by
  unfold Fabric.markPage
  split <;> rfl

/-- The fabric still holds descriptor `d`, apart from the pages it has marked. -/
def Fabric.Holds (f : Fabric) (d : Desc) : Prop := ∃ marked gate marks, f.desc d.ticket = some (d.withMarks marked gate marks)

section
variable {f g : Fabric} {d : Desc}

theorem Fabric.Holds.of_hrw (holds : f.Holds d) (same : g.hrw = f.hrw) : g.Holds d := by
  obtain ⟨marked, gate, marks, here⟩ := holds
  exact ⟨marked, gate, marks, by rw [Fabric.desc, same]; exact here⟩

theorem Fabric.Holds.modDesc (holds : f.Holds d) {k : Desc → Desc}
    (marks : ∀ m g ms, ∃ m' g' ms', k (d.withMarks m g ms) = d.withMarks m' g' ms') : (f.modDesc d.ticket k).Holds d := by
  obtain ⟨m, g, ms, here⟩ := holds
  obtain ⟨m', g', ms', changed⟩ := marks m g ms
  exact ⟨m', g', ms', changed ▸ Fabric.desc_modDesc here (by rw [changed]; rfl)⟩

end

/-- Marking the pages that are due changes of a descriptor its marks alone (R252). -/
theorem markRunN_holds (cfg : Cfg) {d : Desc} : ∀ (n : Nat) {f : Fabric}, f.Holds d → (markRunN cfg d.ticket n f).Holds d
  | 0, _, holds => holds
  | n + 1, f, holds => by
    unfold markRunN
    split
    next => exact holds
    next e here =>
      split
      next => exact holds
      next page due =>
        extract_lets la next act
        have counted : ∀ h : Fabric, h.Holds d → (next h).Holds d := fun h held => held.modDesc fun _ _ _ => ⟨_, _, _, rfl⟩
        have marked : (act f).Holds d := by
          have first : (next (f.markPage cfg la)).Holds d := counted _ (holds.of_hrw (f.markPage_hrw cfg la))
          simp only [act]
          split
          · exact first.modDesc fun _ _ _ => ⟨_, _, _, rfl⟩
          · exact first
        split
        next alreadyMarked => exact markRunN_holds cfg n (counted f holds)
        split
        next pageOpen => exact holds
        split
        next g gated =>
          split
          · exact holds
          · exact markRunN_holds cfg n marked
        split
        next notHome => exact markRunN_holds cfg n (counted f holds)
        split
        next shut => exact holds
        split
        next mirrored => exact Fabric.Holds.modDesc (f := (f.logRec _).1) holds fun _ _ _ => ⟨_, _, _, rfl⟩
        exact markRunN_holds cfg n marked

/-! ## Aborts (R258) -/

section
variable {f : Fabric} {d : Desc} (cfg : Cfg) (here : f.desc d.ticket = some d)
include here

/-- A descriptor that has stopped passes over nothing while lines are in flight. -/
theorem passOverN_stopped (stopped : d.stop ≠ 0) (flight : d.flight ≠ []) : ∀ n, passOverN cfg d.ticket n f = f
  | 0 => rfl
  | n + 1 => by
    have none : f.nextIssue cfg d = none := if_pos (by simp [stopped])
    simp [passOverN, here, flight, none]

/-- A descriptor that has stopped waits for its lines in flight (R258). -/
theorem Fabric.tryEnd_inFlight (stopped : d.stop ≠ 0) (flight : d.flight ≠ []) : (f.tryEnd cfg d.ticket).Holds d := by
  have passed : f.passOver cfg d.ticket = f := by
    unfold Fabric.passOver
    split
    · rfl
    · exact passOverN_stopped cfg here stopped flight _
  have holds : (markRunN cfg d.ticket 64 f).Holds d := markRunN_holds cfg 64 ⟨d.marked, d.gate, d.marks, here⟩
  obtain ⟨m, g, ms, marked⟩ := holds
  have waits : f.tryEnd cfg d.ticket = markRunN cfg d.ticket 64 f := by
    unfold Fabric.tryEnd
    rw [passed]
    simp only [marked]
    exact if_pos (by simp [Desc.withMarks, flight])
  rw [waits]
  exact ⟨m, g, ms, marked⟩

/-- A running descriptor with lines in flight stops its issue (R258). -/
theorem Fabric.abort_running (running : d.running = true) (flight : d.flight ≠ []) (writes : d.recording = false)
    (ends : d.ending = false) (going : d.stop = 0) : (f.abort cfg d.ticket).Holds { d with stop := 1 } := by
  have stops : f.abort cfg d.ticket = (f.modDesc d.ticket (fun d => { d with stop := 1 })).tryEnd cfg d.ticket := by
    simp [Fabric.abort, here, running, writes, ends, going]
  rw [stops]
  exact Fabric.tryEnd_inFlight (d := { d with stop := 1 }) cfg (Fabric.desc_modDesc here rfl) Nat.one_ne_zero flight

/-- A descriptor that has stopped already, or writes its record, is waited for. -/
theorem Fabric.abort_stopped (stopped : d.recording = true ∨ d.ending = true ∨ d.stop ≠ 0) : f.abort cfg d.ticket = f := by
  have done : (d.recording || d.ending || decide (d.stop ≠ 0)) = true := by
    rcases stopped with h | h | h <;> simp [h]
  simp only [Fabric.abort, here, if_pos done]

section
variable (own : d.mirror = false) (waits : d.running = false) (writes : d.recording = false) (ends : d.ending = false)
  (going : d.stop = 0)
include own waits writes ends going

/-- A descriptor that has not begun ends at once: it is counted, and its end is logged in a pair, and its record written
otherwise (R258). -/
theorem Fabric.abort_queued (queue : d.queue < 49) : ∃ rs,
    let g := (f.modDesc d.ticket (fun d => { d with stop := 1 })).abortCounted rs
    f.abort cfg d.ticket = if f.mirrors then
        (g.logRec (hrwRec d.ticket d.queue none 0 true)).1.modDesc d.ticket
          (fun _ => d.unbegun.aborted.endsWith (8, vget f.twin.lseq 0 8))
      else g.writeRecord cfg d.unbegun.aborted := by
  have concludes : f.abort cfg d.ticket = (f.modDesc d.ticket (fun d => { d with stop := 1 })).conclude cfg d.unbegun false := by
    simp [Fabric.abort, here, waits, writes, ends, going, Desc.unbegun]
  rw [concludes]
  exact Fabric.conclude_aborted (d := d.unbegun) rfl own queue cfg _

/-- A descriptor of the host or the BMC that has not begun leaves, with a record of status 0x0201 (R249, R258). -/
theorem Fabric.abort_alone (host : d.queue < 17) (alone : f.mirrors = false) :
    let g := f.abort cfg d.ticket
    let r := d.unbegun.aborted.record f.epoch
    g.hrw.aborted = bvSat f.hrw.aborted 1 ∧ (∀ x ∈ g.hrw.descs, x.ticket = d.ticket → 17 ≤ x.queue) ∧
      (f.hrw.ringLate = [] → f.hrw.ring.length < 256 → g.hrw.ring = f.hrw.ring ++ [(f.hrw.ringSeq, r)]) ∧
      (256 ≤ f.hrw.ring.length → g.hrw.ring = f.hrw.ring ∧ g.hrw.ringLate = f.hrw.ringLate ++ [r]) := by
  obtain ⟨rs, counted⟩ := Fabric.abort_queued cfg here own waits writes ends going (Nat.lt_trans host (by decide))
  simp only [alone, Bool.false_eq_true, if_false] at counted
  rw [counted]
  exact Fabric.writeRecord_host (d := d.unbegun.aborted) host cfg
    ((f.modDesc d.ticket (fun d => { d with stop := 1 })).abortCounted rs)

/-- In a pair the record of its end waits for the partner's acknowledgement (Table 13.5). -/
theorem Fabric.abort_pair (queue : d.queue < 49) (pair : f.mirrors = true) :
    let g := f.abort cfg d.ticket
    g.hrw.aborted = bvSat f.hrw.aborted 1 ∧ g.hrw.ring = f.hrw.ring ∧ g.hrw.ringLate = f.hrw.ringLate ∧
      g.desc d.ticket = some (d.unbegun.aborted.endsWith (8, vget f.twin.lseq 0 8)) := by
  obtain ⟨rs, counted⟩ := Fabric.abort_queued cfg here own waits writes ends going queue
  simp only [pair, if_true] at counted
  rw [counted]
  exact ⟨rfl, rfl, rfl, Fabric.desc_modDesc (d := { d with stop := 1 }) (Fabric.desc_modDesc here rfl) rfl⟩

end

end

/-! ## Commands of the Harrow's class (Table 16.8) -/

/-- A served state-changing command that may go on running commits what its body gives, where its body answers at once. -/
theorem State.runLong_committed (s : State) (m op : Nat) (reserved : List (Nat × Nat))
    (body : State → Mbox → State × Option (Nat × List Nat)) (u : State) (st : Nat) (resp : List Nat)
    (h : s.serves m op = true) (hq : cmdKind op = some .s ∨ cmdKind op = some .u) (h1 : op ≠ 0x0201)
    (hc : (s.stw.mb m).clean reserved = true) (hb : body s (s.stw.mb m) = (u, some (st, resp)))
    (hu : u.stw.mb m = s.stw.mb m) : u.Committed (s.runLong m op reserved body) m st resp := by
  obtain ⟨hr, -, room, hf, hrr, hd⟩ := (s.serves_iff m op).mp h
  obtain ⟨hm, -, -, ho⟩ := State.ready_spec hr
  have changes : cmdKind op ≠ some .q := by rcases hq with hq | hq <;> simp [hq]
  rw [State.runLong_served s m op reserved body h (room.resolve_left changes) hc, hb]
  exact u.complete_change m op st resp hm (by rw [hu]; exact ho) hq h1 (by rw [hu]; exact hf) (by rw [hu]; exact hrr)
    (by rw [hu]; exact hd)

/-- HARROW_REAP frees the acknowledged records, lets others take their places, and answers the oldest (R251, R451). -/
theorem exec_harrowReap {s : State} {m : Nat} (served : s.serves m 0x0503 = true) (clean : (s.stw.mb m).clean [(6, 2)] = true)
    (least : 1 ≤ (s.stw.mb m).pay 4 2) (most : (s.stw.mb m).pay 4 2 ≤ 256) :
    let h := s.fab.hrw.freeTo ((s.stw.mb m).pay 0 4)
    let l := h.refilled.ring.take ((s.stw.mb m).pay 4 2)
    h.ringSeq < 2 ^ 32 → ∃ t, exec (.harrowReap m) s = .next t ∧ ({ s with fab := { s.fab with
        raised := s.fab.raised ++ List.replicate h.places (144, 0)
        hrw := h.refilled } } : State).Committed t m 0
      (leBytes (Harrow.firstSeq { h.refilled with ringSeq := h.ringSeq }) 4 ++ leBytes l.length 2 ++ [0, 0] ++
        l.flatMap (fun r => leBytes r.2.toNat 64)) := by
  intro h l seq
  rw [← Harrow.firstSeq_refilled seq]
  have moved := ringRunN_eq h.ringLate.length { s.fab with hrw := h } le_rfl seq
  refine ⟨_, rfl, State.run_committed s m 0x0503 _ _ _ 0 _ served (.inr (by decide)) (by decide) clean
    ((if_neg (by simp; omega)).trans ?_) rfl⟩
  dsimp only
  rw [moved]
  rfl

theorem exec_harrowAbort {s : State} {m : Nat} {d : Desc} (served : s.serves m 0x0504 = true)
    (clean : (s.stw.mb m).clean [(4, 4)] = true)
    (found : s.fab.hrw.descs.find? (fun x => x.ticket = (s.stw.mb m).pay 0 4 && ¬ x.mirror) = some d)
    (ticket : d.ticket = (s.stw.mb m).pay 0 4) (queue : d.queue < 49) :
    exec (.harrowAbort m) s = .next ((s.runs m (.abort d.ticket)).after ((s.fab.abort s.cfg d.ticket).flow s.cfg)) := by
  have external : d.internal = false := decide_eq_false (Nat.not_le.mpr queue)
  refine congrArg Host.Outcome.next (State.runLong_goes_on s m 0x0504 _ _ served (by decide) clean
    ((s.runs m (.abort d.ticket)).onFab (fun f => (f.abort s.cfg d.ticket).flow s.cfg)) ?_)
  dsimp only
  rw [found, ← ticket]
  exact if_neg (by simp [external])

theorem exec_harrowAbort_internal {s : State} {m : Nat} {d : Desc} (served : s.serves m 0x0504 = true)
    (clean : (s.stw.mb m).clean [(4, 4)] = true)
    (found : s.fab.hrw.descs.find? (fun x => x.ticket = (s.stw.mb m).pay 0 4 && ¬ x.mirror) = some d) (queue : 49 ≤ d.queue) :
    ∃ t, exec (.harrowAbort m) s = .next t ∧ s.Committed t m 0x0202 [] := by
  have internal : d.internal = true := decide_eq_true queue
  refine ⟨_, rfl, State.runLong_committed s m 0x0504 _ _ s 0x0202 [] served (.inl (by decide)) (by decide) clean ?_ rfl⟩
  dsimp only
  rw [found]
  exact if_pos internal

/-- HARROW_REAP frees the records up to ACK_SEQ from 256 before the first (R451). -/
theorem Harrow.mem_freeTo (h : Harrow) (ack : Nat) (r : Nat × Line) : r ∈ (h.freeTo ack).ring ↔ r ∈ h.ring ∧
    (ack + 256 + 2 ^ 32 - h.firstSeq % 2 ^ 32) % 2 ^ 32 < (r.1 + 256 + 2 ^ 32 - h.firstSeq % 2 ^ 32) % 2 ^ 32 := by
  have distance : ∀ x : Nat, (x + 2 ^ 32 - (h.firstSeq + 2 ^ 32 - 256) % 2 ^ 32) % 2 ^ 32 =
      (x + 256 + 2 ^ 32 - h.firstSeq % 2 ^ 32) % 2 ^ 32 := fun x => by omega
  simp only [Harrow.freeTo, List.mem_filter, distance]
  simp

end Sys2Proof.Machine

namespace Sys2Proof
open Machine

/-- Settles O24: HARROW_REAP frees what is acknowledged and the records that wait move up; an abort ends a descriptor that
has not begun, stops a running one, waits for one that is ending, and refuses an internal one. -/
theorem reapingAndAborting : Obligations.ReapingAndAborting := by
  unfold Obligations.ReapingAndAborting
  refine ⟨fun s m => ⟨?reap, fun ack r => Harrow.mem_freeTo _ ack r⟩, fun s m d served => ?abort⟩
  case reap => exact fun served clean least most seq => exec_harrowReap served clean least most seq
  case abort =>
    intro b clean only own acts
    have here := Fabric.desc_of_only only
    have ticket := Fabric.ticket_of_desc here
    rw [← ticket] at here
    have abort : d.queue < 49 → ∀ g : Fabric → Prop, g (s.fab.abort s.cfg d.ticket) → acts g := fun queue g effect =>
      ⟨_, exec_harrowAbort served clean (Fabric.find?_own_of_only only own) ticket queue, effect⟩
    refine ⟨fun host waits writes ends going alone => ?queued, fun queue waits writes ends going pair => ?mirrored,
      fun queue runs flight writes ends going => ?running, fun queue stopped => ?stopped, fun internal => ?internal⟩
    case queued =>
      obtain ⟨aborted, descs, placed, late⟩ := Fabric.abort_alone s.cfg here own waits writes ends going host alone
      obtain ⟨status, bearer⟩ := d.unbegun.aborted.record_fields s.fab.epoch
      exact abort (Nat.lt_trans host (by decide)) _ ⟨aborted, descs, _, status, bearer, placed, late⟩
    case mirrored =>
      obtain ⟨aborted, ring, late, kept⟩ := Fabric.abort_pair s.cfg here own waits writes ends going queue pair
      exact abort queue _ ⟨aborted, ring, late, _, Fabric.mem_of_desc kept, rfl, rfl, rfl, rfl⟩
    case running =>
      obtain ⟨m, g, ms, holds⟩ := Fabric.abort_running s.cfg here runs flight writes ends going
      exact abort queue _ ⟨_, Fabric.mem_of_desc holds, rfl, rfl, rfl⟩
    case stopped => exact abort queue _ (Fabric.abort_stopped s.cfg here stopped)
    case internal => exact exec_harrowAbort_internal served clean (Fabric.find?_own_of_only only own) internal

end Sys2Proof
end

section
/-! SUPPORT. HARROW_SUBMIT: the wait for a slot, the refusal, and the descriptor that is queued (R243, R246, R450). -/
namespace Sys2Proof.Machine

/-! ## HARROW_SUBMIT -/

/-- What signals a completion is no business of the Harrow and the memories. -/
theorem State.Signalled.engines {u t : State} {m : Nat} (signal : u.Signalled t m) :
    t.fab.hrw = u.fab.hrw ∧ t.fab.mem = u.fab.mem := by
  unfold State.Signalled at signal
  split at signal
  · rw [signal.1]
    exact ⟨rfl, rfl⟩
  · rw [signal]
    exact ⟨rfl, rfl⟩

/-- The descriptor that a mailbox's payload carries (R450). -/
def Mbox.descriptor (b : Mbox) : Line := BitVec.ofNat 512 (leNat (b.payBytes 0 64))

/-- The state in which mailbox `m` waits for the acceptance of the descriptor that it has queued. -/
def State.submitted (s : State) (m : Nat) (raw : Line) : State :=
  ({ s with fab := (s.fab.enqueue m raw none).1 } : State).runs m (.submit s.fab.hrw.nextTicket)

/-- A queued descriptor's command completes, or waits for the acknowledgement of its record (R246). -/
theorem State.longOne_submit (u : State) (m tk : Nat) : u.longOne m (.submit tk) = u ∨
    u.longOne m (.submit tk) = u.complete m 0 (leBytes (acceptWord 0 tk) 8) := ite_eq_or_eq _ _ _

/-- Where no partner follows, nothing is waited for. -/
theorem State.longOne_submit_alone {u : State} (alone : u.fab.mirrors = false) (m tk : Nat) :
    u.longOne m (.submit tk) = u.complete m 0 (leBytes (acceptWord 0 tk) 8) := by
  refine if_neg ?_
  split
  · split <;> simp [alone]
  · simp

section
variable {s : State} {m : Nat} (served : s.serves m 0x0501 = true)
include served

theorem exec_harrowSubmit_waits (full : s.fab.roomFor m = false) : exec (.harrowSubmit m) s = .next s :=
  congrArg Host.Outcome.next (State.runLong_goes_on s m 0x0501 _ _ served (by decide) rfl s (if_pos (by simp [full])))

variable (room : s.fab.roomFor m = true)
include room

theorem exec_harrowSubmit_refused (bad : dscStatus s.cfg m (s.stw.mb m).descriptor ≠ 0) :
    let st := dscStatus s.cfg m (s.stw.mb m).descriptor
    ∃ t, exec (.harrowSubmit m) s = .next t ∧
      ({ s with fab := { s.fab with hrw := { s.fab.hrw with refused := bvSat s.fab.hrw.refused 1 } } } : State).Committed t m
        st (leBytes (acceptWord st 0) 8) := by
  unfold Mbox.descriptor at bad ⊢
  refine ⟨_, rfl, State.runLong_committed s m 0x0501 _ _ _ _ _ served (.inl (by decide)) (by decide) rfl
    ((if_neg (by simp [room])).trans ?_) rfl⟩
  dsimp only
  rw [Fabric.submit_bad bad, if_pos bad]

/-- A good descriptor is queued, and its command completes once it is accepted (R450). -/
theorem exec_harrowSubmit_queued (good : dscStatus s.cfg m (s.stw.mb m).descriptor = 0)
    (idle : s.stw.longs = []) : let u := s.submitted m (s.stw.mb m).descriptor
    exec (.harrowSubmit m) s = .next (u.longOne m (.submit s.fab.hrw.nextTicket)) := by
  intro u
  have alone : u.longAll = u.longOne m (.submit s.fab.hrw.nextTicket) := by
    have longs : u.stw.longs = [(m, .submit s.fab.hrw.nextTicket)] := by
      simp [u, State.submitted, State.runs, idle]
    rw [State.longAll, longs]
    rfl
  refine congrArg Host.Outcome.next (State.runLong_goes_on s m 0x0501 _ _ served (by decide) rfl _
    ((if_neg (by simp [room])).trans ?_))
  obtain ⟨_, _, _, _, enqueued⟩ := s.fab.enqueue_eq m (s.stw.mb m).descriptor none
  rw [Mbox.descriptor] at good enqueued
  dsimp only
  rw [← alone, Fabric.submit_good good, if_neg (by simp)]
  simp only [u, State.submitted, Mbox.descriptor, enqueued]

omit room in
/-- The completion of a command that has queued its descriptor: its commit record and its answer. -/
theorem State.submitted_completes (raw : Line) (resp : List Nat) : let u := s.submitted m raw
    let t := u.complete m 0 resp
    (t.stw.mb m).st = .done ∧ t.stw.jrnl = (s.stw.log 0x20 m (commitBody (s.stw.mb m) m 0 resp)).jrnl ∧ t.cfg = s.cfg ∧
      t.irq = s.irq ∧ t.fab.mem = s.fab.mem ∧ t.fab.hrw = s.fab.queued m raw none := by
  intro u t
  obtain ⟨hr, -, -, faults, rerun, kept⟩ := (s.serves_iff m 0x0501).mp served
  obtain ⟨hm, -, -, opcode⟩ := State.ready_spec hr
  have mailbox : u.stw.mb m = { s.stw.mb m with phase := .running } := State.modMb_mb_same _ m _ hm
  obtain ⟨⟨answer, -⟩, signal, -, cfg, irq, -, -, -, -, -, jrnl⟩ := u.complete_change m 0x0501 0 resp hm
    (by rw [mailbox]; exact opcode) (.inl (by decide)) (by decide) (by rw [mailbox]; exact faults)
    (by rw [mailbox]; exact rerun) (by rw [mailbox]; exact kept)
  obtain ⟨hrw, mem⟩ := signal.engines
  obtain ⟨_, _, _, _, enqueued⟩ := s.fab.enqueue_eq m raw none
  have fab : u.fab = (s.fab.enqueue m raw none).1 := rfl
  refine ⟨by rw [answer], ?_, cfg, irq, by rw [mem, fab, enqueued], by rw [hrw, fab, enqueued]⟩
  rw [jrnl, mailbox]
  rfl

end

end Sys2Proof.Machine

namespace Sys2Proof
open Machine

/-- Settles O23: without a slot nothing happens, a bad descriptor is refused with its status, and a good one stands at the
end of the queues, where its acceptance is answered at once or waits for the partner. -/
theorem submittedDescriptorsAreCheckedAndQueued : Obligations.SubmittedDescriptorsAreCheckedAndQueued := by
  unfold Obligations.SubmittedDescriptorsAreCheckedAndQueued
  intro s m b raw tk served
  obtain ⟨_, _, _, _, enqueued⟩ := s.fab.enqueue_eq m raw none
  have fab : (s.submitted m raw).fab = (s.fab.enqueue m raw none).1 := rfl
  obtain ⟨done, jrnl, cfg, irq, mem, hrw⟩ := State.submitted_completes served raw (leBytes (acceptWord 0 tk) 8)
  refine ⟨exec_harrowSubmit_waits served, exec_harrowSubmit_refused served, fun room good alone idle _ => ?single,
    fun room good pair idle _ => ?pair⟩
  case single =>
    have free : (s.submitted m raw).fab.mirrors = false := by rw [fab, enqueued]; exact alone
    refine ⟨_, (exec_harrowSubmit_queued served room good idle).trans
      (congrArg Host.Outcome.next (State.longOne_submit_alone free m tk)), ?_, by rw [hrw]; rfl, done, jrnl, cfg, irq, mem⟩
    rw [hrw]
    simp [Fabric.queued, alone, Desc.new, tk]
  case pair =>
    have queued : ((s.submitted m raw).longOne m (.submit tk)).fab.hrw = s.fab.queued m raw none := by
      rcases State.longOne_submit (s.submitted m raw) m tk with waits | completes
      · rw [waits, fab, enqueued]
      · rw [completes, hrw]
    obtain ⟨ready, -⟩ := (s.serves_iff m 0x0501).mp served
    obtain ⟨hm, -⟩ := State.ready_spec ready
    have gated : (s.fab.mirrors && decide (m < 49)) = true := by simp [pair]; omega
    exact ⟨_, _, exec_harrowSubmit_queued served room good idle, congrArg Harrow.descs queued, rfl, rfl, rfl,
      by rw [if_pos gated]; rfl⟩

end Sys2Proof
end

section
/-! SUPPORT. The Harrow and the Gleaner at work: descriptors that start, issue and retire lines, patrol reads, and repair
candidates (R244, R247, R250, R314, R315, R319, R320). -/
namespace Sys2Proof.Machine

/-! ## Commands of the Harrow and the Gleaner -/

theorem State.atHarrow_on {s : State} (on : s.on 31 = true) (g : Fabric → Fabric) : s.atHarrow g = s.after (g s.fab) := if_pos on

section
variable {s : State} (on : s.on 31 = true)
include on

theorem exec_descriptorStart : exec .descriptorStart s = .next (s.after (s.fab.startNext s.cfg)) :=
  congrArg Host.Outcome.next (State.atHarrow_on on _)

theorem exec_harrowLineIssue (tk : Nat) : exec (.harrowLineIssue tk) s = .next (s.after (s.fab.lineIssue s.cfg tk)) :=
  congrArg Host.Outcome.next (State.atHarrow_on on _)

theorem exec_harrowLineAnswer (tk : Nat) : exec (.harrowLineAnswer tk) s = .next (s.after (s.fab.lineAnswer s.cfg tk)) :=
  congrArg Host.Outcome.next (State.atHarrow_on on _)

theorem exec_patrolReadIssue (ddr : Bool) (u : Nat) :
    exec (.patrolReadIssue ddr u) s = .next (s.after (s.fab.patrolIssue s.cfg ddr u)) :=
  congrArg Host.Outcome.next (State.atHarrow_on on _)

theorem exec_patrolReadResult (ddr : Bool) (word : Nat) (err : ErrPat) :
    exec (.patrolReadResult ddr word err) s = .next (s.after (s.fab.patrolReturn s.cfg ddr word err)) :=
  congrArg Host.Outcome.next (State.atHarrow_on on _)

end

/-! ## A descriptor starts (R244) -/

/-- A search that finds nothing or `b`, and finds `b` at some entry, finds `b`. -/
theorem findSome?_only {α β : Type} {p : α → Option β} {b : β} {x : α} (only : ∀ y, p y = none ∨ p y = some b)
    (here : p x = some b) : ∀ {l : List α}, x ∈ l → l.findSome? p = some b
  | y :: l, hx => by
    rcases only y with none | found
    · have later : x ∈ l := (List.mem_cons.mp hx).resolve_left fun e => by simp [← e, here] at none
      rw [List.findSome?_cons, none]
      exact findSome?_only only here later
    · rw [List.findSome?_cons, found]

section
variable {f : Fabric} {d : Desc} (descs : f.hrw.descs = [d])
include descs

/-- The only descriptor is the only one that may start, in its own queue. -/
theorem Harrow.startable_only (q : Nat) : f.hrw.startable q = none ∨ f.hrw.startable q = some d := by
  unfold Harrow.startable
  split
  next => exact .inl rfl
  next e found =>
    have same : e = d := by simpa [descs] using List.mem_of_find?_eq_some found
    rw [same]
    exact ite_eq_or_eq _ _ _

theorem Harrow.startable_head (own : d.mirror = false) (waits : d.running = false) (writes : d.recording = false)
    (ends : d.ending = false) (going : d.stop = 0) (accepted : d.gate = none) (room : f.hrw.ring.length < 256)
    (unpaused : f.hrw.paused = false) : f.hrw.startable d.queue = some d := by
  simp [Harrow.startable, descs, own, waits, writes, ends, going, accepted, unpaused]
  omega

/-- The head of a host or BMC queue starts, and the round-robin goes on from its queue (R244). -/
theorem Fabric.startDesc_only (cfg : Cfg) (host : d.queue < 17) (waits : d.running = false)
    (head : f.hrw.startable d.queue = some d) (free : 0 < cfg.activeMax) : f.startDesc cfg =
      { f with hrw := { f.hrw with descs := [{ d with running := true }], rr := d.queue } } := by
  have idle : f.hrw.active = 0 := by simp [Harrow.active, descs, waits]
  have turn : d.queue ∈ [49, 50] ++ (List.range 49).map (fun i => (f.hrw.rr + 1 + i) % 49) := by
    refine List.mem_append_right _ (List.mem_map.mpr ⟨(d.queue + 49 * (f.hrw.rr + 1) - (f.hrw.rr + 1)) % 49, ?_, ?_⟩)
    · exact List.mem_range.mpr (Nat.mod_lt _ (by decide))
    · omega
  have next := findSome?_only (Harrow.startable_only descs) head turn
  have queue : d.queue < 49 := Nat.lt_trans host (by decide)
  simp only [Fabric.startDesc, idle, if_neg (Nat.not_le.mpr free), next, queue, if_true]
  simp [Fabric.modDesc, descs, modFirst]

theorem Fabric.startNext_only (cfg : Cfg) (host : d.queue < 17) (waits : d.running = false)
    (head : f.hrw.startable d.queue = some d) (free : 0 < cfg.activeMax) : f.startNext cfg = Fabric.tryEnd cfg
      { f with hrw := { f.hrw with descs := [{ d with running := true }], rr := d.queue } } d.ticket := by
  rw [Fabric.startNext, Fabric.startDesc_only descs cfg host waits head free]
  rfl

end

/-! ## Line requests (R247, R250) -/

/-- A line request leaves its descriptor's ticket alone. -/
theorem Fabric.nextIssue_ticket (cfg : Cfg) (f : Fabric) (d : Desc) :
    (f.nextIssue cfg d).all (fun x => x.next.ticket = d.ticket) = true := by
  have mapped : ∀ (o : Option Nat) (g : Nat → Issue), (∀ n, (g n).next.ticket = d.ticket) →
      (o.map g).all (fun x => x.next.ticket = d.ticket) = true := by
    intro o g same
    cases o <;> simp [same]
  unfold Fabric.nextIssue
  dsimp only
  split
  · rfl
  split
  · simp
  split
  case isTrue copyOrMove => (repeat' split) <;> simp [Desc.plain]
  split
  case isTrue compare => (repeat' split) <;> simp [Desc.plain]
  split
  case isTrue batch => (repeat' split) <;> simp [Desc.plain]
  split
  case isTrue lock => (repeat' split) <;> simp [Desc.plain]
  exact mapped _ _ fun _ => rfl

theorem Fabric.ticket_of_nextIssue {cfg : Cfg} {f : Fabric} {d : Desc} {x : Issue} (next : f.nextIssue cfg d = some x) :
    x.next.ticket = d.ticket := by
  simpa [next] using f.nextIssue_ticket cfg d

/-- A descriptor with no marks, on the home of every line, passes over nothing. -/
theorem Fabric.passOver_own {f : Fabric} {d : Desc} (cfg : Cfg) (home : f.homeOfAll = true) (noMarks : d.marks = [])
    (once : d.rescan = false) (here : f.desc d.ticket = some d) : f.passOver cfg d.ticket = f := by
  refine if_pos ?_
  rw [home, Bool.true_and, List.any_eq_true]
  exact ⟨d, Fabric.mem_of_desc here, by simp [noMarks, once]⟩

/-- The descriptor after a line request of it. -/
def Issue.after (x : Issue) (k : Nat) : Desc := { x.next with nextK := k + 1, flight := x.next.flight ++ [(k, x.pass, x.la)] }

/-- A line request as it reaches the arbiter of its slice (R247). -/
def Issue.arrival (x : Issue) (tk k : Nat) : Arr :=
  { lineArr 2 (.harrow tk k) (.harrow x.act) (BitVec.ofNat 46 x.la) with
    hdr := x.hdr, data := x.data, be := x.be, pois := x.pois, opnd := x.opnd }

section
variable {f : Fabric} {d : Desc} {x : Issue} (cfg : Cfg) (home : f.homeOfAll = true) (noMarks : d.marks = [])
  (once : d.rescan = false) (here : f.desc d.ticket = some d) (running : d.running = true)
  (next : f.nextIssue cfg d = some x)
include home noMarks once here running next

theorem Fabric.lineIssue_eq : f.lineIssue cfg d.ticket =
    if cfg.linesInflight ≤ f.hrw.inFlight (sliceOf (BitVec.ofNat 46 x.la)) then f
    else { f.modDesc d.ticket (fun _ => x.after d.nextK) with arr := f.arr ++ [x.arrival d.ticket d.nextK] } := by
  simp only [Fabric.lineIssue, Fabric.passOver_own cfg home noMarks once here, here, running, next, not_true_eq_false, if_false]
  rfl

end

/-! ## Answers (R247, R249) -/

/-- What an answer brings to a descriptor that reads no data: its line is in, and its counts advance (R247, R256). -/
def Desc.answered (d : Desc) (a : HAns) : Desc :=
  { d with
    flight := []
    locked := match a.locked with | some k => addOnce k d.locked | none => d.locked
    transient := d.transient + b2n a.transient
    result := if a.wrote then d.result + 1 else d.result }

section
variable {f : Fabric} {d : Desc} {a : HAns} {pass la : Nat} (cfg : Cfg) (answers : f.hrw.answers = [a])
  (here : f.desc a.ticket = some d) (flight : d.flight = [(a.k, pass, la)])
include answers here flight

/-- The answer of a completion record's own line: the descriptor leaves (R248, R249). -/
theorem Fabric.lineAnswer_record (record : pass = 9) : f.lineAnswer cfg a.ticket = Fabric.cutRest cfg (Fabric.retire cfg
    (if dscIrq d.raw then ({ f with hrw := { f.hrw with answers := [] } } : Fabric).raise 145
      else { f with hrw := { f.hrw with answers := [] } }) { d with flight := [] }) := by
  have here' : ({ f with hrw := { f.hrw with answers := [] } } : Fabric).desc a.ticket = some d := here
  simp [Fabric.lineAnswer, answers, dropFirst, here', flight, record]

/-- A line of CLEAN, INVAL or FLUSH is answered (R247, R256). -/
theorem Fabric.lineAnswer_clean (line : pass ≠ 9) (op : d.op = 1 ∨ d.op = 2 ∨ d.op = 3) : f.lineAnswer cfg a.ticket =
    Fabric.cutRest cfg (Fabric.tryEnd cfg (Fabric.lineMark cfg
      (({ f with hrw := { f.hrw with answers := [] } } : Fabric).modDesc a.ticket (fun _ => d.answered a)) d pass la) a.ticket) := by
  have here' : ({ f with hrw := { f.hrw with answers := [] } } : Fabric).desc a.ticket = some d := here
  unfold Desc.op at op
  rcases op with op | op | op
  all_goals simp [Fabric.lineAnswer, answers, dropFirst, here', flight, line, Desc.op, op, b2n, Desc.answered] <;> rfl

end

/-- The progress mark of a line adds to the marks of its descriptor alone (R260). -/
theorem Fabric.lineMark_desc (cfg : Cfg) {f : Fabric} {d e : Desc} (here : f.desc d.ticket = some e) (pass la : Nat) :
    (f.lineMark cfg d pass la).hrw.answers = f.hrw.answers ∧
      ∃ marks, (f.lineMark cfg d pass la).desc d.ticket = some { e with marks := marks } := by
  unfold Fabric.lineMark
  split
  next => exact ⟨rfl, e.marks, here⟩
  next m marked =>
    extract_lets logged g
    have same : g.hrw = f.hrw := by
      simp only [g]
      split
      · rfl
      · exact Fabric.logFree_hrw
    have here' : g.desc d.ticket = some e := by rw [Fabric.desc, same]; exact here
    split
    · exact ⟨(rfl : _ = g.hrw.answers).trans (congrArg Harrow.answers same), _, Fabric.desc_modDesc here' rfl⟩
    · exact ⟨congrArg Harrow.answers same, e.marks, here'⟩

/-! ## The patrol (R314, R315) -/

section
variable {f : Fabric} {cfg : Cfg}

theorem Fabric.patrolIssue_off (off : cfg.patrolEn = false ∨ f.gln.stopped = true) (ddr : Bool) (u : Nat) :
    f.patrolIssue cfg ddr u = f := if_pos (by rcases off with h | h <;> simp [h])

section
variable (on : cfg.patrolEn = true) (runs : f.gln.stopped = false)
include on runs

theorem Fabric.patrolIssue_ddr {u line : Nat} (next : f.nextDdr cfg u (vget f.gln.ddrPos 0 u) = some line) :
    f.patrolIssue cfg true u = ({ f with gln := { f.gln with ddrPos := vset f.gln.ddrPos u (line + 1) } } : Fabric).pushD
      (MemReq.read line 3 .patrol) := by
  simp [Fabric.patrolIssue, on, runs, next]

theorem Fabric.patrolIssue_hbm {u word : Nat}
    (next : f.patrolWord cfg u (f.nextPlace cfg u 1290 (vget f.gln.hbmPos 0 u)) = some word) : f.patrolIssue cfg false u =
      ({ f with gln := { f.gln with hbmPos := vset f.gln.hbmPos u (f.nextPlace cfg u 1290 (vget f.gln.hbmPos 0 u) + 1) } } :
        Fabric).pushH (MemReq.read word 3 .patrol) := by
  simp [Fabric.patrolIssue, on, runs, next]

end

/-- A word that patrol reads without an error is looked at, and nothing more. -/
theorem Fabric.patrolRead_first (f : Fabric) (ddr : Bool) (r : MemReq) (w : CWord) (pois : Bool) :
    f.patrolRead cfg ddr r (readDec ddr w pois ErrPat.none) false =
      f.patrolGood cfg ddr r (readDec ddr w pois ErrPat.none) := by
  obtain ⟨usable, stored, -⟩ := readDec_clean ddr w pois
  rw [Fabric.patrolRead, if_pos usable, Fabric.readCounts_first _ _ _ _ stored]

theorem Fabric.patrolGood_ddr (f : Fabric) (r : MemReq) {d : Dec} (stored : d.kind ≠ .correctable) :
    f.patrolGood cfg true r d = f := by
  simp [Fabric.patrolGood, stored]

/-- A map word whose other copy is good too, and any other word of HBM, stays as it is. -/
theorem Fabric.patrolGood_hbm (f : Fabric) (r : MemReq) {d : Dec} (stored : d.kind ≠ .correctable)
    (copies : ∀ w mirror, mapAt r.word = some (w, mirror) → (w, ! mirror) ∉ f.mem.mapBad) : f.patrolGood cfg false r d = f := by
  unfold Fabric.patrolGood
  split
  next ddr => cases ddr
  split
  next w mirror at_ =>
    have good : (f.mem.mapBad.contains (w, decide ¬ mirror = true)) = false := by
      simpa using copies w mirror at_
    rw [good]
    simp [stored]
  next => simp [stored]

/-- A patrol read at the front of its queue returns without an error (R315). -/
theorem Fabric.patrolReturn_head {r : MemReq} {rest : List MemReq} (ddr : Bool) (q : f.mem.queueOf ddr = r :: rest)
    (read : r.write = false) (first : r.again = false) (who : r.who = .patrol) :
    ∃ (m : Mem) (d : Dec), (f.mem.withQueue ddr rest).Accessed m ∧ d.kind ≠ .correctable ∧
      f.patrolReturn cfg ddr r.word ErrPat.none = ({ f with mem := m } : Fabric).patrolGood cfg ddr r d := by
  have reader := nextReader_head (rest := rest) read
  have served := Fabric.readReturn_head ddr q read ErrPat.none
  rw [first] at reader served
  obtain ⟨-, stored, -⟩ := readDec_clean ddr (getWord (f.mem.wordsOf ddr) r.word) r.pois
  refine ⟨_, _, Mem.accessed_served _ ddr r.word, stored, ?_⟩
  rw [Mem.queueOf] at q
  rw [Fabric.patrolReturn, q, reader, who]
  dsimp only
  rw [served]
  exact Fabric.patrolRead_first _ ddr r _ _

end

/-! ## Repair candidates (R319, R320) -/

section
variable {s : State} {r : Repair} {rest : List Repair} (up : s.stw.up = true)
  (oldest : s.fab.gln.repairs.filter (fun r => r.state = 0) = r :: rest)
include up oldest

/-- A candidate for a row of HBM or DDR5 becomes a pending repair, with a record in the journal (Table 11.10). -/
theorem exec_repairCandidateRecord_pending (room : s.fab.gln.pendingCount < 64) (row : r.block < 10) :
    exec .repairCandidateRecord s = .next { s with
      fab := { s.fab with gln := { s.fab.gln with repairs := s.fab.gln.recorded ++ [{ r with state := 1 }] ++ rest } }
      stw := s.stw.log 0x30 s.fab.gln.recorded.length ({ r with state := 1 } : Repair).body } := by
  have other : r.block ≠ 10 := Nat.ne_of_lt row
  refine congrArg Host.Outcome.next ((if_pos up).trans ?_)
  simp only [State.recordCandidate, oldest, if_neg (Nat.not_le.mpr room)]
  simp [State.recordRepair, other, State.modStw]

/-- A candidate that finds 64 repairs pending is dropped, with source 174. -/
theorem exec_repairCandidateRecord_dropped (full : 64 ≤ s.fab.gln.pendingCount) :
    exec .repairCandidateRecord s = .next { s with
      fab := { s.fab with
        gln := { s.fab.gln with repairs := s.fab.gln.recorded ++ rest }
        raised := s.fab.raised ++ [(174, 0)] }
      stw := s.stw.log 0x30 0xFFFF ({ r with state := 3 } : Repair).body } := by
  refine congrArg Host.Outcome.next ((if_pos up).trans ?_)
  simp only [State.recordCandidate, oldest, if_pos full, List.append_nil]
  rfl

end

end Sys2Proof.Machine

namespace Sys2Proof
open Machine

/-- Settles O52: the head of a queue starts, a line is issued while its slice has room, an answer retires its line or its
descriptor, patrol reads the next place and leaves good words alone, and a candidate becomes pending or is dropped. -/
theorem theHarrowAndTheGleanerWork : Obligations.TheHarrowAndTheGleanerWork := by
  unfold Obligations.TheHarrowAndTheGleanerWork
  intro s on f goes
  refine ⟨fun d descs host own waits writes ends going accepted room unpaused free => ?starts,
    fun d x home noMarks once here running next slot => ?issues, fun d x home noMarks once here running next full => ?full,
    fun d a pass la answers here flight line op alone => ?answer, fun d a la answers here flight => ?record,
    fun u line enabled runs next => ?ddr, fun u word enabled runs next => ?hbm, fun ddr u off => ?off,
    fun r rest q read first who => ?ddrRead, fun r rest q read first who copies => ?hbmRead,
    fun r rest up oldest room row => ?pending, fun r rest up oldest full => ?dropped⟩
  case starts =>
    have head := Harrow.startable_head descs own waits writes ends going accepted room unpaused
    exact exec_after (exec_descriptorStart on) (Fabric.startNext_only descs s.cfg host waits head free)
  case issues =>
    have issued := (Fabric.lineIssue_eq s.cfg home noMarks once here running next).trans (if_neg (Nat.not_le.mpr slot))
    exact ⟨_, exec_after (exec_harrowLineIssue on d.ticket) issued,
      Fabric.desc_modDesc here (Fabric.ticket_of_nextIssue next), ⟨_, rfl, rfl, rfl, rfl, rfl, rfl, rfl, rfl, rfl, rfl⟩, rfl, rfl⟩
  case full =>
    have held := (Fabric.lineIssue_eq s.cfg home noMarks once here running next).trans (if_pos full)
    exact exec_after (exec_harrowLineIssue on d.ticket) held
  case answer =>
    have ticket := Fabric.ticket_of_desc here
    have taken : (({ f with hrw := { f.hrw with answers := [] } } : Fabric).modDesc a.ticket
        (fun _ => d.answered a)).desc d.ticket = some (d.answered a) := by
      rw [ticket]
      exact Fabric.desc_modDesc (f := { f with hrw := { f.hrw with answers := [] } }) here rfl
    obtain ⟨noAnswer, marks, kept⟩ := Fabric.lineMark_desc s.cfg taken pass la
    rw [ticket] at kept
    exact ⟨_, exec_after (exec_harrowLineAnswer on a.ticket) (Fabric.lineAnswer_clean s.cfg answers here flight line op), noAnswer,
      _, kept, rfl, rfl, rfl, rfl, rfl⟩
  case record =>
    exact ⟨_, exec_after (exec_harrowLineAnswer on a.ticket) (Fabric.lineAnswer_record s.cfg answers here flight rfl), rfl⟩
  case ddr =>
    exact ⟨_, exec_after (exec_patrolReadIssue on true u) (Fabric.patrolIssue_ddr enabled runs next), rfl, rfl, rfl, rfl⟩
  case hbm =>
    exact ⟨_, exec_after (exec_patrolReadIssue on false u) (Fabric.patrolIssue_hbm enabled runs next), rfl, rfl, rfl⟩
  case off => exact exec_after (exec_patrolReadIssue on ddr u) (Fabric.patrolIssue_off off ddr u)
  case ddrRead =>
    obtain ⟨m, d, accessed, stored, returns⟩ := Fabric.patrolReturn_head (cfg := s.cfg) true q read first who
    obtain ⟨_, _, _, _, rfl⟩ := accessed
    exact ⟨_, exec_after (exec_patrolReadResult on true _ _) (returns.trans (Fabric.patrolGood_ddr _ r stored)),
      rfl, rfl, rfl, rfl⟩
  case hbmRead =>
    obtain ⟨m, d, accessed, stored, returns⟩ := Fabric.patrolReturn_head (cfg := s.cfg) false q read first who
    obtain ⟨_, _, _, _, rfl⟩ := accessed
    exact ⟨_, exec_after (exec_patrolReadResult on false _ _) (returns.trans (Fabric.patrolGood_hbm _ r stored copies)),
      rfl, rfl, rfl, rfl⟩
  case pending =>
    exact ⟨_, exec_repairCandidateRecord_pending up oldest room row, rfl, rfl, ⟨_, rfl, rfl⟩, rfl, rfl⟩
  case dropped =>
    exact ⟨_, exec_repairCandidateRecord_dropped up oldest full, rfl, List.mem_append_right _ List.mem_cons_self, rfl, rfl⟩

end Sys2Proof
end

section
/-! SUPPORT. What the memory controllers do between accesses: a refresh that is postponed or done, an entry that ages,
a row that closes, writes that drain (R268, R272, R276, R277). -/
namespace Sys2Proof.Machine

section
variable {s : State} (on : s.on 10 = true)
include on

theorem exec_hbmRefresh (bank limit : Nat) :
    exec (.hbmRefresh bank limit) s = .next (s.after (s.fab.refreshDue false bank limit)) :=
  congrArg Host.Outcome.next (State.atMem_on on _)

theorem exec_ddr5Refresh (bank limit : Nat) :
    exec (.ddr5Refresh bank limit) s = .next (s.after (s.fab.refreshDue true bank limit)) :=
  congrArg Host.Outcome.next (State.atMem_on on _)

theorem exec_queueEntryAging (ddr : Bool) (word : Nat) :
    exec (.queueEntryAging ddr word) s = .next (s.after (s.fab.ageEntry ddr word)) :=
  congrArg Host.Outcome.next (State.atMem_on on _)

theorem exec_ddr5RowClose (row : Nat) : exec (.ddr5RowClose row) s = .next (s.after (s.fab.closeRow row)) :=
  congrArg Host.Outcome.next (State.atMem_on on _)

theorem exec_writeDrain (ddr : Bool) (ch : Nat) :
    exec (.writeDrain ddr ch) s = .next (s.after (s.fab.writeDrain ddr ch)) :=
  congrArg Host.Outcome.next (State.atMem_on on _)

end

/-! ## Refresh (R268, R272) -/

section
variable {f : Fabric} {bank limit : Nat}

/-- A bank of HBM has queued accesses. -/
def Mem.hbmBusy (m : Mem) (bank : Nat) : Bool := m.hq.any (fun r => hbmBank r.word = bank)

/-- The rank of a refresh unit of DDR5 has queued reads. -/
def Mem.ddrBusy (m : Mem) (bank : Nat) : Bool :=
  m.dq.any (fun r => ¬ r.write && refreshRank (ddrBank m.rbits r.word) = refreshRank bank)

theorem Mem.hbmBusy_iff (m : Mem) : m.hbmBusy bank = true ↔ ∃ r ∈ m.hq, hbmBank r.word = bank := by
  simp [Mem.hbmBusy]

theorem Mem.ddrBusy_iff (m : Mem) : m.ddrBusy bank = true ↔
    ∃ r ∈ m.dq, r.write = false ∧ refreshRank (ddrBank m.rbits r.word) = refreshRank bank := by
  simp [Mem.ddrBusy]

/-- A refresh is postponed while its bank is busy and its limit is not reached. -/
theorem Fabric.refreshDue_hbm_postponed (busy : f.mem.hbmBusy bank = true) (room : Tab.get f.mem.refresh 0 bank < limit) :
    f.refreshDue false bank limit =
      { f with mem := { f.mem with refresh := Tab.set f.mem.refresh bank (Tab.get f.mem.refresh 0 bank + 1) } } := by
  rw [Mem.hbmBusy] at busy
  simp only [Fabric.refreshDue, busy, room, decide_true, Bool.and_true, Bool.false_eq_true, if_true, if_false]
  rfl

/-- A free bank makes up what was postponed, and the refresh closes the row that the bank keeps open. -/
theorem Fabric.refreshDue_hbm_free (free : f.mem.hbmBusy bank = false) : f.refreshDue false bank limit =
    { f with mem := { f.mem with
      refresh := Tab.erase f.mem.refresh bank, hbmRows := f.mem.hbmRows.filter (fun k => k % 2 ^ 13 ≠ bank) } } := by
  rw [Mem.hbmBusy] at free
  simp only [Fabric.refreshDue, free, Bool.false_and, Bool.not_false, Bool.false_eq_true, if_true, if_false]
  rfl

/-- Past its limit a busy bank is refreshed once for each that falls due. -/
theorem Fabric.refreshDue_hbm_limit (busy : f.mem.hbmBusy bank = true) (limited : limit ≤ Tab.get f.mem.refresh 0 bank) :
    f.refreshDue false bank limit =
      { f with mem := { f.mem with hbmRows := f.mem.hbmRows.filter (fun k => k % 2 ^ 13 ≠ bank) } } := by
  rw [Mem.hbmBusy] at busy
  simp only [Fabric.refreshDue, busy, Nat.not_lt.mpr limited, decide_false, Bool.and_false, Bool.not_true,
    Bool.false_eq_true, if_false]
  rfl

theorem Fabric.refreshDue_ddr_postponed (busy : f.mem.ddrBusy bank = true)
    (room : Tab.get f.mem.refresh 0 (2 ^ 20 + bank) < limit) : f.refreshDue true bank limit =
      { f with mem := { f.mem with
        refresh := Tab.set f.mem.refresh (2 ^ 20 + bank) (Tab.get f.mem.refresh 0 (2 ^ 20 + bank) + 1) } } := by
  rw [Mem.ddrBusy] at busy
  simp only [Fabric.refreshDue, busy, room, decide_true, Bool.and_true, if_true]
  rfl

/-- A refresh of DDR5 that is done closes rows, and an idle channel makes up what was postponed. -/
theorem Fabric.refreshDue_ddr_done
    (due : f.mem.ddrBusy bank = false ∨ limit ≤ Tab.get f.mem.refresh 0 (2 ^ 20 + bank)) :
    ∃ closed : Nat → Bool, f.refreshDue true bank limit = { f with mem := { f.mem with
      refresh := if ∀ r ∈ f.mem.dq, ddrChan r.word ≠ bank % 16 then Tab.erase f.mem.refresh (2 ^ 20 + bank) else f.mem.refresh
      openRows := f.mem.openRows.filter (fun k => ! closed k) } } := by
  have now : ¬ (f.mem.ddrBusy bank && decide (Tab.get f.mem.refresh 0 (2 ^ 20 + bank) < limit)) = true := by
    rcases due with free | limited
    · simp [free]
    · simp only [Nat.not_lt.mpr limited, decide_false, Bool.and_false, Bool.false_eq_true, not_false_eq_true]
  refine ⟨fun k => decide (packNat [(0, 4, bitsOf k 0 4), (4, 1, bitsOf k 4 1), (5, 4, bitsOf k 5 4), (9, 2, bitsOf k 12 2)]
    = bank), (if_neg now).trans ?_⟩
  by_cases idle : ∀ r ∈ f.mem.dq, ddrChan r.word ≠ bank % 16
  · simp [if_pos idle, Fabric.modMem]
  · simp [if_neg idle, Fabric.modMem]

end

/-! ## Ageing and the write drain (R276, R277) -/

section
variable {f : Fabric} {r : MemReq} {rest : List MemReq} {ch : Nat}

/-- The oldest entry of a word ages. -/
theorem Fabric.ageEntry_head (ddr : Bool) (q : f.mem.queueOf ddr = r :: rest) (young : r.aged = false) :
    f.ageEntry ddr r.word = { f with mem := f.mem.withQueue ddr ({ r with aged := true, cls := 0 } :: rest) } := by
  have acts : f.ageEntry ddr r.word = { f with mem := f.mem.withQueue ddr (modFirst
      (fun (x : MemReq) => x.word = r.word && ¬ x.aged) (fun x => { x with aged := true, cls := 0 }) (f.mem.queueOf ddr)) } := by
    cases ddr <;> rfl
  rw [acts, q, modFirst, if_pos (by simp [young])]

/-- Alone in its channel queue, an accepted write is the next that the channel issues. -/
theorem Mem.nextWrite_only {m : Mem} {ddr : Bool} (here : r.chan ddr = ch) (write : r.write = true) (acc : r.acc = true) :
    m.nextWrite ddr ch [r] [] = some r := by
  simp [Mem.nextWrite, here, write, acc]

theorem chanWrites_only {ddr : Bool} (here : r.chan ddr = ch) : chanWrites ddr [r] ch = b2n r.write := by
  cases w : r.write <;> cases ddr <;> simp [chanWrites, chanEntries, here, w, b2n]

theorem chanReads_only {ddr : Bool} (here : r.chan ddr = ch) : chanReads ddr [r] ch = (! r.write && decide (r.cls ≤ 2)) := by
  cases ddr <;> simp [chanReads, chanEntries, here]

/-- The only write of HBM is performed, and its row closes. -/
theorem Mem.issueWrite_hbm_only {m : Mem} (q : m.hq = [r]) : m.issueWrite false r = { m with
    hq := []
    hbm := Tab.put CWord.zero m.hbm r.word ⟨r.data, r.pois⟩
    hbmRows := m.hbmRows.filter (fun x => x % 2 ^ 13 ≠ hbmRow r.word % 2 ^ 13) } := by
  simp [Mem.issueWrite, Mem.touchRow, q, dropFirst, putWord]

/-- The only write of DDR5 is performed, and its row is the open one of its bank. -/
theorem Mem.issueWrite_ddr_only {m : Mem} (q : m.dq = [r]) : m.issueWrite true r = { m with
    dq := []
    ddr := Tab.put CWord.zero m.ddr r.word ⟨r.data, r.pois⟩
    openRows := m.openRows.filter (fun x => x % 2 ^ 14 ≠ ddrRow m.rbits r.word % 2 ^ 14) ++ [ddrRow m.rbits r.word] } := by
  simp [Mem.issueWrite, Mem.touchRow, q, dropFirst, putWord]

theorem Mem.makeUp_frame (m : Mem) (ddr : Bool) (word : Nat) : ∃ rf, m.makeUp ddr word = { m with refresh := rf } := by
  unfold Mem.makeUp
  dsimp only
  split
  · exact ⟨_, rfl⟩
  · exact ⟨m.refresh, rfl⟩

/-- A channel that holds one accepted write and no read performs it, and an idle DDR5 channel makes up its refreshes. -/
theorem Fabric.writeDrain_only (ddr : Bool) (q : f.mem.queueOf ddr = [r]) (here : r.chan ddr = ch) (write : r.write = true)
    (acc : r.acc = true) : f.writeDrain ddr ch = { f with mem := (f.mem.issueWrite ddr r).makeUp ddr r.word } := by
  have writes := chanWrites_only here
  have reads := chanReads_only here
  rw [write] at writes reads
  have issued : Mem.issueWrites ddr ch 1 f.mem = f.mem.issueWrite ddr r := by
    rw [Mem.queueOf] at q
    rw [Mem.issueWrites, q, Mem.nextWrite_only here write acc]
    rfl
  rw [Mem.queueOf] at q
  have found : [r].find? (fun x => decide (x.chan ddr = ch)) = some r := by simp [here]
  have low : ¬ (if ddr = true then 128 else 64) ≤ 1 := by cases ddr <;> decide
  simp only [Fabric.writeDrain, q, writes, reads, found, b2n, if_true, if_neg low]
  exact congrArg (fun m => ({ f with mem := Mem.makeUp m ddr r.word } : Fabric)) issued

/-- A read of the classes 0 to 2 holds back the writes of its channel. -/
theorem Fabric.writeDrain_read (ddr : Bool) (q : f.mem.queueOf ddr = [r]) (here : r.chan ddr = ch) (read : r.write = false)
    (first : r.cls ≤ 2) : f.writeDrain ddr ch = f := by
  have writes := chanWrites_only here
  have reads := chanReads_only here
  rw [Mem.queueOf] at q
  simp only [Fabric.writeDrain, q, writes, reads, read, first]
  cases ddr <;> simp [b2n]

end

end Sys2Proof.Machine

namespace Sys2Proof
open Machine

/-- Settles O50: a refresh is postponed while its unit is busy and within its limit, and done otherwise; an entry ages,
a row closes, a write alone in its channel is performed, and a read of the classes 0 to 2 holds the drain back. -/
theorem channelsRefreshAgeCloseAndDrain : Obligations.ChannelsRefreshAgeCloseAndDrain := by
  unfold Obligations.ChannelsRefreshAgeCloseAndDrain
  intro s on f memory
  refine ⟨fun bank limit busy room => ?hbmLater, fun bank limit free => ?hbmFree, fun bank limit busy limited => ?hbmLimit,
    fun bank limit busy room => ?ddrLater, fun bank limit due => ?ddrDone, fun r rest q young => ?hbmAges,
    fun r rest q young => ?ddrAges, fun row => ?closes, fun ch r q here write acc => ?hbmDrains,
    fun ch r q here write acc => ?ddrDrains, fun ch r q here read first => ?held⟩
  case hbmLater =>
    exact ⟨_, exec_after (exec_hbmRefresh on bank limit)
      (Fabric.refreshDue_hbm_postponed (f.mem.hbmBusy_iff.mpr busy) room), rfl⟩
  case hbmFree =>
    have idle : f.mem.hbmBusy bank = false :=
      Bool.eq_false_iff.mpr fun busy => (f.mem.hbmBusy_iff.mp busy).elim fun r ⟨queued, same⟩ => free r queued same
    exact ⟨_, exec_after (exec_hbmRefresh on bank limit) (Fabric.refreshDue_hbm_free idle), rfl⟩
  case hbmLimit =>
    exact ⟨_, exec_after (exec_hbmRefresh on bank limit)
      (Fabric.refreshDue_hbm_limit (f.mem.hbmBusy_iff.mpr busy) limited), rfl⟩
  case ddrLater =>
    exact ⟨_, exec_after (exec_ddr5Refresh on bank limit)
      (Fabric.refreshDue_ddr_postponed (f.mem.ddrBusy_iff.mpr busy) room), rfl⟩
  case ddrDone =>
    have idle : (∀ r ∈ f.mem.dq, r.write = false → refreshRank (ddrBank f.mem.rbits r.word) ≠ refreshRank bank) →
        f.mem.ddrBusy bank = false := fun free => Bool.eq_false_iff.mpr fun busy =>
      (f.mem.ddrBusy_iff.mp busy).elim fun r ⟨queued, read, same⟩ => free r queued read same
    obtain ⟨closed, done⟩ := Fabric.refreshDue_ddr_done (due.imp_left idle)
    exact ⟨_, exec_after (exec_ddr5Refresh on bank limit) done, fun k kept => List.mem_of_mem_filter kept, rfl, rfl, rfl, rfl, rfl⟩
  case hbmAges => exact ⟨_, exec_after (exec_queueEntryAging on false r.word) (Fabric.ageEntry_head false q young), rfl⟩
  case ddrAges => exact ⟨_, exec_after (exec_queueEntryAging on true r.word) (Fabric.ageEntry_head true q young), rfl⟩
  case closes => exact ⟨_, exec_ddr5RowClose on row, rfl⟩
  case hbmDrains =>
    exact ⟨_, exec_after (exec_writeDrain on false ch) (Fabric.writeDrain_only false q here write acc),
      Mem.issueWrite_hbm_only q⟩
  case ddrDrains =>
    have drained := Fabric.writeDrain_only true q here write acc
    obtain ⟨made, refreshed⟩ := (f.mem.issueWrite true r).makeUp_frame true r.word
    rw [refreshed, Mem.issueWrite_ddr_only q] at drained
    exact ⟨_, exec_after (exec_writeDrain on true ch) drained, rfl, rfl, List.mem_append_right _ (List.mem_singleton_self _),
      rfl, rfl, rfl⟩
  case held => exact exec_after (exec_writeDrain on false ch) (Fabric.writeDrain_read false q here read first)

end Sys2Proof
end

section
/-! SUPPORT. The steps of start-up (Table 19.7) and of memory bring-up (Table 10.4): what each leaves when its condition
holds (R286 to R290, R338, R531, R532). -/
namespace Sys2Proof.Machine

/-! ## Start-up -/

/-- A step of start-up ends in `u`, and what follows leaves the configuration and the power side alone. -/
theorem State.startupStep_gives {s u : State} {p : State → Prop} (ends : s.startupStep = u) (holds : p u) :
    ∃ u : State, exec .startupStepEnd s = .next (s.followed u) ∧ p u ∧ (s.followed u).cfg = u.cfg ∧
      (s.followed u).pcr = u.pcr := by
  obtain ⟨-, cfg, pcr, -⟩ := State.finish_rest u s.fab.tlink.st s.fab.twin.pair
  exact ⟨u, congrArg (fun t => Host.Outcome.next (s.followed t)) ends, holds, cfg, pcr⟩

/-- The device is out of reset and no power failure holds it. -/
def Pcr.Runs (p : Pcr) : Prop := p.porst = false ∧ p.supplyHold = false ∧ p.pf = 0 ∧ p.quiescent = false

theorem Pcr.Runs.ready {p : Pcr} (runs : p.Runs) : (p.porst || p.supplyHold || p.pf ≠ 0 || p.quiescent) = false := by
  obtain ⟨porst, hold, pf, quiescent⟩ := runs
  simp [porst, hold, pf, quiescent]

section
variable {s : State} (runs : s.pcr.Runs)
include runs

theorem State.startupStep_straps (step : s.pcr.startup = 1) : s.startupStep = { s with pcr := { s.pcr with startup := 2 } } := by
  simp only [State.startupStep, runs.ready, step, Bool.false_eq_true, if_false]

/-- Step 2 ends with the PCI Express and Steward domains on, and the boot ROM loads the preferred image. -/
theorem State.startupStep_load (step : s.pcr.startup = 2) : s.startupStep =
    ({ s with pcr := { s.pcr with startup := 3, pd := s.pcr.pd ||| 0x10000200 } } : State).load s.stw.jrnl.preferred false := by
  simp only [State.startupStep, runs.ready, step, Bool.false_eq_true, if_false]

theorem State.startupStep_image (step : s.pcr.startup = 3) : s.startupStep =
    if s.stw.up = true ∧ s.stw.safe = false then { s with pcr := { s.pcr with startup := 4 } } else s := by
  simp only [State.startupStep, runs.ready, step, Bool.false_eq_true, if_false, Bool.and_eq_true, decide_eq_true_eq,
    Bool.not_eq_true]

theorem State.startupStep_journal (step : s.pcr.startup = 4) : s.startupStep = s.startup4 := by
  simp only [State.startupStep, runs.ready, step, Bool.false_eq_true, if_false]

theorem State.startupStep_memory (step : s.pcr.startup = 5) : s.startupStep =
    if s.pcr.bring.hbmStep = 4 ∧ s.pcr.bring.ddrStep = 8 then { s with pcr := { s.pcr with startup := 7 } } else s := by
  simp only [State.startupStep, runs.ready, step, Bool.false_eq_true, if_false, Bool.and_eq_true, decide_eq_true_eq]

theorem State.startupStep_commit (step : s.pcr.startup = 7) : s.startupStep = s.startup7 := by
  simp only [State.startupStep, runs.ready, step, Bool.false_eq_true, if_false]

end

/-- The journal is read: its port and twin words are applied, the last stop is reported, and bring-up begins (R338,
R341, R531). -/
theorem State.startup4_leaves (s : State) : let u := s.startup4
    u.cfg = { Cfg.reset with wlp := s.stw.jrnl.appliedCfg.wlp, twn := s.stw.jrnl.appliedCfg.twn } ∧
    u.pcr.startup = 5 ∧ u.pcr.unclean = s.stw.jrnl.uncleanStart.1 ∧ u.pcr.noWarning = s.stw.jrnl.uncleanStart.2 ∧
    u.pcr.bring.hbmStep = 1 ∧ u.pcr.bring.ddrStep = 4 ∧ (s.stw.jrnl.uncleanStart.1 = true → (228, 0) ∈ u.fab.raised) ∧
    ∀ i, i < 32 → u.fab.links.toList[i]? = some (Link.init (if s.stw.jrnl.appliedCfg.halfUsed i then .detect else .disabled)) := by
  unfold State.startup4
  dsimp only
  split
  next unclean => exact ⟨rfl, rfl, rfl, rfl, rfl, rfl, fun _ => Fabric.mem_raised_raise _ 228, fun i hi => by simp [Fabric.raise, hi]⟩
  next clean => exact ⟨rfl, rfl, rfl, rfl, rfl, rfl, fun unclean => absurd unclean clean, fun i hi => by simp [hi]⟩

theorem Stw.logImage_entries (w : Stw) (kind : Nat) (c : Cfg) :
    ∃ es, (w.logImage kind c).jrnl.entries = w.jrnl.entries ++ es := by
  unfold Stw.logImage
  generalize List.range 3 = l
  induction l generalizing w with
  | nil => exact ⟨[], (List.append_nil _).symm⟩
  | cons i l ih =>
    obtain ⟨es, grown⟩ := ih (w.log 0x11 (16 * kind + i) ((c.image.drop (832 * i)).take 832))
    exact ⟨_, grown.trans (List.append_assoc _ _ _)⟩

/-- An entry that is logged is among those that have come. -/
theorem Stw.log_grows {w : Stw} {old es : List JEntry} (grown : w.jrnl.entries = old ++ es) (rtype key : Nat) (body : List Nat) :
    ∃ es, (w.log rtype key body).jrnl.entries = old ++ es ∧ ∃ e ∈ es, e.rtype = rtype ∧ e.key = key :=
  ⟨es ++ [⟨w.jrnl.nextSeq, rtype, key, body, false⟩], (congrArg (· ++ _) grown).trans (List.append_assoc _ _ _),
    _, List.mem_append_right _ (List.mem_singleton_self _), rfl, rfl⟩

/-- The configuration that a start puts in force: the latest applied one, without its regions where bring-up failed
(R287, R532). -/
def State.startCfg (s : State) : Cfg :=
  if s.pcr.bring.stackFailed = true ∨ s.pcr.bring.cap = 0 then s.stw.jrnl.appliedCfg.disabled else s.stw.jrnl.appliedCfg

/-- The start epoch is committed (R338). -/
theorem State.startup7_leaves (s : State) : let u := s.startup7
    u.pcr = { s.pcr with startup := 8 } ∧ u.fab.epoch = min 0xFFFFFFFF (s.stw.jrnl.committed + 1) ∧ u.cfg = s.startCfg ∧
    u.stw.staged = u.cfg ∧
    (∃ es, u.stw.jrnl.entries = s.stw.jrnl.entries ++ es ∧ ∃ e ∈ es, e.rtype = 0x10 ∧ e.key = 1) ∧ u.irq = s.irq := by
  have cfg : s.startup7.cfg = s.startCfg := by simp [State.startup7, State.startCfg]
  obtain ⟨es, image⟩ := s.stw.logImage_entries 1 s.startup7.cfg
  exact ⟨rfl, rfl, cfg, rfl, Stw.log_grows image 0x10 1 _, rfl⟩

/-- Requests are admitted and held declarations answered; no request is held (R67, R68). -/
theorem State.startup8_unheld {s : State} (unheld : s.fab.portHeld = []) : s.startup8 = { s with
    fab := (({ s.fab with draining := false, accepting := true } : Fabric).answerHeld s.cfg).flow s.cfg
    pcr := { s.pcr with startup := 9, byDevice := false } } := by
  unfold State.startup8
  dsimp only
  rw [unheld, List.foldl_nil]

/-- At the end of a start by device reset source 229 is raised. -/
theorem State.startupStep_opens {s : State} (runs : s.pcr.Runs) (step : s.pcr.startup = 8) (unheld : s.fab.portHeld = []) :
    let f := (({ s.fab with draining := false, accepting := true } : Fabric).answerHeld s.cfg).flow s.cfg
    s.startupStep = { s with
      fab := if s.pcr.byDevice = true then f.raise 229 else f
      pcr := { s.pcr with startup := 9, byDevice := false } } := by
  intro f
  have ends : s.startupStep = if s.pcr.byDevice = true then s.startup8.raise 229 else s.startup8 := by
    simp only [State.startupStep, runs.ready, step, Bool.false_eq_true, if_false]
  have opened : s.startup8 = { s with fab := f, pcr := { s.pcr with startup := 9, byDevice := false } } :=
    State.startup8_unheld unheld
  rw [ends, opened]
  clear_value f
  split
  · rfl
  · rfl

/-! ## Memory bring-up -/

@[simp] theorem vget_ofFn {α : Type} {n : Nat} (g : Fin n → α) (d : α) {i : Nat} (hi : i < n) :
    vget (Vector.ofFn g) d i = g ⟨i, hi⟩ := by
  simp [vget, hi]

/-- What a step of bring-up leaves is what its command leaves. -/
theorem exec_memoryBringupStepEnd {ddr : Bool} {r : BringIn} {s u : State} (ends : s.bringup ddr r = u) :
    exec (.memoryBringupStepEnd ddr r.fails r.lanes r.geo r.toDimmIn) s = .next u := congrArg Host.Outcome.next ends

/-! A command of bring-up acts while step 5 of start-up runs (R286). -/

section
variable {s : State} (five : s.pcr.startup = 5) (r : BringIn)
include five

theorem State.bringup_hbm (started : 1 ≤ s.pcr.bring.hbmStep) (more : s.pcr.bring.hbmStep < 4) :
    s.bringup false r = s.hbmStep r.fails r.lanes := by
  simp [State.bringup, five, more, Nat.lt_of_succ_le started]

theorem State.bringup_read (step : s.pcr.bring.ddrStep = 4) : s.bringup true r =
    { s with pcr := { s.pcr with bring := { s.pcr.bring with
      spd := Vector.ofFn (fun i => r.spd.getD i.val none), dimms := Vector.ofFn (fun i => r.dimms.getD i.val none), ddrStep := 5 } } } := by
  simp [State.bringup, five, step]

theorem State.bringup_train (step : s.pcr.bring.ddrStep = 5) : s.bringup true r = s.ddrTrain r := by
  simp [State.bringup, five, step]

theorem State.bringup_repair (step : s.pcr.bring.ddrStep = 6) : s.bringup true r = s.ddrHppr r.outcomes := by
  simp [State.bringup, five, step]

theorem State.bringup_fix (step : s.pcr.bring.ddrStep = 7) : s.bringup true r = s.ddrFix := by
  simp [State.bringup, five, step]

end

/-- Events that are raised one after another. -/
theorem State.foldl_raise (g : Nat → Nat) : ∀ (l : List Nat) (s : State), l.foldl (fun s k => s.raise (g k)) s =
    { s with fab := { s.fab with raised := s.fab.raised ++ l.map (fun k => (g k, 0)) } }
  | [], s => by simp
  | k :: l, s => by
    rw [List.foldl_cons, State.foldl_raise g l]
    simp [State.raise, Fabric.raise]

/-! ### HBM stacks (R286, R287) -/

/-- A stack at the end of a step, which it fails or not: what it trains to, and the lane repairs of step 1. -/
def HbcStat.stepped (h : HbcStat) (step : Nat) (failed : Bool) (lanes : BitVec 16) : HbcStat :=
  let h := if step = 1 then { h with laneRep := lanes } else h
  if h.train = 3 then h
  else if (step = 1 || step = 2) && failed then { h with train := 3 }
  else if step = 2 then { h with train := 2 } else h

section
variable {h : HbcStat} {step : Nat} {failed : Bool} {lanes : BitVec 16}

theorem HbcStat.stepped_lanes (one : step = 1) : (h.stepped step failed lanes).laneRep = lanes := by
  subst one
  by_cases out : h.train = 3#2 <;> cases failed <;> simp [HbcStat.stepped, out]

theorem HbcStat.stepped_failed (out : h.train = 3) : (h.stepped step failed lanes).train = 3 := by
  by_cases one : step = 1 <;> simp [HbcStat.stepped, one, out]

theorem HbcStat.stepped_train (first : 1 ≤ step) (more : step < 3) (trains : h.train ≠ 3) :
    (h.stepped step failed lanes).train = if failed = true then 3 else if step = 2 then 2 else h.train := by
  have trains : ¬ h.train = 3#2 := trains
  obtain rfl | rfl : step = 1 ∨ step = 2 := by omega
  · cases failed <;> simp [HbcStat.stepped, trains]
  · cases failed <;> simp [HbcStat.stepped, trains]

end

/-- The stack `k` of a state of bring-up. -/
def Bring.stack (b : Bring) (k : Nat) : HbcStat := vget b.hbc ⟨0, 0, 0, 0, false⟩ k

/-- Bring-up once a step of the HBM stacks has ended. -/
def Bring.hbmStepped (b : Bring) (fails : BitVec 12) (lanes : List (BitVec 16)) : Bring :=
  { b with
    hbc := Vector.ofFn (fun i => (b.stack i.val).stepped b.hbmStep (fails.toNat.testBit i.val) (lanes.getD i.val 0))
    hbmStep := if b.hbmStep < 4 then b.hbmStep + 1 else 4 }

theorem Bring.hbmStepped_stack (b : Bring) (fails : BitVec 12) (lanes : List (BitVec 16)) {k : Nat} (hk : k < 4) :
    (b.hbmStepped fails lanes).stack k = (b.stack k).stepped b.hbmStep (fails.toNat.testBit k) (lanes.getD k 0) :=
  vget_ofFn _ _ hk

/-- The sources of the stacks whose training ends with a step. -/
def Bring.hbmRaised (b : Bring) (fails : BitVec 12) (lanes : List (BitVec 16)) : List (Nat × Nat) :=
  ((List.range 4).filter (fun k =>
    (b.stack k).train = 1 && decide (((b.hbmStepped fails lanes).stack k).train ≠ 1))).map (fun k => (96 + k, 0))

theorem State.hbmStep_eq (s : State) (fails : BitVec 12) (lanes : List (BitVec 16)) : s.hbmStep fails lanes = { s with
    pcr := { s.pcr with bring := s.pcr.bring.hbmStepped fails lanes }
    fab := { s.fab with raised := s.fab.raised ++ s.pcr.bring.hbmRaised fails lanes } } :=
  State.foldl_raise (96 + ·) _ _

/-- A stack that fails its training raises its source (R287). -/
theorem Bring.mem_hbmRaised {b : Bring} {fails : BitVec 12} (lanes : List (BitVec 16)) {k : Nat} (hk : k < 4)
    (first : 1 ≤ b.hbmStep) (more : b.hbmStep < 3) (trains : (b.stack k).train = 1) (failed : fails.toNat.testBit k = true) :
    (96 + k, 0) ∈ b.hbmRaised fails lanes := by
  have out : ((b.hbmStepped fails lanes).stack k).train = 3 := by
    rw [Bring.hbmStepped_stack _ _ _ hk, HbcStat.stepped_train first more (by rw [trains]; decide), if_pos failed]
  refine List.mem_map_of_mem (List.mem_filter.mpr ⟨List.mem_range.mpr hk, ?_⟩)
  rw [trains, out]
  rfl

/-! ### Training of the DDR5 channels (R270, R288) -/

theorem Journal.last_append_same (j : Journal) (rtype key : Nat) (body : List Nat) :
    (j.append rtype key body).last rtype key = some body := by
  simp [Journal.last, Journal.append_entries]

theorem Journal.last_append_other (j : Journal) (rtype : Nat) {key other : Nat} (body : List Nat) (ne : other ≠ key) :
    (j.append rtype other body).last rtype key = j.last rtype key := by
  simp [Journal.last, Journal.append_entries, ne]

/-- Each KEY of a list of entries of one type has its body as the latest. -/
theorem Journal.last_foldl_append (j : Journal) (rtype : Nat) (body : Nat → List Nat) {key : Nat} (l : List Nat) (listed : key ∈ l) :
    (l.foldl (fun j k => j.append rtype k (body k)) j).last rtype key = some (body key) := by
  induction l using List.reverseRecOn with
  | nil => cases listed
  | append_singleton l k ih =>
    rw [List.foldl_append]
    by_cases same : k = key
    · subst same
      exact Journal.last_append_same _ rtype k (body k)
    · refine (Journal.last_append_other _ rtype (body k) same).trans (ih ?_)
      exact (List.mem_append.mp listed).resolve_right fun last => same (List.mem_singleton.mp last).symm

/-- Channel `c` has trained: its results are journalled where they are due, and its source is raised. -/
def State.trained (due : Nat → Bool) (body : Nat → List Nat) (t : State) (c : Nat) : State :=
  (if due c then t.modStw (fun w => w.log 0x40 c (body c)) else t).raise (112 + c)

theorem State.foldl_trained (due : Nat → Bool) (body : Nat → List Nat) : ∀ (l : List Nat) (t : State),
    l.foldl (State.trained due body) t = { t with
      stw := { t.stw with jrnl := (l.filter due).foldl (fun j c => j.append 0x40 c (body c)) t.stw.jrnl }
      fab := { t.fab with raised := t.fab.raised ++ l.map (fun c => (112 + c, 0)) } }
  | [], t => by simp
  | c :: l, t => by
    rw [List.foldl_cons, State.foldl_trained due body l]
    cases logged : due c <;> simp [State.trained, logged, State.raise, Fabric.raise, State.modStw, Stw.log]

/-- The saved results that channel `c` takes: they fit, and they verify (R288). -/
def State.loadedGeo (s : State) (r : BringIn) (c : Nat) : Option Geo :=
  if r.outcomes.getD c false then s.savedGeo c else none

/-- Channel `c` after training. -/
def State.trainedChan (s : State) (r : BringIn) (c : Nat) : DdcStat :=
  let d := vget s.pcr.bring.ddc DdcStat.zero c
  match s.loadedGeo r c with
  | some g => { d with train := 2, geo := g }
  | none =>
    if r.fails.toNat.testBit c then { d with train := 3, geo := ⟨0, 0, 0, 0, 0⟩ }
    else { d with train := 2, geo := s.pcr.bring.usable c (r.geo.getD c ⟨0, 0, 0, 0, 0⟩) }

/-- The channels after training. -/
def State.trainedChans (s : State) (r : BringIn) : Vector DdcStat 12 := Vector.ofFn (fun i => s.trainedChan r i.val)

/-- The results of channel `c` are journalled: it has trained in full. -/
def State.trainDue (s : State) (r : BringIn) (c : Nat) : Bool :=
  (vget (s.trainedChans r) DdcStat.zero c).train = 2 && (s.loadedGeo r c).isNone

/-- What is journalled of channel `c`: its geometry and the key of its results. -/
def State.trainBody (s : State) (r : BringIn) (c : Nat) : List Nat :=
  let g := (vget (s.trainedChans r) DdcStat.zero c).geo
  [g.dimms, g.ranks, g.logic, g.speed, g.dens] ++ s.pcr.bring.trainKey c

/-- The journal with the results of the channels that have trained in full. -/
def State.trainJournal (s : State) (r : BringIn) : Journal :=
  ((List.range 12).filter (s.trainDue r)).foldl (fun j c => j.append 0x40 c (s.trainBody r c)) s.stw.jrnl

theorem State.ddrTrain_eq (s : State) (r : BringIn) : s.ddrTrain r = { s with
    pcr := { s.pcr with bring := { s.pcr.bring with ddc := s.trainedChans r, ddrStep := 6 } }
    stw := { s.stw with jrnl := s.trainJournal r }
    fab := { s.fab with raised := s.fab.raised ++ (List.range 12).map (fun c => (112 + c, 0)) } } :=
  State.foldl_trained (s.trainDue r) (s.trainBody r) _ _

theorem State.loadedGeo_none {s : State} {r : BringIn} {c : Nat}
    (full : r.outcomes.getD c false = false ∨ s.savedGeo c = none) : s.loadedGeo r c = none := by
  rcases full with unverified | unsaved
  · exact if_neg (Bool.eq_false_iff.mp unverified)
  · simp [State.loadedGeo, unsaved]

section
variable {s : State} {r : BringIn} {c : Nat} (hc : c < 12)
include hc

theorem State.trainedChans_get : vget (s.trainedChans r) DdcStat.zero c = s.trainedChan r c := vget_ofFn _ _ hc

theorem State.trainedChans_loaded {g : Geo} (verified : r.outcomes.getD c false = true) (saved : s.savedGeo c = some g) :
    (vget (s.trainedChans r) DdcStat.zero c).train = 2 ∧ (vget (s.trainedChans r) DdcStat.zero c).geo = g := by
  have loaded : s.loadedGeo r c = some g := (if_pos verified).trans saved
  simp [State.trainedChans_get hc, State.trainedChan, loaded]

variable (full : s.loadedGeo r c = none)
include full

theorem State.trainedChans_failed (failed : r.fails.toNat.testBit c = true) :
    (vget (s.trainedChans r) DdcStat.zero c).train = 3 ∧ (vget (s.trainedChans r) DdcStat.zero c).geo = ⟨0, 0, 0, 0, 0⟩ := by
  simp [State.trainedChans_get hc, State.trainedChan, full, failed]

variable (good : r.fails.toNat.testBit c = false)
include good

theorem State.trainedChans_full : (vget (s.trainedChans r) DdcStat.zero c).train = 2 ∧
    (vget (s.trainedChans r) DdcStat.zero c).geo = s.pcr.bring.usable c (r.geo.getD c ⟨0, 0, 0, 0, 0⟩) := by
  simp [State.trainedChans_get hc, State.trainedChan, full, good]

/-- The results of a channel that trains in full are journalled with their key. -/
theorem State.trainJournal_last : let g := s.pcr.bring.usable c (r.geo.getD c ⟨0, 0, 0, 0, 0⟩)
    (s.trainJournal r).last 0x40 c =
      some ([g.dimms, g.ranks, g.logic, g.speed, g.dens] ++ s.pcr.bring.trainKey c) := by
  obtain ⟨train, geo⟩ := State.trainedChans_full hc full good
  have due : s.trainDue r c = true := by
    rw [State.trainDue, train, full]
    rfl
  have listed : c ∈ (List.range 12).filter (s.trainDue r) := List.mem_filter.mpr ⟨List.mem_range.mpr hc, due⟩
  rw [State.trainJournal, Journal.last_foldl_append _ 0x40 (s.trainBody r) _ listed, State.trainBody, geo]

end

/-! ### Rows recorded for repair (R290) -/

/-- Channel `c` of a state of bring-up. -/
def Bring.chan (b : Bring) (c : Nat) : DdcStat := vget b.ddc DdcStat.zero c

/-- An hPPR of the row `i`: its repair is done, or refused and its channel out; its channel's source is raised. -/
theorem State.hpprOne_eq {s : State} {i : Nat} {x : Repair} (here : s.fab.gln.repairs[i]? = some x) (ok : Bool) :
    ∃ w, s.hpprOne i ok = { s with
      stw := w
      pcr := { s.pcr with bring := { s.pcr.bring with ddc := vmod s.pcr.bring.ddc x.channel (fun (d : DdcStat) =>
        if ok then { d with hppr := min 15 (d.hppr + 1) } else { d with out := true }) } }
      fab := { s.fab with
        gln := { s.fab.gln with repairs := s.fab.gln.repairs.set i { x with state := if ok then 4 else 3 } }
        raised := s.fab.raised ++ [(112 + x.channel, 0)] } } := by
  unfold State.hpprOne
  rw [here]
  cases ok with
  | true => exact ⟨_, rfl⟩
  | false => exact ⟨_, rfl⟩

/-- Repairs of the rows `rows` leave the other rows alone, and take back no event and no channel that is out. -/
def State.Repairs (rows : List Nat) (s t : State) : Prop :=
  t.cfg = s.cfg ∧ t.fab.gln.repairs.length = s.fab.gln.repairs.length ∧
    (∀ i, i ∉ rows → t.fab.gln.repairs[i]? = s.fab.gln.repairs[i]?) ∧ s.fab.raised ⊆ t.fab.raised ∧
    ∀ c, (s.pcr.bring.chan c).out = true → (t.pcr.bring.chan c).out = true

theorem State.Repairs.refl (rows : List Nat) (s : State) : s.Repairs rows s :=
  ⟨rfl, rfl, fun _ _ => rfl, List.Subset.refl _, fun _ out => out⟩

theorem State.Repairs.trans {s t u : State} {rows more : List Nat} (st : s.Repairs rows t) (tu : t.Repairs more u) :
    s.Repairs (rows ++ more) u := by
  obtain ⟨cfg, length, keeps, raised, out⟩ := st
  obtain ⟨cfg', length', keeps', raised', out'⟩ := tu
  refine ⟨cfg'.trans cfg, length'.trans length, fun i away => ?_, fun e he => raised' (raised he), fun c h => out' c (out c h)⟩
  rw [List.mem_append, not_or] at away
  exact (keeps' i away.2).trans (keeps i away.1)

/-- A channel that is out stays out through a change of any channel that keeps what is out. -/
theorem Bring.out_vmod (b : Bring) (c k : Nat) (g : DdcStat → DdcStat) (keeps : ∀ d : DdcStat, d.out = true → (g d).out = true)
    (out : (b.chan c).out = true) : (vget (vmod b.ddc k g) DdcStat.zero c).out = true := by
  by_cases same : c = k
  · subst same
    by_cases hc : c < 12
    · rw [vget_vmod_same _ _ _ _ hc]
      exact keeps _ out
    · have past : b.chan c = DdcStat.zero := by simp [Bring.chan, vget, hc]
      rw [past] at out
      cases out
  · rw [vget_vmod_other _ _ _ _ _ same]
    exact out

theorem State.hpprOne_repairs (s : State) (i : Nat) (ok : Bool) : s.Repairs [i] (s.hpprOne i ok) := by
  cases here : s.fab.gln.repairs[i]? with
  | none =>
    have idle : s.hpprOne i ok = s := by
      unfold State.hpprOne
      rw [here]
    rw [idle]
    exact .refl _ s
  | some x =>
    obtain ⟨w, eq⟩ := State.hpprOne_eq here ok
    rw [eq]
    refine ⟨rfl, List.length_set .., fun j away => List.getElem?_set_ne fun same => away (List.mem_singleton.mpr same.symm),
      List.subset_append_left _ _, fun c out => Bring.out_vmod _ c _ _ (fun d was => ?_) out⟩
    cases ok with
    | true => exact was
    | false => rfl

/-- The rows of a list are repaired one after another, each by its outcome. -/
def State.hpprEach (outcomes : List Bool) (s : State) (l : List (Nat × Nat)) : State :=
  l.foldl (fun s p => s.hpprOne p.1 (outcomes.getD p.2 true)) s

theorem State.hpprEach_repairs (outcomes : List Bool) : ∀ (l : List (Nat × Nat)) (s : State),
    s.Repairs (l.map Prod.fst) (s.hpprEach outcomes l)
  | [], s => .refl _ s
  | p :: l, s => (s.hpprOne_repairs p.1 _).trans (State.hpprEach_repairs outcomes l _)

/-- What becomes of a row that is listed once. -/
theorem State.hpprEach_row {outcomes : List Bool} {l : List (Nat × Nat)} {p : Nat × Nat} {s : State} {x : Repair}
    (once : (l.map Prod.fst).Nodup) (listed : p ∈ l) (here : s.fab.gln.repairs[p.1]? = some x) :
    let t := s.hpprEach outcomes l
    let ok := outcomes.getD p.2 true
    t.fab.gln.repairs[p.1]? = some { x with state := if ok then 4 else 3 } ∧ (112 + x.channel, 0) ∈ t.fab.raised ∧
      (ok = false → x.channel < 12 → (t.pcr.bring.chan x.channel).out = true) := by
  intro t ok
  obtain ⟨before, after, rfl⟩ := List.append_of_mem listed
  have split : t = ((s.hpprEach outcomes before).hpprOne p.1 ok).hpprEach outcomes after :=
    List.foldl_append
  rw [List.map_append, List.map_cons, List.nodup_middle, List.nodup_cons, List.mem_append, not_or] at once
  obtain ⟨⟨notBefore, notAfter⟩, -⟩ := once
  obtain ⟨-, -, kept, -, -⟩ := s.hpprEach_repairs outcomes before
  obtain ⟨w, eq⟩ := State.hpprOne_eq ((kept p.1 notBefore).trans here) ok
  obtain ⟨-, -, keeps, raised, out⟩ := ((s.hpprEach outcomes before).hpprOne p.1 ok).hpprEach_repairs outcomes after
  have inside : p.1 < (s.hpprEach outcomes before).fab.gln.repairs.length :=
    (List.getElem?_eq_some_iff.mp ((kept p.1 notBefore).trans here)).1
  rw [split]
  refine ⟨(keeps p.1 notAfter).trans ?_, raised ?_, fun refused hc => out _ ?_⟩
  · rw [eq]
    exact List.getElem?_set_self inside
  · rw [eq]
    exact List.mem_append_right _ (List.mem_singleton_self _)
  · rw [eq, Bring.chan, vget_vmod_same _ _ _ _ hc, refused]
    rfl

/-- The rows recorded for an sPPR that step 6 repairs. -/
def State.hpprRows (s : State) : List Nat :=
  (List.range s.fab.gln.repairs.length).filter (fun i =>
    match s.fab.gln.repairs[i]? with | some x => 4 ≤ x.block && x.block < 10 && x.state = 2 | none => false)

theorem State.hpprRows_once (s : State) : (s.hpprRows.zipIdx.map Prod.fst).Nodup := by
  rw [List.zipIdx_map_fst]
  exact List.nodup_range.filter _

theorem State.ddrHppr_eq (s : State) (outcomes : List Bool) : let t := s.hpprEach outcomes s.hpprRows.zipIdx
    s.ddrHppr outcomes = { t with pcr := { t.pcr with bring := { t.pcr.bring with ddrStep := 7 } } } := rfl

/-! ### The common population (R270) -/

/-- The common population of the channels. -/
def Bring.common (b : Bring) : Geo := commonGeo (b.ddc.toList.map (·.geo))

/-- Some channel has more than the common population. -/
def Bring.reduced (b : Bring) : Bool :=
  (List.range 12).any (fun c => b.installed c ≠ b.common.rankCount || (b.chanDimms c).any (fun d => d.dens ≠ b.common.dens))

theorem Bring.reduced_iff (b : Bring) : b.reduced = true ↔
    ∃ c, c < 12 ∧ (b.installed c ≠ b.common.rankCount ∨ ∃ x ∈ b.chanDimms c, x.dens ≠ b.common.dens) := by
  simp [Bring.reduced]

/-- Channel `c` at the common population. -/
def Bring.fixedChan (b : Bring) (c : Nat) : DdcStat :=
  { b.chan c with
    speed := BitVec.ofNat 2 b.common.speed, dpc2 := decide (b.common.dimms = 2)
    rbits := BitVec.ofNat 3 (log2 (max 1 b.common.rankCount)), idle := min 15 (b.installed c - b.common.rankCount) }

theorem State.ddrFix_eq (s : State) : let b := s.pcr.bring
    s.ddrFix = { s with
      pcr := { s.pcr with bring := { b with
        ddc := Vector.ofFn (fun i => b.fixedChan i.val), cap := min 6144 b.common.capacity, ddrStep := 8 } }
      fab := { s.fab with
        mem := { s.fab.mem with rbits := log2 (max 1 b.common.rankCount) }
        raised := if b.reduced = true then s.fab.raised ++ [(125, 0)] else s.fab.raised } } := by
  intro b
  have same : s.ddrFix = if b.reduced = true then _ else _ := rfl
  rw [same]
  split
  · rfl
  · rfl

end Sys2Proof.Machine

namespace Sys2Proof
open Machine

/-- Settles O38, step by step: a step of start-up ends in the state that its own equation gives, a step of the HBM stacks
by what it does to one stack, and a step of the DDR5 channels by what it does to one channel or one recorded row. -/
theorem startAndBringUpRunTheirSteps : Obligations.StartAndBringUpRunTheirSteps := by
  unfold Obligations.StartAndBringUpRunTheirSteps
  refine ⟨?startup, ?bringup⟩
  case startup =>
    intro s porst hold pf quiescent gives
    have runs : s.pcr.Runs := ⟨porst, hold, pf, quiescent⟩
    refine ⟨fun step => ?straps, fun step => ?load, fun step => ?image, fun step => ?journal, fun step => ?memory,
      fun step => ?commit, fun step unheld => ?opens⟩
    case straps => exact State.startupStep_gives (State.startupStep_straps runs step) rfl
    case load => exact State.startupStep_gives (State.startupStep_load runs step) ⟨rfl, rfl, rfl, rfl, rfl⟩
    case image => exact State.startupStep_gives (State.startupStep_image runs step) rfl
    case journal => exact State.startupStep_gives (State.startupStep_journal runs step) s.startup4_leaves
    case memory => exact State.startupStep_gives (State.startupStep_memory runs step) rfl
    case commit => exact State.startupStep_gives (State.startupStep_commit runs step) s.startup7_leaves
    case opens => exact State.startupStep_gives (State.startupStep_opens runs step unheld) ⟨rfl, rfl, rfl, rfl⟩
  case bringup =>
    intro s r five b h d common rows
    refine ⟨fun first more => ?hbm, fun step => ?read, fun step => ?train, fun step => ?repair, fun step => ?fix⟩
    case hbm =>
      refine ⟨_, exec_memoryBringupStepEnd ((State.bringup_hbm five r first more).trans (s.hbmStep_eq r.fails r.lanes)),
        if_pos more, rfl, rfl, rfl, rfl, fun k hk => ?_⟩
      have stack := b.hbmStepped_stack r.fails r.lanes hk
      exact ⟨fun one => (congrArg HbcStat.laneRep stack).trans (HbcStat.stepped_lanes one),
        fun more trains => (congrArg HbcStat.train stack).trans (HbcStat.stepped_train first more trains),
        fun out => (congrArg HbcStat.train stack).trans (HbcStat.stepped_failed out),
        fun more trains failed => List.mem_append_right _ (Bring.mem_hbmRaised r.lanes hk first more trains failed)⟩
    case read =>
      exact ⟨_, exec_memoryBringupStepEnd (State.bringup_read five r step), rfl, rfl, rfl, rfl,
        fun i hi => ⟨vget_ofFn _ _ hi, vget_ofFn _ _ hi⟩⟩
    case train =>
      refine ⟨_, exec_memoryBringupStepEnd ((State.bringup_train five r step).trans (s.ddrTrain_eq r)), rfl, rfl, rfl,
        fun c hc => ⟨List.mem_append_right _ (List.mem_map_of_mem (List.mem_range.mpr hc)),
          fun g verified saved => State.trainedChans_loaded hc verified saved, fun full => ?_⟩⟩
      have full := State.loadedGeo_none full
      refine ⟨State.trainedChans_failed hc full, fun good => ?_⟩
      obtain ⟨train, geo⟩ := State.trainedChans_full hc full good
      refine ⟨train, geo, ?_⟩
      dsimp only
      exact State.trainJournal_last hc full good
    case repair =>
      obtain ⟨cfg, length, keeps, -, -⟩ := s.hpprEach_repairs r.outcomes s.hpprRows.zipIdx
      rw [List.zipIdx_map_fst] at keeps
      exact ⟨_, exec_memoryBringupStepEnd ((State.bringup_repair five r step).trans (s.ddrHppr_eq r.outcomes)), cfg, rfl,
        length, keeps, fun p x listed here => State.hpprEach_row s.hpprRows_once listed here⟩
    case fix =>
      refine ⟨_, exec_memoryBringupStepEnd ((State.bringup_fix five r step).trans s.ddrFix_eq), rfl, rfl, rfl, rfl,
        fun c hc => ?_, fun more => ?_, fun even => ?_⟩
      · have chan := vget_ofFn (fun (i : Fin 12) => b.fixedChan i.val) DdcStat.zero hc
        exact ⟨congrArg DdcStat.idle chan, congrArg DdcStat.dpc2 chan, congrArg DdcStat.speed chan⟩
      · rw [if_pos (b.reduced_iff.mpr more)]
        exact List.mem_append_right _ (List.mem_singleton_self _)
      · refine if_neg fun reduced => ?_
        obtain ⟨c, hc, ranks | ⟨x, hx, dens⟩⟩ := b.reduced_iff.mp reduced
        · exact ranks (even c hc).1
        · exact dens ((even c hc).2 x hx)

end Sys2Proof
end

section
/-! SUPPORT. The pair of devices: how its state is entered, what the loss of the partner decides, and the steps of
failover and takeover (R350, R363 to R367, Tables 13.8 and 13.9). -/
namespace Sys2Proof.Machine

/-! ## Commands of the pair -/

section
variable {s : State} (on : s.on 8 = true)
include on

theorem exec_twinGoodbye : exec .twinGoodbye s = .next (s.after ((s.fab.ctlTaken 4).partnerLost s.cfg)) :=
  congrArg Host.Outcome.next (State.atLink_twin on _)

theorem exec_hbTimeout (en : s.cfg.twinEn = true) : exec .hbTimeout s = .next (s.after (s.fab.partnerLost s.cfg)) :=
  exec_after (congrArg Host.Outcome.next (State.atLink_twin on _)) (if_pos en)

theorem exec_witnessTest (up down : Bool) :
    exec (.witnessTest up down) s = .next (s.after (s.fab.witnessTest s.cfg up down)) :=
  congrArg Host.Outcome.next (State.atLink_twin on _)

theorem exec_witnessWaitExpiry : exec .witnessWaitExpiry s = .next (s.after (s.fab.witnessExpiry s.cfg)) :=
  congrArg Host.Outcome.next (State.atLink_twin on _)

theorem exec_failoverReplayEnd : exec .failoverReplayEnd s = .next (s.after (s.fab.replayEnd s.cfg)) :=
  congrArg Host.Outcome.next (State.atLink_twin on _)

theorem exec_reconcileWaitExpiry : exec .reconcileWaitExpiry s = .next (s.after (s.fab.reconcileExpiry s.cfg)) :=
  congrArg Host.Outcome.next (State.atLink_twin on _)

theorem exec_resendWindowExpiry : exec .resendWindowExpiry s = .next (s.after (s.fab.resendExpiry s.cfg)) :=
  congrArg Host.Outcome.next (State.atLink_twin on _)

theorem exec_stbyWalkEnd : exec .stbyWalkEnd s = .next (s.after s.fab.stbyWalkEnd) :=
  congrArg Host.Outcome.next (State.atLink_twin on _)

end

/-! ## Entering a state of the pair (Table 13.16) -/

/-- The event of a state that is entered; WAITING and ISOLATED have one more. -/
theorem Fabric.setPair_new {f : Fabric} {p : PairState} (new : f.twin.pair ≠ p) : f.setPair p = { f with
    twin := { f.twin with pair := p }
    raised := f.raised ++ (if p = .waiting ∨ p = .isolated then [(32, 0), (38, 0)] else [(32, 0)]) } := by
  rw [Fabric.setPair, if_neg new]
  by_cases two : p = .waiting ∨ p = .isolated
  · simp [two, Fabric.raise, Fabric.modTwin]
  · simp [two, Fabric.raise, Fabric.modTwin]

/-- Entering a state changes the state and the events under way only. -/
theorem Fabric.setPair_frame (f : Fabric) (p : PairState) :
    ∃ rs, f.setPair p = { f with twin := { f.twin with pair := p }, raised := f.raised ++ rs } := by
  by_cases same : f.twin.pair = p
  · refine ⟨[], ?_⟩
    rw [Fabric.setPair, if_pos same, ← same, List.append_nil]
  · exact ⟨_, Fabric.setPair_new same⟩

/-! ## An event message to every agent (R355, Table 13.8) -/

@[simp] theorem Link.send_decl (k : LinkKind) (l : Link) (m : Msg) : (l.send k m).decl = l.decl := by
  unfold Link.send
  split
  · rfl
  · rw [Link.pump_decl]

@[simp] theorem Link.send_st (k : LinkKind) (l : Link) (m : Msg) : (l.send k m).st = l.st := by
  unfold Link.send
  split
  · rfl
  · rw [Link.pump_st]

/-- A message to an agent leaves every declaration. -/
theorem Fabric.send_decl (f : Fabric) {a : Nat} (ha : a < 32) (m : Msg) (b : Nat) :
    ((f.send a m).link b).decl = (f.link b).decl := by
  by_cases same : b = a
  · rw [same, Fabric.send, Fabric.link_modLink f ha, Link.send_decl]
  · rw [Fabric.send, Fabric.modLink, Fabric.link_setLink_other f ha _ same]

/-- Agents have been sent messages in `g`: their links differ, but not what they declared. -/
def Fabric.AgentsTold (f g : Fabric) : Prop := f.SameButLinks g ∧ ∀ b, (g.link b).decl = (f.link b).decl

theorem Fabric.AgentsTold.trans {f g h : Fabric} (fg : f.AgentsTold g) (gh : g.AgentsTold h) : f.AgentsTold h :=
  ⟨fg.1.trans gh.1, fun b => (gh.2 b).trans (fg.2 b)⟩

theorem Fabric.agentsTold_evtIrqAll (f : Fabric) (source count : Nat) : f.AgentsTold (f.evtIrqAll source count) := by
  refine List.foldlRecOn _ _ ⟨.refl f, fun _ => rfl⟩ fun g told a ha => told.trans ?_
  have agent : a < 32 := List.mem_range.mp (List.mem_of_mem_filter ha)
  exact ⟨g.sameButLinks_send agent _, g.send_decl agent _⟩

theorem Fabric.AgentsTold.notTwin {f g : Fabric} (told : f.AgentsTold g) (a : Nat) : g.notTwin a = f.notTwin a := by
  rw [Fabric.notTwin, Fabric.notTwin, told.2]

/-! ## Isolation (Table 13.3) -/

theorem Fabric.link_agent (f : Fabric) {a : Nat} (ha : a < 32) : f.link a = vget f.links (Link.init .disabled) a :=
  if_neg (Nat.ne_of_lt ha)

/-- Where no agent's link carries flits, isolation enters its state and fences nothing. -/
theorem Fabric.isolate_quiet {f : Fabric} (cfg : Cfg) (new : f.twin.pair ≠ .isolated)
    (quiet : ∀ a, a < 32 → (f.link a).st ≠ .active ∧ (f.link a).st ≠ .recovery) : f.isolate cfg = { f with
      twin := { f.twin with pair := .isolated }
      raised := f.raised ++ [(32, 0), (38, 0)] } := by
  have entered := Fabric.setPair_new new
  refine Eq.trans (b := f.setPair .isolated) ?_ entered
  refine List.foldlRecOn (motive := fun g => g = f.setPair .isolated) _ _ rfl fun g same a ha => ?_
  have links : g.link a = f.link a := by rw [same, entered]; rfl
  obtain ⟨idle, settled⟩ := quiet a (List.mem_range.mp ha)
  rw [if_neg (by simp [links, idle, settled]), same]

/-! ## Step 3: failover begins (Table 13.8) -/

/-- Failover has begun in `g`: nothing awaits the partner, every reservation is gone, and memories, transactions and
the Granary are those of `f`. -/
def Fabric.FailsOver (f g : Fabric) : Prop :=
  g.twin = { f.twin with
    pair := .failover
    step := 4
    outstanding := []
    late := []
    tracking := true
    resyncMap := []
    epochAtFail := f.epoch } ∧
  (∀ i, vget g.resv none i = none) ∧ g.tlink.txq = [] ∧ (36, 0) ∈ g.raised ∧ g.txns = f.txns ∧ g.gran = f.gran ∧
  g.mem = f.mem ∧ g.arr = f.arr

theorem vget_replicate {α : Type} (n : Nat) (d : α) (i : Nat) : vget (Vector.replicate n d) d i = d := by
  by_cases h : i < n <;> simp [vget, h]

theorem Fabric.failoverBegin_eq (cfg : Cfg) (f : Fabric) :
    ∃ g, f.failoverBegin cfg = (g.settle cfg).gatesOpen cfg ∧ f.FailsOver g := by
  obtain ⟨rs, entered⟩ := f.setPair_frame .failover
  refine ⟨_, rfl, ?_⟩
  obtain ⟨⟨ls, told⟩, -⟩ := Fabric.agentsTold_evtIrqAll _ 36 1
  rw [told, entered]
  exact ⟨rfl, vget_replicate _ _, rfl, Fabric.mem_raised_raise _ _, rfl, rfl, rfl, rfl⟩

/-! ## The loss of the partner (R363 to R365, R373) -/

/-- The partner's hello is to be heard again before it counts (R462). -/
def Fabric.unheard (f : Fabric) : Fabric := { f with twin := { f.twin with heard := false } }

section
variable {f : Fabric} (cfg : Cfg)

theorem Fabric.partnerLost_hello (pair : f.twin.pair = .hello) : f.partnerLost cfg = { f with
    twin := { f.unheard.twin with pair := .single }
    raised := f.raised ++ [(32, 0)] } := by
  unfold Fabric.partnerLost
  extract_lets g
  have hello : g.twin.pair = .hello := pair
  simp only [hello]
  exact Fabric.setPair_new (by simp [hello])

/-- Until the loss is dealt with, a device that was PAIRED asks WITNESS and PAIR_ROLE who goes on. -/
theorem Fabric.partnerLost_paired (pair : f.twin.pair = .paired) :
    f.partnerLost cfg = if f.twin.step = 0 then f.unheard.authority cfg else f.unheard := by
  unfold Fabric.partnerLost
  extract_lets g
  have paired : g.twin.pair = .paired := pair
  simp only [paired]
  rfl

/-- A device whose copy is not complete may not go on. -/
theorem Fabric.partnerLost_rejoiner (pair : f.twin.pair = .resync) (rejoins : f.twin.rejoiner = true) :
    f.partnerLost cfg = f.unheard.isolate cfg := by
  unfold Fabric.partnerLost
  extract_lets g
  have resync : g.twin.pair = .resync := pair
  simp only [resync]
  exact if_pos rejoins

theorem Fabric.partnerLost_cutOff (pair : f.twin.pair = .resync) (rejoins : f.twin.rejoiner = true)
    (quiet : ∀ a, a < 32 → (f.link a).st ≠ .active ∧ (f.link a).st ≠ .recovery) : f.partnerLost cfg = { f with
      twin := { f.unheard.twin with pair := .isolated }
      raised := f.raised ++ [(32, 0), (38, 0)] } := by
  have new : f.unheard.twin.pair ≠ .isolated := by simp [Fabric.unheard, pair]
  rw [Fabric.partnerLost_rejoiner cfg pair rejoins, Fabric.isolate_quiet (f := f.unheard) cfg new quiet]
  rfl

theorem Fabric.partnerLost_authority (pair : f.twin.pair = .resync) (leads : f.twin.rejoiner = false) :
    f.partnerLost cfg = { f with
      twin := { f.unheard.twin with pair := if f.twin.survived = true then .survivor else .single }
      raised := f.raised ++ [(32, 0)] } := by
  unfold Fabric.partnerLost
  extract_lets g
  have resync : g.twin.pair = .resync := pair
  have leader : ¬ g.twin.rejoiner = true := Bool.eq_false_iff.mp leads
  simp only [resync]
  rw [if_neg leader]
  change g.setPair (if f.twin.survived = true then .survivor else .single) = _
  cases f.twin.survived <;> exact Fabric.setPair_new (by simp [resync])

theorem Fabric.partnerLost_other (hello : f.twin.pair ≠ .hello) (paired : f.twin.pair ≠ .paired) (resync : f.twin.pair ≠ .resync) :
    f.partnerLost cfg = f.unheard := by
  unfold Fabric.partnerLost
  dsimp only [Fabric.modTwin]
  split
  next pair => exact absurd pair paired
  next pair => exact absurd pair resync
  next pair => exact absurd pair hello
  next => rfl

/-! ### Step 2: who goes on (Table 13.8) -/

theorem Fabric.authority_waits (low : f.twin.witness = 1) : f.authority cfg = { f with twin := { f.twin with step := 2 } } := by
  rw [Fabric.authority, if_neg (by simp [low]), if_pos low]
  rfl

theorem Fabric.authority_goesOn (high : f.twin.witness = 2 ∨ f.twin.witness ≠ 1 ∧ f.twin.strap = true) :
    f.authority cfg = f.failoverBegin cfg := by
  unfold Fabric.authority
  split
  · rfl
  next absent =>
    obtain ⟨present, strap⟩ := high.resolve_left absent
    rw [if_neg present, if_pos strap]

theorem Fabric.authority_asks (paired : f.twin.pair = .paired) (low : f.twin.witness ≠ 1) (high : f.twin.witness ≠ 2)
    (second : f.twin.strap = false) : f.authority cfg = { f with
      twin := { f.twin with
        step := 0
        pair := .waiting }
      raised := f.raised ++ [(32, 0), (38, 0)] } := by
  rw [Fabric.authority, if_neg high, if_neg low, if_neg (by simp [second]), Fabric.setPair_new (by simp [Fabric.modTwin, paired])]
  rfl

/-! The loss of the partner of a device that was PAIRED. -/

section
variable (pair : f.twin.pair = .paired)
include pair

theorem Fabric.partnerLost_underWay (step : f.twin.step ≠ 0) : f.partnerLost cfg = f.unheard := by
  rw [Fabric.partnerLost_paired cfg pair, if_neg step]

variable (step : f.twin.step = 0)
include step

theorem Fabric.partnerLost_waits (low : f.twin.witness = 1) :
    f.partnerLost cfg = { f with twin := { f.unheard.twin with step := 2 } } := by
  rw [Fabric.partnerLost_paired cfg pair, if_pos step, Fabric.authority_waits cfg (f := f.unheard) low]
  rfl

theorem Fabric.partnerLost_goesOn (high : f.twin.witness = 2 ∨ f.twin.witness ≠ 1 ∧ f.twin.strap = true) :
    f.partnerLost cfg = f.unheard.failoverBegin cfg := by
  rw [Fabric.partnerLost_paired cfg pair, if_pos step, Fabric.authority_goesOn cfg (f := f.unheard) high]

theorem Fabric.partnerLost_asks (low : f.twin.witness ≠ 1) (high : f.twin.witness ≠ 2) (second : f.twin.strap = false) :
    f.partnerLost cfg = { f with
      twin := { f.unheard.twin with
        step := 0
        pair := .waiting }
      raised := f.raised ++ [(32, 0), (38, 0)] } := by
  rw [Fabric.partnerLost_paired cfg pair, if_pos step, Fabric.authority_asks cfg (f := f.unheard) pair low high second]
  rfl

end

/-! ### The test of WITNESS (R350) -/

theorem witnessOf_eq (up down : Bool) : witnessOf up down = if up = down then (if up = true then 2 else 1) else 0 := by
  simp [witnessOf]

theorem Fabric.witnessTest_goesOn {up down : Bool} (due : witnessOf up down = 2 ∧ (f.twin.step = 2 ∨ f.twin.pair = .waiting)) :
    f.witnessTest cfg up down =
      ({ f with twin := { f.twin with witness := witnessOf up down } } : Fabric).failoverBegin cfg := by
  unfold Fabric.witnessTest
  extract_lets w g
  have due' : (w = 2 ∧ (g.twin.step = 2 ∨ g.twin.pair = .waiting)) := due
  exact if_pos (by simpa only [Bool.and_eq_true, Bool.or_eq_true, decide_eq_true_eq] using due')

theorem Fabric.witnessTest_records {up down : Bool} (none : ¬ (witnessOf up down = 2 ∧ (f.twin.step = 2 ∨ f.twin.pair = .waiting))) :
    f.witnessTest cfg up down = { f with twin := { f.twin with witness := witnessOf up down } } := by
  unfold Fabric.witnessTest
  extract_lets w g
  have none' : ¬ (w = 2 ∧ (g.twin.step = 2 ∨ g.twin.pair = .waiting)) := none
  exact if_neg (by simpa only [Bool.and_eq_true, Bool.or_eq_true, decide_eq_true_eq] using none')

theorem Fabric.witnessExpiry_due (step : f.twin.step = 2) :
    f.witnessExpiry cfg = ({ f with twin := { f.twin with step := 0 } } : Fabric).isolate cfg := if_pos step

/-- Where no agent's link carries flits, the end of the wait enters ISOLATED and fences nothing. -/
theorem Fabric.witnessExpiry_quiet (step : f.twin.step = 2)
    (quiet : ∀ a, a < 32 → (f.link a).st ≠ .active ∧ (f.link a).st ≠ .recovery) (new : f.twin.pair ≠ .isolated) :
    f.witnessExpiry cfg = { f with
      twin := { f.twin with
        step := 0
        pair := .isolated }
      raised := f.raised ++ [(32, 0), (38, 0)] } := by
  have isolated := Fabric.isolate_quiet (f := { f with twin := { f.twin with step := 0 } }) cfg new quiet
  rw [Fabric.witnessExpiry_due cfg step, isolated]

theorem Fabric.witnessExpiry_other (step : f.twin.step ≠ 2) : f.witnessExpiry cfg = f := if_neg step

/-! ## Step 4: the replay (Table 13.8) -/

theorem Fabric.replayEnd_other (step : f.twin.step ≠ 4) : f.replayEnd cfg = f := if_pos step

theorem Fabric.replayEnd_due (step : f.twin.step = 4) :
    f.replayEnd cfg = (applyAll cfg f.twin.backlog.length f).modTwin (fun t => { t with step := 5 }) := if_neg (not_not.mpr step)

theorem Fabric.replayEnd_none (step : f.twin.step = 4) (none : f.twin.backlog = []) :
    f.replayEnd cfg = { f with twin := { f.twin with step := 5 } } := by
  rw [Fabric.replayEnd_due cfg step, none]
  rfl

theorem Fabric.replayEnd_one {r : TRec} (step : f.twin.step = 4) (one : f.twin.backlog = [r]) : f.replayEnd cfg =
    ((({ f with twin := { f.twin with backlog := [] } } : Fabric).applyRec cfg r).settle cfg).modTwin (fun t => { t with step := 5 }) := by
  rw [Fabric.replayEnd_due cfg step, one]
  simp only [List.length_singleton, applyAll, one]
  rfl

/-! ## Steps 5 and 6: takeover (R367, Table 13.9) -/

/-- The holds that the survivor takes over: those of the lines whose home the partner was. -/
def Fabric.partnerHolds (cfg : Cfg) (f : Fabric) : List Hold :=
  (f.gran.entries.filterMap (fun p =>
    if (p.2.st = .e || p.2.st = .m) && (parityH p.2.la != decide (f.twin.role = 2)) then
      (f.gran.agentOf (locSlot p.1)).map (fun a => ⟨sliceOf p.2.la, p.2.la, a⟩)
    else none)).filter (fun h => 0 < cfg.holdTime h.slice)

theorem Fabric.mem_partnerHolds {x : Hold} (hx : x ∈ f.partnerHolds cfg) :
    x.slice = sliceOf x.la ∧ 0 < cfg.holdTime x.slice ∧ parityH x.la ≠ decide (f.twin.role = 2) := by
  obtain ⟨taken, timed⟩ := List.mem_filter.mp hx
  obtain ⟨p, -, here⟩ := List.mem_filterMap.mp taken
  split at here
  next partners =>
    obtain ⟨a, -, rfl⟩ := Option.map_eq_some_iff.mp here
    exact ⟨rfl, of_decide_eq_true timed, by simpa using (Bool.and_eq_true_iff.mp partners).2⟩
  next => cases here

/-- What takeover makes of the pair. -/
def Twin.survives (w : Twin) : Twin := { w with
  pair := .survivor
  step := 7
  role := 3
  failovers := bvSat w.failovers 1
  survived := true
  resendOpen := true
  stbyWalk := true }

/-- A takeover that fences no agent, for each offers twin mode. -/
theorem Fabric.takeover_eq (twins : ∀ a, a < 32 → f.notTwin a = false) : ∃ ls rs, f.takeover cfg = Fabric.settle cfg { f with
    links := ls
    twin := f.twin.survives
    raised := f.raised ++ rs ++ [(37, 0)]
    holds := f.holds ++ f.partnerHolds cfg
    hrw := { f.hrw with descs := f.hrw.descs.map Desc.resume } } := by
  obtain ⟨rs, entered⟩ := f.setPair_frame .survivor
  unfold Fabric.takeover
  extract_lets was paired stepped told fenced other held timed descs old taken
  have steps : stepped = { f with twin := f.twin.survives, raised := f.raised ++ rs } := by
    simp only [stepped, paired, entered]
    rfl
  have twins' : ∀ a, a < 32 → stepped.notTwin a = false := fun a ha => by
    rw [steps]
    exact twins a ha
  have tells := ((stepped.raise 37).agentsTold_evtIrqAll 37 1).trans (Fabric.agentsTold_evtIrqAll _ 32 3)
  have fencesNone : (List.range 32).filter (fun a => told.notTwin a) = [] := by
    refine List.filter_eq_nil_iff.mpr fun a ha => ?_
    rw [tells.notTwin, Bool.not_eq_true]
    exact twins' a (List.mem_range.mp ha)
  obtain ⟨⟨ls, links⟩, -⟩ := tells
  refine ⟨ls, rs, congrArg (Fabric.settle cfg) ?_⟩
  have kept : fenced = { f with links := ls, twin := f.twin.survives, raised := f.raised ++ rs ++ [(37, 0)] } := by
    simp only [fenced, fencesNone, List.foldl_nil]
    rw [show told = _ from links, steps]
    rfl
  simp only [taken, old, timed, held, descs, kept]
  rfl

/-- Without an open transaction of the partner and without a tracker, takeover follows at once. -/
theorem Fabric.twinProgress_clear (step : f.twin.step = 6) (opens : f.twin.opens = []) (txns : f.txns = []) :
    f.twinProgress cfg = f.takeover cfg := by
  have resolved : f.resolveAll cfg = f := if_pos opens
  rw [Fabric.twinProgress, if_neg (not_not.mpr step), resolved]
  exact if_pos (by simp [Fabric.reconciled, opens, txns])

theorem Fabric.reconcileExpiry_clear (step : f.twin.step = 5) (opens : f.twin.opens = []) (txns : f.txns = []) :
    f.reconcileExpiry cfg = ({ f with twin := { f.twin with step := 6 } } : Fabric).takeover cfg := by
  have resolved : (f.modTwin (fun t => { t with step := 6 })).resolveAll cfg = f.modTwin (fun t => { t with step := 6 }) :=
    if_pos opens
  rw [Fabric.reconcileExpiry, if_neg (not_not.mpr step), resolved]
  exact Fabric.twinProgress_clear cfg rfl opens txns

theorem Fabric.reconcileExpiry_other (step : f.twin.step ≠ 5) : f.reconcileExpiry cfg = f := if_pos step

/-! ## Step 7: the resend window and the STBY walk (Tables 13.8 and 13.9) -/

/-- An INTENT to which a holder of the line answered that it holds none. -/
def Txn.ownerGone (t : Txn) : Bool :=
  t.value = 1 && t.snoops.any (fun s => s.op = .snpOwn && (match s.resp with | some (.rspI, _, _) => true | _ => false))

/-- A reconciling transaction is closed as though CompAck had arrived; one whose owner is gone poisons its line. -/
def Txn.windowEnds (t : Txn) : Txn :=
  if t.ownerGone then { t with ackIn := true, todo := t.todo.filter (fun m => m ≠ .ack) ++ poisonP } else { t with ackIn := true }

theorem Fabric.resendExpiry_closed (closed : f.twin.resendOpen = false) : f.resendExpiry cfg = f := if_pos (by simp [closed])

theorem Fabric.resendExpiry_open (opened : f.twin.resendOpen = true) : f.resendExpiry cfg = Fabric.settle cfg { f with
    txns := modAll (fun (t : Txn) => t.op = .reconcile) Txn.windowEnds f.txns
    twin := { f.twin with
      resendOpen := false
      step := if f.twin.stbyWalk = true then 7 else 0 } } := by
  rw [Fabric.resendExpiry, if_neg (by simp [opened])]
  rfl

theorem modAll_none {α : Type} {p : α → Bool} {g : α → α} {l : List α} (none : ∀ x ∈ l, p x = false) : modAll p g l = l :=
  (List.map_congr_left fun x hx => if_neg (by simp [none x hx])).trans (List.map_id' l)

theorem Fabric.resendExpiry_none (opened : f.twin.resendOpen = true) (none : ∀ t ∈ f.txns, t.op ≠ .reconcile) :
    f.resendExpiry cfg = Fabric.settle cfg { f with twin := { f.twin with
      resendOpen := false
      step := if f.twin.stbyWalk = true then 7 else 0 } } := by
  rw [Fabric.resendExpiry_open cfg opened, modAll_none (by simpa using none)]

theorem Fabric.resendExpiry_one {t : Txn} (opened : f.twin.resendOpen = true) (one : f.txns = [t]) (rec : t.op = .reconcile) :
    f.resendExpiry cfg = Fabric.settle cfg { f with
      txns := [t.windowEnds]
      twin := { f.twin with
        resendOpen := false
        step := if f.twin.stbyWalk = true then 7 else 0 } } := by
  rw [Fabric.resendExpiry_open cfg opened, one]
  simp [modAll, rec]

theorem Txn.windowEnds_request {t : Txn} (request : t.value = 0) : t.windowEnds = { t with ackIn := true } :=
  if_neg (by simp [Txn.ownerGone, request])

theorem Txn.windowEnds_gone {t : Txn} {sn : Snoop} {k : Nat} {m : Bool} (intent : t.value = 1) (snoop : t.snoops = [sn])
    (own : sn.op = .snpOwn) (gone : sn.resp = some (.rspI, k, m)) (todo : t.todo = [.ack]) :
    t.windowEnds = { t with ackIn := true, todo := poisonP } := by
  rw [Txn.windowEnds, if_pos (by simp [Txn.ownerGone, intent, snoop, own, gone]), todo]
  rfl

theorem Fabric.stbyWalkEnd_idle (idle : f.twin.stbyWalk = false) : f.stbyWalkEnd = f := if_pos (by simp [idle])

/-- The end of the walk leaves no standby copy. -/
theorem Fabric.stbyWalkEnd_due (walks : f.twin.stbyWalk = true) : f.stbyWalkEnd = { f with
    cache := { f.cache with sectors := f.cache.sectors.map (fun p => (p.1, { p.2 with stby := false })) }
    twin := { f.twin with
      stbyWalk := false
      step := if f.twin.resendOpen = true then 7 else 0 } } := by
  rw [Fabric.stbyWalkEnd, if_neg (by simp [walks])]
  rfl

end

end Sys2Proof.Machine

namespace Sys2Proof
open Machine

/-- Settles O54: what the loss of the partner leads to by the state of the pair, WITNESS and PAIR_ROLE, and what each
step of failover and takeover leaves (R350, R363 to R367). -/
theorem losingThePartnerIsDecided : Obligations.LosingThePartnerIsDecided := by
  unfold Obligations.LosingThePartnerIsDecided
  refine ⟨?_, ?_⟩
  · intro s on en f w goes failsOver quiet lost
    have begins : ∀ (c : Instr) (t : Twin) (tl : Link),
        exec c s = .next (s.after (Fabric.failoverBegin s.cfg { f with tlink := tl, twin := t })) → failsOver c t := by
      intro c t tl run
      obtain ⟨g, eq, begun⟩ := Fabric.failoverBegin_eq s.cfg { f with tlink := tl, twin := t }
      exact ⟨g, exec_after run eq, begun⟩
    refine ⟨fun p lostBy => ?lost, fun up down => ?tested, ?early, ?expired, ?isolated⟩
    case lost =>
      have leaves : exec p.1 s = .next (s.after (p.2.partnerLost s.cfg)) ∧ ∃ tl, p.2 = { f with tlink := tl } := by
        rcases List.mem_pair.mp lostBy with rfl | rfl
        · exact ⟨exec_twinGoodbye on, f.ctlTaken_frame 4⟩
        · exact ⟨exec_hbTimeout on en, f.tlink, rfl⟩
      obtain ⟨c, g⟩ := p
      obtain ⟨run, tl, rfl⟩ := leaves
      intro c twin
      have silent : ∀ t, Fabric.partnerLost s.cfg { f with tlink := tl } = { f with tlink := tl, twin := t } → twin t [] :=
        fun t h => exec_after run (h.trans (by rw [List.append_nil]))
      refine ⟨fun pair => ?hello, fun pair step low => ?waits, fun pair step low high second => ?asks, fun pair step high => ?goesOn,
        fun pair step => ?underWay, fun pair leads => ?leads, fun pair rejoins => ?rejoins,
        fun pair rejoins calm => ?cutOff, fun hello paired resync => ?other⟩
      case hello => exact exec_after run (Fabric.partnerLost_hello s.cfg pair)
      case waits => exact silent _ (Fabric.partnerLost_waits s.cfg pair step low)
      case asks => exact exec_after run (Fabric.partnerLost_asks s.cfg pair step low high second)
      case goesOn => exact begins c lost tl (exec_after run (Fabric.partnerLost_goesOn s.cfg pair step high))
      case underWay => exact silent _ (Fabric.partnerLost_underWay s.cfg pair step)
      case leads => exact exec_after run (Fabric.partnerLost_authority s.cfg pair leads)
      case rejoins => exact exec_after run (Fabric.partnerLost_rejoiner s.cfg pair rejoins)
      case cutOff => exact exec_after run (Fabric.partnerLost_cutOff s.cfg pair rejoins fun a ha => by
        rw [Fabric.link_agent _ ha, ← Fabric.link_agent f ha]
        exact calm a ha)
      case other => exact silent _ (Fabric.partnerLost_other s.cfg hello paired resync)
    case tested =>
      rw [← witnessOf_eq]
      exact ⟨fun due => begins _ _ f.tlink (exec_after (exec_witnessTest on up down) (Fabric.witnessTest_goesOn s.cfg due)),
        fun none => exec_after (exec_witnessTest on up down) (Fabric.witnessTest_records s.cfg none)⟩
    case early => exact fun step => exec_after (exec_witnessWaitExpiry on) (Fabric.witnessExpiry_other s.cfg step)
    case expired => exact fun step => exec_after (exec_witnessWaitExpiry on) (Fabric.witnessExpiry_due s.cfg step)
    case isolated =>
      exact fun step calm new => exec_after (exec_witnessWaitExpiry on) (Fabric.witnessExpiry_quiet s.cfg step calm new)
  · intro s on en f w goes
    refine ⟨fun step => ?otherReplay, fun step none => ?replayed, fun r step one => ?replayedOne, fun step => ?otherWait,
      fun step opens txns twins => ?takeover, fun closed => ?closed, fun opened none => ?windowEnds,
      fun t opened one rec request => ?windowRequest, fun t sn k m opened one rec intent snoop own gone todo => ?windowPoison,
      fun idle => ?noWalk, fun walks => ?walkEnds⟩
    case otherReplay => exact exec_after (exec_failoverReplayEnd on) (Fabric.replayEnd_other s.cfg step)
    case replayed => exact exec_after (exec_failoverReplayEnd on) (Fabric.replayEnd_none s.cfg step none)
    case replayedOne => exact exec_after (exec_failoverReplayEnd on) (Fabric.replayEnd_one s.cfg step one)
    case otherWait => exact exec_after (exec_reconcileWaitExpiry on) (Fabric.reconcileExpiry_other s.cfg step)
    case takeover =>
      obtain ⟨ls, rs, eq⟩ := Fabric.takeover_eq s.cfg (f := { f with twin := { w with step := 6 } }) twins
      refine ⟨_, exec_after (exec_reconcileWaitExpiry on) ((Fabric.reconcileExpiry_clear s.cfg step opens txns).trans eq), ?_⟩
      exact ⟨congrArg (fun o => { w.survives with opens := o }) opens, List.mem_append_right _ (List.mem_singleton.mpr rfl), txns,
        rfl, rfl, ⟨_, rfl, fun x hx => Fabric.mem_partnerHolds s.cfg hx⟩, rfl⟩
    case closed => exact exec_after (exec_resendWindowExpiry on) (Fabric.resendExpiry_closed s.cfg closed)
    case windowEnds => exact exec_after (exec_resendWindowExpiry on) (Fabric.resendExpiry_none s.cfg opened none)
    case windowRequest =>
      exact exec_after (exec_resendWindowExpiry on) (by rw [Fabric.resendExpiry_one s.cfg opened one rec, Txn.windowEnds_request request])
    case windowPoison =>
      exact exec_after (exec_resendWindowExpiry on)
        (by rw [Fabric.resendExpiry_one s.cfg opened one rec, Txn.windowEnds_gone intent snoop own gone todo])
    case noWalk => exact exec_after (exec_stbyWalkEnd on) (Fabric.stbyWalkEnd_idle idle)
    case walkEnds => exact ⟨_, exec_after (exec_stbyWalkEnd on) (Fabric.stbyWalkEnd_due walks), rfl, rfl, rfl⟩

end Sys2Proof
end

section
/-! SUPPORT. Messages of the two devices to each other: hello, heartbeats, time, the agent map, and the end of the copy
(R348, R353, R354, R372, R374, Table 13.4). -/
namespace Sys2Proof.Machine

/-! ## Commands of the control messages -/

section
variable {s : State} (on : s.on 8 = true)
include on

theorem exec_twinHello (h : Hello) :
    exec (.twinHello h) s = .next (s.after ((s.fab.ctlTaken 3).hello s.cfg s.ownHello h)) :=
  congrArg Host.Outcome.next (State.atLink_twin on _)

theorem exec_twinHeartbeat : exec .twinHeartbeat s = .next (s.after (s.fab.heartbeat s.cfg)) :=
  congrArg Host.Outcome.next (State.atLink_twin on _)

theorem exec_timeSyncSend : exec .timeSyncSend s = .next (s.after s.fab.timeSend) :=
  congrArg Host.Outcome.next (State.atLink_twin on _)

theorem exec_timeSyncReceive (t : Word64) (roundTrip : Nat) :
    exec (.timeSyncReceive t roundTrip) s = .next (s.after ((s.fab.ctlTaken 5).timeReceive t roundTrip)) :=
  congrArg Host.Outcome.next (State.atLink_twin on _)

theorem exec_agentMapUpdate (uid : Word64) (a slot sets ways : Nat) (present : Bool) :
    exec (.agentMapUpdate uid a slot sets ways present) s =
      .next (s.after ((s.fab.ctlTaken 6).mapUpdate uid a slot sets ways present)) :=
  congrArg Host.Outcome.next (State.atLink_twin on _)

theorem exec_resyncCopyEnd : exec .resyncCopyEnd s = .next (s.after s.fab.copyEnd) :=
  congrArg Host.Outcome.next (State.atLink_twin on _)

end

/-! ## A control message leaves the receive buffer -/

/-- The twin link of `f.ctlTaken kind` is in the state of that of `f`. -/
theorem Fabric.ctlTaken_keeps (f : Fabric) (kind : Nat) : ∃ tl, f.ctlTaken kind = { f with tlink := tl } ∧ tl.st = f.tlink.st := by
  unfold Fabric.ctlTaken
  split
  · exact ⟨_, rfl, f.fromTwin_st _⟩
  · exact ⟨f.tlink, rfl, rfl⟩

theorem Fabric.ctlTaken_none {f : Fabric} {kind : Nat}
    (none : ∀ m ∈ f.tlink.rxq, ¬ (13 ≤ bitsOf m.hdr.toNat 0 4 ∧ bitsOf m.hdr.toNat 4 4 = kind)) : f.ctlTaken kind = f := by
  have absent : f.tlink.rxq.find? (fun m => 13 ≤ bitsOf m.hdr.toNat 0 4 && bitsOf m.hdr.toNat 4 4 = kind) = Option.none := by
    simpa using none
  rw [Fabric.ctlTaken, absent]

/-! ## Messages to the partner -/

/-- Messages and records for the partner have been handed to the twin link in `g`. -/
def Fabric.Tells (f g : Fabric) : Prop := ∃ tl sent seqs out late,
  g = { f with
    tlink := tl
    twin := { f.twin with
      sentCtl := f.twin.sentCtl ++ sent
      lseq := seqs
      outstanding := out
      late := late } } ∧ tl.st = f.tlink.st

theorem Fabric.Tells.refl (f : Fabric) : f.Tells f := ⟨_, [], _, _, _, by rw [List.append_nil], rfl⟩

theorem Fabric.Tells.trans {f g h : Fabric} (fg : f.Tells g) (gh : g.Tells h) : f.Tells h := by
  obtain ⟨tl, sent, seqs, out, late, rfl, st⟩ := fg
  obtain ⟨tl', sent', seqs', out', late', rfl, st'⟩ := gh
  exact ⟨tl', sent ++ sent', seqs', out', late', by rw [List.append_assoc], st'.trans st⟩

theorem Fabric.Tells.foldl {α : Type} {k : Fabric → α → Fabric} (one : ∀ (f : Fabric) (x : α), f.Tells (k f x)) (f : Fabric)
    (l : List α) : f.Tells (l.foldl k f) :=
  List.foldlRecOn l k (.refl f) fun g tells x _ => tells.trans (one g x)

theorem Fabric.Tells.mirrors {f g : Fabric} (tells : f.Tells g) : g.mirrors = f.mirrors := by
  obtain ⟨_, _, _, _, _, rfl, -⟩ := tells
  rfl

theorem Fabric.tells_sendCtl (f : Fabric) (kind payload : Nat) : f.Tells (f.sendCtl kind payload) :=
  ⟨_, _, _, _, _, rfl, Link.send_st _ _ _⟩

theorem Fabric.tells_logFree (f : Fabric) (r : TRec) : f.Tells (f.logFree r) := by
  unfold Fabric.logFree
  split
  · exact .refl f
  · split
    · exact ⟨_, [], _, _, _, by rw [List.append_nil], rfl⟩
    · exact ⟨_, [], _, _, _, by rw [List.append_nil]; rfl, Link.send_st _ _ _⟩

theorem Fabric.tells_tellMap (f : Fabric) (uid a slot : Nat) (present : Bool) : f.Tells (f.tellMap uid a slot present) := by
  unfold Fabric.tellMap
  split
  · exact .refl f
  · exact (f.tells_sendCtl _ _).trans (Fabric.tells_logFree _ _)

/-! ## Hello (R353, Table 13.4) -/

/-- A device that was alone knows of its partner. -/
def Fabric.leaveSingle (f : Fabric) : Fabric := if f.twin.pair = .single then f.setPair .hello else f

theorem Fabric.leaveSingle_frame (f : Fabric) : ∃ rs, f.leaveSingle = { f with
    twin := { f.twin with pair := if f.twin.pair = .single then .hello else f.twin.pair }
    raised := f.raised ++ rs } := by
  unfold Fabric.leaveSingle
  split
  · exact f.setPair_frame .hello
  · exact ⟨[], by rw [List.append_nil]⟩

/-- An admitted agent is made known to the partner (R354). -/
def Fabric.tellAgent (f : Fabric) (a : Nat) : Fabric :=
  match (f.link a).decl with
  | some d => f.tellMap (dclUid d) a ((f.link a).slot.getD 0xFF) true
  | none => f

theorem Fabric.tells_tellAgent (f : Fabric) (a : Nat) : f.Tells (f.tellAgent a) := by
  unfold Fabric.tellAgent
  split
  · exact f.tells_tellMap _ _ _ _
  · exact .refl f

/-- The twin link of a device that answers a hello. -/
def Link.answering (l : Link) : Link := ((l.freshActive twinGrant twinGrant).enter .active).1

theorem Fabric.greet_other {f : Fabric} (cfg : Cfg) (st : f.tlink.st ≠ .declare) : f.greet cfg = f := if_pos st

theorem Fabric.greet_due {f : Fabric} (cfg : Cfg) (st : f.tlink.st = .declare) : f.greet cfg =
    (List.range 32).foldl Fabric.tellAgent (({ f with tlink := f.tlink.answering } : Fabric).sendCtl 3 0).leaveSingle :=
  (if_neg (not_not.mpr st)).trans rfl

/-- The link of a device that answers a hello is Active, and its own hello and its agents have been sent. -/
theorem Fabric.greet_declare {f : Fabric} (cfg : Cfg) (st : f.tlink.st = .declare) : ∃ tl rs, tl.st = .active ∧
    Fabric.Tells { f with
      tlink := tl
      twin := { f.twin with
        sentCtl := f.twin.sentCtl ++ [(3, 0)]
        pair := if f.twin.pair = .single then .hello else f.twin.pair }
      raised := f.raised ++ rs } (f.greet cfg) := by
  obtain ⟨rs, left⟩ := (({ f with tlink := f.tlink.answering } : Fabric).sendCtl 3 0).leaveSingle_frame
  have told := Fabric.Tells.foldl Fabric.tells_tellAgent
    (({ f with tlink := f.tlink.answering } : Fabric).sendCtl 3 0).leaveSingle (List.range 32)
  rw [Fabric.greet_due cfg st]
  rw [left] at told ⊢
  exact ⟨_, rs, Link.send_st _ _ _, told⟩

/-- The partner's hello is in. -/
def Fabric.met (f : Fabric) (h : Hello) : Fabric := (f.modTwin (fun t => { t with partner := some h, heard := true })).leaveSingle

theorem Fabric.met_frame (f : Fabric) (h : Hello) : ∃ rs, f.met h = { f with
    twin := { f.twin with
      partner := some h
      heard := true
      pair := if f.twin.pair = .single then .hello else f.twin.pair }
    raised := f.raised ++ rs } := Fabric.leaveSingle_frame _

theorem Fabric.met_known {f : Fabric} (known : f.twin.pair ≠ .single) (h : Hello) :
    f.met h = { f with twin := { f.twin with partner := some h, heard := true } } := if_neg known

/-- The arrival of a hello enters no other state than HELLO. -/
theorem Fabric.met_pair_ne {f : Fabric} {p : PairState} (ne : f.twin.pair ≠ p) (other : p ≠ .hello) (h : Hello) :
    (f.met h).twin.pair ≠ p := by
  obtain ⟨rs, met⟩ := f.met_frame h
  rw [met]
  dsimp only
  split
  · exact other.symm
  · exact ne

theorem Fabric.staySingle_frame (f : Fabric) : ∃ rs, f.staySingle = { f with
    twin := { f.twin with pair := if f.twin.pair = .hello then .single else f.twin.pair }
    raised := f.raised ++ rs } := by
  unfold Fabric.staySingle
  split
  · exact f.setPair_frame .single
  · exact ⟨[], by rw [List.append_nil]⟩

/-- The two hellos agree in what Table 13.4 checks, and neither device is the survivor of the other. -/
def Hello.Agrees (own h : Hello) : Prop :=
  own.digest = h.digest ∧ own.fwMajor = h.fwMajor ∧ own.fwMinor = h.fwMinor ∧ own.capGib = h.capGib ∧ own.epoch = h.epoch ∧
    own.time = h.time ∧ own.survived = h.survived

/-- Where the hellos agree, neither device is the authority of a copy. -/
theorem Fabric.authoritative_none {f : Fabric} {own h : Hello} (agrees : own.Agrees h) (kept : f.twin.pair ≠ .isolated) :
    f.authoritative own h = none := by
  obtain ⟨-, -, -, -, epoch, -, survived⟩ := agrees
  simp [Fabric.authoritative, kept, epoch, survived]

section
variable {f : Fabric} (cfg : Cfg) (own h : Hello)

theorem Fabric.hello_off (off : cfg.twinEn = false ∨ (f.tlink.st ≠ .declare ∧ f.tlink.st ≠ .active)) : f.hello cfg own h = f :=
  if_pos (by simpa using off)

variable {cfg own h} (en : cfg.twinEn = true)
include en

/-- A hello within a pair says nothing new. -/
theorem Fabric.hello_paired (st : f.tlink.st = .active) (pair : f.twin.pair = .paired) :
    f.hello cfg own h = { f with twin := { f.twin with partner := some h, heard := true } } := by
  have met := Fabric.met_known (f := f) (by simp [pair]) h
  have paired : (f.met h).twin.pair = .paired := met ▸ pair
  rw [← met]
  unfold Fabric.hello
  rw [if_neg (by simp [en, st]), Fabric.greet_other cfg (by simp [st])]
  exact if_pos (Bool.and_eq_true_iff.mpr ⟨decide_eq_true paired, by simp [st]⟩)

/-- Digests that differ keep the devices from pairing. -/
theorem Fabric.hello_digest (st : f.tlink.st = .active) (unpaired : f.twin.pair ≠ .paired) (differ : own.digest ≠ h.digest) :
    ∃ rs, f.hello cfg own h = { f with
      twin := { f.twin with
        partner := some h
        heard := true
        pair := if f.twin.pair = .hello then .single else f.twin.pair
        disagree := true
        disCode := 1 }
      raised := f.raised ++ rs } ∧ (34, 0) ∈ rs := by
  have unpaired' := Fabric.met_pair_ne unpaired (by simp) h
  have stays : f.hello cfg own h = ((f.met h).disagree 1).staySingle := by
    unfold Fabric.hello
    rw [if_neg (by simp [en, st]), Fabric.greet_other cfg (by simp [st])]
    exact (if_neg (fun both => unpaired' (of_decide_eq_true (Bool.and_eq_true_iff.mp both).1))).trans (if_pos differ)
  obtain ⟨rs, met⟩ := f.met_frame h
  obtain ⟨rs', single⟩ := ((f.met h).disagree 1).staySingle_frame
  refine ⟨rs ++ [(34, 0)] ++ rs', ?_, by simp⟩
  rw [stays, single, met]
  cases f.twin.pair <;> simp [Fabric.disagree, Fabric.modTwin, Fabric.raise]

/-- Hellos that agree give the roles, and a joint drain is due. -/
theorem Fabric.hello_agrees {primary : Bool} (up : f.tlink.st = .declare ∨ f.tlink.st = .active)
    (new : f.tlink.st = .declare ∨ ((f.greet cfg).met h).twin.pair ≠ .paired)
    (kept : ((f.greet cfg).met h).twin.pair ≠ .isolated) (agrees : own.Agrees h) (role : helloRole own h = some primary) :
    f.hello cfg own h = ((f.greet cfg).met h).modTwin (fun t => { t with
      role := if t.role = 3 then 3 else if primary = true then 1 else 2
      wantDrain := true }) := by
  obtain ⟨digest, major, minor, cap, epoch, time, -⟩ := id agrees
  unfold Fabric.hello
  rw [if_neg (by simpa [en, or_iff_not_imp_left] using up)]
  extract_lets fresh told met role' inEpoch off late onTime
  have inTime : ¬ 1 < off := by simp [off, time]
  have same : onTime = met := (if_neg inTime).trans (if_neg (not_not.mpr epoch))
  have role'' : role' = some primary := role
  have none := Fabric.authoritative_none (f := met.modTwin (fun t => { t with
    role := if t.role = 3 then 3 else if primary = true then 1 else 2 })) agrees kept
  refine (if_neg fun both => ?due).trans ((if_neg (not_not.mpr digest)).trans
    ((if_neg (by simp [major, minor])).trans ((if_neg (not_not.mpr cap)).trans ?joins)))
  case due =>
    obtain ⟨paired, old⟩ := Bool.and_eq_true_iff.mp both
    rcases new with st | unpaired
    · simp [fresh, st] at old
    · exact unpaired (of_decide_eq_true paired)
  case joins =>
    rw [same, role'']
    dsimp only
    rw [if_pos (Bool.or_eq_true_iff.mpr (.inr (Option.isNone_iff_eq_none.mpr none))), Fabric.joinBy, none]
    rfl

section
variable {primary : Bool} (kept : f.twin.pair ≠ .isolated) (agrees : own.Agrees h) (role : helloRole own h = some primary)
include kept agrees role

/-- On an Active link a hello that agrees is not answered. -/
theorem Fabric.hello_joins (st : f.tlink.st = .active) (unpaired : f.twin.pair ≠ .paired) : ∃ rs, f.hello cfg own h = { f with
    twin := { f.twin with
      partner := some h
      heard := true
      pair := if f.twin.pair = .single then .hello else f.twin.pair
      role := if f.twin.role = 3 then 3 else if primary = true then 1 else 2
      wantDrain := true }
    raised := f.raised ++ rs } := by
  have silent := Fabric.greet_other (f := f) cfg (by simp [st])
  obtain ⟨rs, met⟩ := f.met_frame h
  refine ⟨rs, ?_⟩
  rw [Fabric.hello_agrees en (.inr st) (.inr ?_) ?_ agrees role, silent, met]
  · rfl
  · rw [silent]
    exact Fabric.met_pair_ne unpaired (by simp) h
  · rw [silent]
    exact Fabric.met_pair_ne kept (by simp) h

/-- On a link in Declare it is answered, and the link is Active. -/
theorem Fabric.hello_answers (st : f.tlink.st = .declare) : ∃ tl sent seqs out late rs, tl.st = .active ∧
    f.hello cfg own h = { f with
    tlink := tl
    twin := { f.twin with
      sentCtl := f.twin.sentCtl ++ [(3, 0)] ++ sent
      lseq := seqs
      outstanding := out
      late := late
      partner := some h
      heard := true
      pair := if f.twin.pair = .single then .hello else f.twin.pair
      role := if f.twin.role = 3 then 3 else if primary = true then 1 else 2
      wantDrain := true }
    raised := f.raised ++ rs } := by
  obtain ⟨tl, rs, active, tl', sent, seqs, out, late, greeted, link⟩ := f.greet_declare cfg st
  obtain ⟨rs', met⟩ := (f.greet cfg).met_frame h
  refine ⟨tl', sent, seqs, out, late, rs ++ rs', link.trans active, ?_⟩
  rw [Fabric.hello_agrees en (.inl st) (.inl st) ?_ agrees role, met, greeted]
  · by_cases single : f.twin.pair = .single <;> simp [Fabric.modTwin, single]
  · refine Fabric.met_pair_ne ?_ (by simp) h
    rw [greeted]
    dsimp only
    split
    · simp
    · exact kept

end

end

/-! ## Heartbeats and time (R348, R374) -/

section
variable {f : Fabric}

theorem Fabric.heartbeat_active {cfg : Cfg} (en : cfg.twinEn = true) (st : f.tlink.st = .active) :
    f.heartbeat cfg = f.sendCtl 2 0 := if_pos (by simp [en, st])

theorem Fabric.heartbeat_off {cfg : Cfg} (off : cfg.twinEn = false ∨ f.tlink.st ≠ .active) : f.heartbeat cfg = f :=
  if_neg (by simpa [or_iff_not_imp_left] using off)

theorem Fabric.timeSend_primary (primary : f.twin.role = 1 ∨ f.twin.role = 3) (st : f.tlink.st = .active) :
    f.timeSend = f.sendCtl 5 f.time.toNat := if_pos (by simpa [Fabric.primary, st] using primary)

theorem Fabric.timeSend_off (off : (f.twin.role ≠ 1 ∧ f.twin.role ≠ 3) ∨ f.tlink.st ≠ .active) : f.timeSend = f := by
  refine if_neg fun both => ?_
  obtain ⟨primary, st⟩ := Bool.and_eq_true_iff.mp both
  rcases off with ⟨first, survivor⟩ | idle
  · simp only [Fabric.primary, Bool.or_eq_true, decide_eq_true_eq] at primary
    exact primary.elim first survivor
  · exact idle (of_decide_eq_true st)

theorem Fabric.timeReceive_other (role : f.twin.role ≠ 2) (t : Word64) (roundTrip : Nat) : f.timeReceive t roundTrip = f := if_pos role

theorem Fabric.timeReceive_slews {t : Word64} {roundTrip : Nat} (role : f.twin.role = 2)
    (near : t.toNat + roundTrip / 2 ≤ f.time.toNat + 1 ∧ f.time.toNat ≤ t.toNat + roundTrip / 2 + 1) :
    f.timeReceive t roundTrip = f := by
  rw [Fabric.timeReceive, if_neg (not_not.mpr role)]
  exact if_pos (by omega)

theorem Fabric.timeReceive_steps {t : Word64} {roundTrip : Nat} (role : f.twin.role = 2)
    (far : f.time.toNat + 1 < t.toNat + roundTrip / 2 ∨ t.toNat + roundTrip / 2 + 1 < f.time.toNat) :
    f.timeReceive t roundTrip = f.timeStep (BitVec.ofNat 64 (t.toNat + roundTrip / 2)) := by
  rw [Fabric.timeReceive, if_neg (not_not.mpr role)]
  exact if_neg (by omega)

/-! ## The agent map (R354) -/

/-- The credits that a link withholds until the partner has its agent are released. -/
def Link.release (uid : Word64) (l : Link) : Link :=
  match l.decl with
  | some d => if dclUid d = uid.toNat then Link.pump portKind { l with withhold := false } else l
  | none => l

theorem Link.release_same {uid : Word64} {l : Link} {d : Line} (decl : l.decl = some d) (same : dclUid d = uid.toNat) :
    l.release uid = Link.pump portKind { l with withhold := false } := by
  rw [Link.release, decl]
  exact if_pos same

theorem Link.release_other {uid : Word64} {l : Link} (other : ∀ d, l.decl = some d → dclUid d ≠ uid.toNat) : l.release uid = l := by
  unfold Link.release
  split
  next d decl => exact if_neg (other d decl)
  next => rfl

/-- The agent map after the partner's word on one agent. -/
def Twin.mapped (w : Twin) (uid : Word64) (a slot sets ways : Nat) (present : Bool) : Twin :=
  { w with agentMap := if present then w.agentMap.filter (fun m => m.1 ≠ uid) ++ [(uid, a, slot, sets, ways)]
    else w.agentMap.filter (fun m => m.1 ≠ uid) }

theorem Fabric.mapUpdate_stores {present : Bool} (holds : present = false ∨ f.draining = true) (uid : Word64) (a slot sets ways : Nat) :
    f.mapUpdate uid a slot sets ways present = { f with twin := f.twin.mapped uid a slot sets ways present } :=
  if_pos (Bool.or_eq_true_iff.mpr (holds.imp (fun absent => by simp [absent]) id))

theorem Fabric.mapUpdate_releases (calm : f.draining = false) (uid : Word64) (a slot sets ways : Nat) :
    f.mapUpdate uid a slot sets ways true = (List.range 32).foldl (fun f b => f.modLink b (Link.release uid))
      { f with twin := f.twin.mapped uid a slot sets ways true } := by
  refine (if_neg (show ¬ _ from Bool.eq_false_iff.mp calm)).trans (List.foldl_ext _ _ _ fun g b _ => ?_)
  have kept : (∀ d, (g.link b).decl = some d → dclUid d ≠ uid.toNat) → g = g.modLink b (Link.release uid) := fun other => by
    rw [Fabric.modLink, Link.release_other other, g.setLink_link b]
  cases decl : (g.link b).decl with
  | none => exact kept (by simp [decl])
  | some d =>
    dsimp only
    split
    next same => rw [Fabric.modLink, Fabric.modLink, Link.release_same decl same]
    next other => exact kept (by simpa [decl] using other)

/-- One change of each agent's link in turn is the change of every one. -/
theorem Fabric.foldl_modLink (k : Link → Link) : ∀ (l : List Nat) (f : Fabric), (∀ a ∈ l, a < 32) → l.Nodup →
    f.SameButLinks (l.foldl (fun f b => f.modLink b k) f) ∧
      ∀ b, (l.foldl (fun f b => f.modLink b k) f).link b = if b ∈ l then k (f.link b) else f.link b
  | [], f, _, _ => ⟨.refl f, fun b => (if_neg List.not_mem_nil).symm⟩
  | a :: l, f, agents, once => by
    obtain ⟨first, once⟩ := List.nodup_cons.mp once
    have ha := agents a List.mem_cons_self
    obtain ⟨same, links⟩ := Fabric.foldl_modLink k l (f.modLink a k) (fun b hb => agents b (List.mem_cons_of_mem a hb)) once
    refine ⟨(f.sameButLinks_modLink ha k).trans same, fun b => (links b).trans ?_⟩
    by_cases here : b = a
    · rw [here, if_neg first, if_pos List.mem_cons_self, Fabric.link_modLink f ha]
    · have other : (f.modLink a k).link b = f.link b := f.link_setLink_other ha _ here
      simp [here, other]

/-- The map is stored, and every agent's link gives what it withheld for that agent. -/
theorem Fabric.mapUpdate_present (calm : f.draining = false) (uid : Word64) (a slot sets ways : Nat) :
    Fabric.SameButLinks { f with twin := f.twin.mapped uid a slot sets ways true } (f.mapUpdate uid a slot sets ways true) ∧
      ∀ b, b < 32 → (f.mapUpdate uid a slot sets ways true).link b = (f.link b).release uid := by
  obtain ⟨same, links⟩ := Fabric.foldl_modLink (Link.release uid) (List.range 32)
    { f with twin := f.twin.mapped uid a slot sets ways true } (fun b => List.mem_range.mp) List.nodup_range
  rw [Fabric.mapUpdate_releases calm]
  exact ⟨same, fun b hb => (links b).trans (if_pos (List.mem_range.mpr hb))⟩

end

/-! ## The end of the copy (R372) -/

/-- A record without a gate is outstanding, or waits for a free place. -/
theorem Fabric.logFree_counts {f : Fabric} (mirrors : f.mirrors = true) (r : TRec) :
    (f.logFree r).twin.outstanding.length + (f.logFree r).twin.late.length =
      f.twin.outstanding.length + f.twin.late.length + 1 := by
  rw [Fabric.logFree, if_neg (by simp [mirrors])]
  split
  · simp [Nat.add_assoc]
  · simp only [Fabric.logRec, Fabric.toTwin, List.length_append, List.length_singleton]
    omega

theorem Fabric.foldl_logFree_counts : ∀ (l : List TRec) {f : Fabric}, f.mirrors = true →
    (l.foldl Fabric.logFree f).twin.outstanding.length + (l.foldl Fabric.logFree f).twin.late.length =
      f.twin.outstanding.length + f.twin.late.length + l.length
  | [], _, _ => rfl
  | r :: l, f, mirrors => by
    have ih := Fabric.foldl_logFree_counts l ((f.tells_logFree r).mirrors.trans mirrors)
    have one := f.logFree_counts mirrors r
    rw [List.foldl_cons, List.length_cons]
    omega

/-- A tenth of the copy lies between two percentages. -/
def tenthPassed (old new k : Nat) : Bool := old < 10 * (k + 1) && 10 * (k + 1) ≤ new

/-- Every tenth that has passed raises the event. -/
theorem Fabric.foldl_raiseTenths (old new : Nat) : ∀ (l : List Nat) (f : Fabric),
    l.foldl (fun f k => if tenthPassed old new k then f.raise 39 else f) f =
      { f with raised := f.raised ++ List.replicate (l.countP (tenthPassed old new)) (39, 0) }
  | [], f => by simp
  | k :: l, f => by
    rw [List.foldl_cons, Fabric.foldl_raiseTenths old new l, List.countP_cons]
    by_cases passed : tenthPassed old new k = true
    · rw [if_pos passed, if_pos passed, List.replicate_succ]
      simp [Fabric.raise]
    · rw [if_neg passed, if_neg passed]
      rfl

/-- The records of the copy: the authority alone sends them. -/
def Fabric.copySent (f : Fabric) : List TRec := if f.twin.rejoiner = true then [] else f.copyItems

theorem Fabric.length_copySent (f : Fabric) : f.copySent.length = if f.twin.rejoiner = true then 0 else f.copyItems.length := by
  unfold Fabric.copySent
  split <;> rfl

theorem Fabric.copyEnd_other {f : Fabric} (other : f.twin.pair ≠ .resync) : f.copyEnd = f := if_pos other

theorem Fabric.copyEnd_resync {f : Fabric} (resync : f.twin.pair = .resync) : ∃ g, f.copyEnd = g ∧
    g.raised = f.raised ++ List.replicate ((List.range 10).countP (tenthPassed f.twin.percent.toNat 100)) (39, 0) ∧
    g.twin.percent = 100 ∧ g.twin.wantDrain = true ∧ g.twin.sentCopy = f.twin.sentCopy ++ f.copySent ∧
    g.twin.outstanding.length + g.twin.late.length = f.twin.outstanding.length + f.twin.late.length + f.copySent.length ∧
    g.links = f.links ∧ g.txns = f.txns ∧ g.mem = f.mem := by
  have counts : (f.copySent.foldl Fabric.logFree f).twin.outstanding.length + (f.copySent.foldl Fabric.logFree f).twin.late.length =
      f.twin.outstanding.length + f.twin.late.length + f.copySent.length := by
    cases rejoins : f.twin.rejoiner with
    | true => simp [Fabric.copySent, rejoins]
    | false => exact Fabric.foldl_logFree_counts _ (by simp [Fabric.mirrors, resync, rejoins])
  obtain ⟨tl, sent, seqs, out, late, told, -⟩ := Fabric.Tells.foldl Fabric.tells_logFree f f.copySent
  rw [told] at counts
  have ended : f.copyEnd = Fabric.passTenths ((f.copySent.foldl Fabric.logFree f).modTwin (fun t => { t with
      percent := 100
      wantDrain := true
      sentCopy := t.sentCopy ++ f.copySent })) f.twin.percent.toNat 100 := if_neg (not_not.mpr resync)
  rw [ended, told]
  exact ⟨_, Fabric.foldl_raiseTenths _ _ _ _, rfl, rfl, rfl, rfl, counts, rfl, rfl, rfl⟩

end Sys2Proof.Machine

namespace Sys2Proof
open Machine

/-- Settles O53: what hellos, heartbeats, the time, the agent map and the end of the copy do to the pair and its links
(R348, R353, R354, R357, R372, R374). -/
theorem theTwinGreetsAndKeepsTime : Obligations.TheTwinGreetsAndKeepsTime := by
  unfold Obligations.TheTwinGreetsAndKeepsTime
  intro s on f goes tells agree
  obtain ⟨tl, eq, link⟩ := f.ctlTaken_keeps 3
  have run : ∀ h, exec (.twinHello h) s = .next (s.after (Fabric.hello s.cfg { f with tlink := tl } s.ownHello h)) :=
    fun h => exec_after (exec_twinHello on h) (congrArg (fun g => Fabric.hello s.cfg g s.ownHello h) eq)
  refine ⟨fun h primary en st unpaired kept agrees role => ?agreed, fun h primary en st kept agrees role => ?answered,
    fun h en st paired => ?again, fun h en st unpaired differ => ?differs, fun h off => ?noHello, fun en st => ?beats,
    fun off => ?noBeat, fun primary st => ?sends, fun off => ?sendsNot, fun t rt role near => ?slews, fun t rt role far => ?steps,
    fun t rt role => ?noSecondary, fun k => ?taken, fun uid a slot sets ways => ?leaves, fun uid a slot sets ways drains => ?stored,
    fun uid a slot sets ways calm => ?released, fun other => ?noCopy, fun resync => ?copied⟩
  case agreed =>
    obtain ⟨rs, joins⟩ := Fabric.hello_joins (f := { f with tlink := tl }) en kept agrees role (link.trans st) unpaired
    exact ⟨_, exec_after (run h) joins, rfl, rfl, by rw [eq], rfl, rfl⟩
  case answered =>
    obtain ⟨tl', sent, seqs, out, late, rs, active, answers⟩ :=
      Fabric.hello_answers (f := { f with tlink := tl }) en kept agrees role (link.trans st)
    exact ⟨_, exec_after (run h) answers, active, List.take_left' (by simp), rfl, rfl, rfl, rfl, rfl, rfl, rfl, rfl⟩
  case again =>
    exact exec_after (run h) ((Fabric.hello_paired (f := { f with tlink := tl }) en (link.trans st) paired).trans (by rw [eq]))
  case differs =>
    obtain ⟨rs, stays, told⟩ := Fabric.hello_digest (f := { f with tlink := tl }) en (link.trans st) unpaired differ
    exact ⟨_, exec_after (run h) stays, rfl, List.mem_append_right _ told, rfl, by rw [eq], rfl⟩
  case noHello =>
    exact exec_after (exec_twinHello on h) (Fabric.hello_off s.cfg s.ownHello h (by rwa [eq, link]))
  case beats => exact exec_after (exec_twinHeartbeat on) (Fabric.heartbeat_active en st)
  case noBeat => exact exec_after (exec_twinHeartbeat on) (Fabric.heartbeat_off off)
  case sends => exact exec_after (exec_timeSyncSend on) (Fabric.timeSend_primary primary st)
  case sendsNot => exact exec_after (exec_timeSyncSend on) (Fabric.timeSend_off off)
  case slews =>
    obtain ⟨tl, eq, -⟩ := f.ctlTaken_keeps 5
    exact exec_after (exec_timeSyncReceive on t rt) (Fabric.timeReceive_slews (by rwa [eq]) (by rwa [eq]))
  case steps =>
    obtain ⟨tl, eq, -⟩ := f.ctlTaken_keeps 5
    refine exec_after (exec_timeSyncReceive on t rt) ((Fabric.timeReceive_steps (by rwa [eq]) (by rwa [eq])).trans ?_)
    rw [eq]
    rfl
  case noSecondary =>
    obtain ⟨tl, eq, -⟩ := f.ctlTaken_keeps 5
    exact exec_after (exec_timeSyncReceive on t rt) (Fabric.timeReceive_other (by rwa [eq]) t rt)
  case taken =>
    obtain ⟨tl, eq, -⟩ := f.ctlTaken_keeps k
    exact ⟨by rw [eq], by rw [eq], by rw [eq], Fabric.ctlTaken_none⟩
  case leaves =>
    obtain ⟨tl, eq, -⟩ := f.ctlTaken_keeps 6
    exact exec_after (exec_agentMapUpdate on uid a slot sets ways false)
      ((Fabric.mapUpdate_stores (.inl rfl) uid a slot sets ways).trans (by rw [eq]; rfl))
  case stored =>
    obtain ⟨tl, eq, -⟩ := f.ctlTaken_keeps 6
    exact exec_after (exec_agentMapUpdate on uid a slot sets ways true)
      ((Fabric.mapUpdate_stores (.inr (by rwa [eq])) uid a slot sets ways).trans (by rw [eq]; rfl))
  case released =>
    obtain ⟨tl', eq', -⟩ := f.ctlTaken_keeps 6
    have calm' : (f.ctlTaken 6).draining = false := by rwa [eq']
    obtain ⟨same, links⟩ := Fabric.mapUpdate_present calm' uid a slot sets ways
    have link' : ∀ b, b < 32 → (f.ctlTaken 6).link b = f.link b := fun b hb => by
      rw [eq', Fabric.link_agent _ hb, ← Fabric.link_agent f hb]
    refine ⟨_, exec_agentMapUpdate on uid a slot sets ways true, same.twin.trans ?_, fun b d hb decl uidOf => ?_, fun b hb other => ?_,
      same.txns.trans (by rw [eq']), same.mem.trans (by rw [eq']), same.gran.trans (by rw [eq'])⟩
    · rw [eq']
      rfl
    · exact (links b hb).trans (by rw [link' b hb, Link.release_same decl uidOf])
    · exact (links b hb).trans (by rw [link' b hb, Link.release_other other])
  case noCopy => exact exec_after (exec_resyncCopyEnd on) (Fabric.copyEnd_other other)
  case copied =>
    obtain ⟨g, ended, raised, percent, drain, sent, counts, rest⟩ := Fabric.copyEnd_resync resync
    rw [Fabric.length_copySent] at counts
    refine ⟨g, _, exec_after (exec_resyncCopyEnd on) ended, raised, fun zero => ?_, percent, drain, sent, counts, rest⟩
    rw [zero]
    decide

end Sys2Proof
end

section
/-! SUPPORT. What follows a command of the Weighbridge in the device: its events are raised, the frames of the taps stay
under way, and a mailbox changes only where its long command may complete (R378, R383, R476). -/
namespace Sys2Proof.Machine

/-! ## Completions and drains beside the Weighbridge -/

/-- Between two states only mailboxes of `ms` have changed, no event was lost, and the frames of the taps are the same. -/
def State.Completes (ms : Set Nat) (s t : State) : Prop :=
  t.fab.taps = s.fab.taps ∧ s.fab.raised ⊆ t.fab.raised ∧ ∀ m, m ∉ ms → t.stw.mb m = s.stw.mb m

section
variable {ms : Set Nat} {s t u : State}

theorem State.Completes.refl (ms : Set Nat) (s : State) : s.Completes ms s := ⟨rfl, fun _ => id, fun _ _ => rfl⟩

theorem State.Completes.trans (st : s.Completes ms t) (tu : t.Completes ms u) : s.Completes ms u := by
  obtain ⟨taps, raised, mailboxes⟩ := st
  obtain ⟨taps', raised', mailboxes'⟩ := tu
  exact ⟨taps'.trans taps, fun _ h => raised' (raised h), fun m hm => (mailboxes' m hm).trans (mailboxes m hm)⟩

/-- A change that touches neither the taps nor the events nor any mailbox. -/
theorem State.Completes.of_same (ms : Set Nat) (taps : t.fab.taps = s.fab.taps) (raised : t.fab.raised = s.fab.raised)
    (mailboxes : t.stw.mbox = s.stw.mbox) : s.Completes ms t :=
  ⟨taps, fun _ h => by rwa [raised], fun m _ => by rw [Stw.mb, mailboxes]; rfl⟩

theorem State.completes_answer (s : State) {m : Nat} (hm : m ∈ ms) (st : Nat) (resp : List Nat) :
    s.Completes ms (s.answer m st resp) := by
  have other : ∀ g, ∀ k, k ∉ ms → (s.modMb m g).stw.mb k = s.stw.mb k :=
    fun g k hk => s.modMb_mb_other m k g fun e => hk (e ▸ hm)
  unfold State.answer
  dsimp only
  split
  · exact ⟨rfl, fun _ => id, fun k hk => other _ k hk⟩
  · split
    · refine ⟨by rw [State.alert_fab]; rfl, fun _ h => by rw [State.alert_fab]; exact h, fun k hk => ?_⟩
      rw [State.alert_stw]
      exact other _ k hk
    · exact ⟨rfl, fun _ h => List.mem_append_left _ h, fun k hk => other _ k hk⟩

theorem State.completes_complete (s : State) {m : Nat} (hm : m ∈ ms) (st : Nat) (resp : List Nat) :
    s.Completes ms (s.complete m st resp) := by
  obtain ⟨w, eq, -, mailboxes, -⟩ := s.complete_eq m st resp
  rw [eq]
  exact (State.Completes.of_same (s := s) (t := { s with stw := w }) ms rfl rfl mailboxes).trans (State.completes_answer _ hm _ _)

theorem State.completes_longOne (s : State) {m : Nat} (hm : m ∈ ms) (l : Long) : s.Completes ms (s.longOne m l) := by
  have waits : ∀ (c : Prop) [Decidable c] (st : Nat) (resp : List Nat), s.Completes ms (if c then s else s.complete m st resp) :=
    fun c _ st resp => by split; exacts [.refl ms s, s.completes_complete hm st resp]
  have due : ∀ (c : Prop) [Decidable c] (st : Nat) (resp : List Nat), s.Completes ms (if c then s.complete m st resp else s) :=
    fun c _ st resp => by split; exacts [s.completes_complete hm st resp, .refl ms s]
  cases l with
  | lock tk unlock =>
    dsimp only [State.longOne]
    split
    next => exact .refl ms s
    next => exact s.completes_complete hm _ _
  | submit tk => exact waits _ _ _
  | abort tk => exact due _ _ _
  | drain => exact .refl ms s
  | port links => exact due _ _ _
  | takeover => exact due _ _ _
  | short ino => exact due _ _ _

end

/-- The mailboxes whose long command is over, or may be: all but those that wait for the end of the open interval. -/
def State.mayComplete (s : State) : Set Nat := {m | ∃ l, (m, l) ∈ s.stw.longs ∧ l ≠ .short s.wgb.cur.ino}

theorem State.mem_mayComplete (s : State) {m : Nat} :
    m ∈ s.mayComplete ↔ ∃ l, (m, l) ∈ s.stw.longs ∧ l ≠ .short s.wgb.cur.ino := Iff.rfl

theorem State.completes_longAll (s : State) : s.Completes s.mayComplete s.longAll := by
  have each : ∀ (longs : List (Nat × Long)) (t : State), (∀ p ∈ longs, p ∈ s.stw.longs) → t.wgb = s.wgb →
      s.Completes s.mayComplete t → s.Completes s.mayComplete (longs.foldl (fun s p => s.longOne p.1 p.2) t) := by
    intro longs
    induction longs with
    | nil => exact fun _ _ _ done => done
    | cons p longs ih =>
      intro t sub wgb done
      obtain ⟨m, l⟩ := p
      have here : t.Completes s.mayComplete (t.longOne m l) := by
        by_cases open_ : l = .short s.wgb.cur.ino
        · have waits : t.longOne m l = t := by
            rw [open_]
            exact if_neg (by simp [wgb])
          rw [waits]
          exact .refl _ t
        · exact t.completes_longOne (s.mem_mayComplete.mpr ⟨l, sub _ List.mem_cons_self, open_⟩) l
      obtain ⟨-, -, -, kept, -⟩ := State.longOne_rest t m l
      exact ih _ (fun p hp => sub p (List.mem_cons_of_mem _ hp)) (kept.trans wgb) (done.trans here)
  exact each _ s (fun _ => id) rfl (.refl _ s)

theorem Fabric.evtIrqAll_taps (f : Fabric) (source count : Nat) : (f.evtIrqAll source count).taps = f.taps :=
  (f.evtIrqAll_frame source count).elim fun _ ⟨_, h⟩ => h ▸ rfl

theorem Fabric.logFree_taps (f : Fabric) (r : TRec) : (f.logFree r).taps = f.taps :=
  (f.logFree_frame r).elim fun _ ⟨_, h⟩ => h ▸ rfl

/-- A drain that begins keeps every mailbox, every event and the frames under way (R328). -/
theorem State.completes_step1 (ms : Set Nat) (s : State) : s.Completes ms s.step1 := by
  have parted : ∀ (c : Prop) [Decidable c] (f : Fabric), (if c then f.sendCtl 4 0 else f).taps = f.taps ∧
      (if c then f.sendCtl 4 0 else f).raised = f.raised := fun c _ f => by split <;> exact ⟨rfl, rfl⟩
  refine ⟨?_, fun e he => ?_, fun _ _ => rfl⟩ <;> unfold State.step1 State.tellPartner <;> dsimp only
  · rw [Fabric.logFree_taps, (parted _ _).1]
    exact Fabric.evtIrqAll_taps _ _ _
  · rw [Fabric.logFree_raised, (parted _ _).2]
    dsimp only
    rw [Fabric.evtIrqAll_raised]
    exact List.mem_append_left _ he

/-- A drain of the Steward's own begins, waits, or is not possible at the last epoch number; it completes no command. -/
theorem State.completes_askDrain (ms : Set Nat) (s : State) {by_ : DrainBy} (own : by_ = .cacheOff ∨ by_ = .joint) :
    s.Completes ms (s.askDrain by_ 0) := by
  have begins : ∀ v, s.Completes ms ((s.modStw (fun w => { w with staged := v })).runDrain by_ 0) := fun v =>
    State.Completes.trans (t := (s.modStw (fun w => { w with staged := v })).modStw
      (fun w => { w with by_ := by_, opts := 0, joint := decide (by_ = .joint) })) (.of_same ms rfl rfl rfl)
      (State.completes_step1 ms _)
  have begun : s.Completes ms (s.beginDrain by_ 0) := by
    unfold State.beginDrain
    rcases own with rfl | rfl <;> dsimp only
    all_goals
      split
      · exact .refl ms s
      · split
        · exact .refl ms s
        · exact begins _
  unfold State.askDrain
  split
  · exact .of_same ms rfl rfl rfl
  · exact begun

theorem State.completes_ownDrains (ms : Set Nat) (s : State) : s.Completes ms s.ownDrains := by
  unfold State.ownDrains
  split
  · exact .refl ms s
  · extract_lets off
    have cacheOff : s.Completes ms off := by
      unfold off
      split
      · exact s.completes_askDrain ms (.inl rfl)
      · exact .refl ms s
    split
    · refine cacheOff.trans (State.Completes.trans (.of_same ms ?_ ?_ ?_) (State.completes_askDrain ms _ (.inr rfl))) <;> rfl
    · exact cacheOff

/-- The Steward with another journal. -/
theorem State.journalFabric_frame (s : State) : ∃ j, s.journalFabric = { s with
    stw := { s.stw with jrnl := j }, fab := { s.fab with jreq := [], gln := { s.fab.gln with elogOut := [] } } } := by
  have logs : ∀ {α : Type} (k : Stw → α → Stw), (∀ w x, ∃ j, k w x = { w with jrnl := j }) →
      ∀ (l : List α) (w : Stw), ∃ j, l.foldl k w = { w with jrnl := j } := by
    intro α k one l w
    refine List.foldlRecOn l k (motive := fun v => ∃ j, v = { w with jrnl := j }) ⟨w.jrnl, rfl⟩ ?_
    rintro _ ⟨_, rfl⟩ x -
    exact one _ x
  unfold State.journalFabric
  extract_lets steps copies
  obtain ⟨_, stepped⟩ : ∃ j, steps = { s.stw with jrnl := j } := logs _ (fun w r => by split <;> exact ⟨_, rfl⟩) _ _
  obtain ⟨j, copied⟩ : ∃ j, copies = { steps with jrnl := j } := logs _ (fun w r => ⟨_, rfl⟩) _ _
  exact ⟨j, by rw [copied, stepped]⟩

/-! ## What follows a command of the Weighbridge -/

section
variable (s : State) (g : Wgb → Wgb)

@[simp] theorem State.onWgb_wgb : (s.onWgb g).wgb = { g s.wgb with raised := [] } := (s.onWgb_rest g).1
@[simp] theorem State.onWgb_cfg : (s.onWgb g).cfg = s.cfg := (s.onWgb_rest g).2.2.1
@[simp] theorem State.onWgb_pcr : (s.onWgb g).pcr = s.pcr := (s.onWgb_rest g).2.2.2.1

/-- The device as the Weighbridge has just acted: its events are on their way. -/
def State.reported : State :=
  { s with
    wgb := { g s.wgb with raised := [] }
    fab := { s.fab with raised := s.fab.raised ++ (g s.wgb).raised } }

theorem State.completes_onWgb : (s.reported g).Completes (s.reported g).mayComplete (s.onWgb g) := by
  have noLoss : (if s.fab.tlink.st = .fenced && s.fab.tlink.st ≠ .fenced then s.fab.partnerLost s.cfg else s.fab) = s.fab :=
    if_neg (by simp)
  have noFailover : (if s.fab.twin.pair = .failover && s.fab.twin.pair ≠ .failover then (g s.wgb).markFailover else g s.wgb) =
      g s.wgb := if_neg (by simp)
  set told : State := { s with
    wgb := { g s.wgb with raised := [] }
    irq := s.fab.agentDrops.foldl (fun q a => q.dropAgent a) s.irq
    fab := { s.fab with raised := s.fab.raised ++ (g s.wgb).raised, agentDrops := [] } }
  have follows : s.onWgb g = told.journalFabric.longAll.ownDrains := by
    unfold State.onWgb State.finish
    dsimp only
    rw [noLoss, noFailover]
  obtain ⟨j, journal⟩ := told.journalFabric_frame
  have journaled : (s.reported g).Completes (s.reported g).mayComplete told.journalFabric := by
    rw [journal]
    exact .of_same _ rfl rfl rfl
  have same : told.journalFabric.mayComplete = (s.reported g).mayComplete := by
    rw [journal]
    rfl
  rw [follows]
  exact journaled.trans ((same ▸ State.completes_longAll _).trans (State.completes_ownDrains _ _))

@[simp] theorem State.onWgb_taps : (s.onWgb g).fab.taps = s.fab.taps := (s.completes_onWgb g).1

variable {s g}

/-- An event of the Weighbridge is raised (R378). -/
theorem State.mem_onWgb_raised {e : Nat × Nat} (he : e ∈ (g s.wgb).raised) : e ∈ (s.onWgb g).fab.raised :=
  (s.completes_onWgb g).2.1 (List.mem_append_right _ he)

/-- A mailbox stays whose long commands all wait for the end of the open interval. -/
theorem State.onWgb_mb {m : Nat} (waits : ∀ l ∈ s.stw.longs, l.1 = m → l.2 = .short (g s.wgb).cur.ino) :
    (s.onWgb g).stw.mb m = s.stw.mb m :=
  (s.completes_onWgb g).2.2 m fun may => (State.mem_mayComplete _).mp may |>.elim fun _ ⟨hl, other⟩ => other (waits _ hl rfl)

end

end Sys2Proof.Machine
end

section
/-! SUPPORT. What the Weighbridge's own operations do: its audit trail, its readouts, and the commands of its two ports
(R378, R381, R394 to R400). -/
namespace Sys2Proof.Machine

/-! ## The audit trail and the journal -/

/-- Between two states of the Weighbridge only what it keeps in its journal differs, and events have been added. -/
def Wgb.Journals (w v : Wgb) : Prop := ∃ blocks blockSeg gaps auditCnt audit auditSeg rs, v = { w with
  blocks := blocks
  blockSeg := blockSeg
  gaps := gaps
  auditCnt := auditCnt
  audit := audit
  auditSeg := auditSeg
  raised := w.raised ++ rs }

theorem Wgb.Journals.refl (w : Wgb) : w.Journals w := ⟨_, _, _, _, _, _, [], by rw [List.append_nil]⟩

theorem Wgb.Journals.trans {w v x : Wgb} (wv : w.Journals v) (vx : v.Journals x) : w.Journals x := by
  obtain ⟨_, _, _, _, _, _, _, rfl⟩ := wv
  obtain ⟨_, _, _, _, _, _, _, rfl⟩ := vx
  exact ⟨_, _, _, _, _, _, _, by rw [List.append_assoc]⟩

theorem Wgb.Journals.foldl {α : Type} {k : Wgb → α → Wgb} (one : ∀ (w : Wgb) (x : α), w.Journals (k w x)) (w : Wgb)
    (l : List α) : w.Journals (l.foldl k w) :=
  List.foldlRecOn l k (.refl w) fun v done x _ => done.trans (one v x)

theorem Wgb.journals_raise (w : Wgb) (n : Nat) : w.Journals (w.raise n) := ⟨_, _, _, _, _, _, [(n, 0)], rfl⟩

theorem Wgb.mem_raised_raise (w : Wgb) (n : Nat) : (n, 0) ∈ (w.raise n).raised :=
  List.mem_append_right _ (List.mem_singleton_self _)

theorem Wgb.Journals.raised {w v : Wgb} (journals : w.Journals v) {e : Nat × Nat} (he : e ∈ w.raised) : e ∈ v.raised := by
  obtain ⟨_, _, _, _, _, _, _, rfl⟩ := journals
  exact List.mem_append_left _ he

/-- AUDIT_CNT after a record of a KIND: it counts the refused commands (R399). -/
def Wgb.countAfter (w : Wgb) (kind : Nat) : Nat := if kind = 1 then satAdd 32 w.auditCnt 1 else w.auditCnt

theorem Wgb.journals_record (w : Wgb) (kind source : Nat) (detail : BitVec 384) : w.Journals (w.record kind source detail) := by
  unfold Wgb.record
  extract_lets n full l v a v'
  have kept : w.Journals v' := ⟨w.blocks, w.blockSeg, w.gaps, n, l ++ [a], w.auditSeg + b2n full, [], by simp [v', v]⟩
  split
  · exact kept.trans (v'.journals_raise 198)
  · exact kept

/-- An audit record goes to the end of an area that has room for it (R399). -/
theorem Wgb.record_room {w : Wgb} (room : w.audit.length < 4095) (kind source : Nat) (detail : BitVec 384) : ∃ rs,
    w.record kind source detail = { w with
      auditCnt := w.countAfter kind
      audit := w.audit ++ [{ kind := kind, source := source, cnt := w.countAfter kind, t := w.t, detail := detail }]
      raised := w.raised ++ rs } := by
  have notFull : decide (4095 ≤ w.audit.length) = false := decide_eq_false (Nat.not_le.mpr room)
  unfold Wgb.record
  simp only [notFull, Bool.false_eq_true, if_false]
  by_cases counts : w.auditCnt < w.countAfter kind
  · exact ⟨[(198, 0)], if_pos counts⟩
  · exact ⟨[], (if_neg counts).trans (by rw [List.append_nil]; rfl)⟩

/-- The block of a group, or the record that it could not be written (R393). -/
theorem Wgb.journals_writeBlock (w : Wgb) (b : Block) : w.Journals (w.writeBlock b) := by
  unfold Wgb.writeBlock
  extract_lets gap flags b' fits was l compacted written
  have compacts : w.Journals compacted := ⟨_, _, _, _, _, _, [], by rw [List.append_nil]⟩
  have writes : w.Journals written := by
    unfold written
    split
    · exact compacts.trans ⟨_, _, _, _, _, _, [], by rw [List.append_nil]⟩
    · exact (compacts.trans ⟨compacted.blocks, _, _, _, _, _, [], by rw [List.append_nil]⟩).trans (Wgb.journals_record _ _ _ _)
  split
  · exact writes
  · exact writes.trans (written.journals_raise 195)

/-- An interval that closes adds its counts to the cumulative registers; the rest of its close is the journal's business
(R388, R392). -/
theorem Wgb.commit_journals (w : Wgb) (i : Interval) :
    ({ w with cum := addCounts w.cum i.counts } : Wgb).Journals (w.commit i) ∧ (192, 0) ∈ (w.commit i).raised ∧
      (i.flags.testBit 0 = true → (193, 0) ∈ (w.commit i).raised) := by
  unfold Wgb.commit
  extract_lets cs counted written told
  have writes : counted.Journals written := .foldl (fun v g => by
    dsimp only
    split
    · exact .refl v
    · exact v.journals_writeBlock _) _ _
  have tells : counted.Journals told := writes.trans (written.journals_raise 192)
  split
  next short => exact ⟨tells.trans (told.journals_raise 193), List.mem_append_left _ (written.mem_raised_raise 192),
    fun _ => told.mem_raised_raise 193⟩
  next regular => exact ⟨tells, written.mem_raised_raise 192, fun short => absurd short regular⟩

/-! ## Readouts (R395) -/

theorem Wgb.signRecs_length (w : Wgb) (digest : BitVec 384) : (w.signRecs digest).length = 2 := by
  unfold Wgb.signRecs
  split <;> rfl

theorem Wgb.signRecs_unsealed {w : Wgb} (unsealed : w.sealed = false) (digest : BitVec 384) : w.signRecs digest = [0, 0] :=
  if_pos (by simp [unsealed])

/-- A readout is its body, a trailer of its kind, count and nonce, and two signature records. -/
def Wgb.IsReadout (w : Wgb) (kind : Nat) (body : List Rec64) (nonce : BitVec 128) (answer : Option (Nat × List Rec64)) : Prop :=
  ∃ tr sig, answer = some (0, body ++ [tr] ++ sig) ∧ sig.length = 2 ∧ (w.sealed = false → sig = [0, 0]) ∧
    bitsOf tr.toNat 0 8 = 0x30 ∧ bitsOf tr.toNat 8 8 = kind % 256 ∧ bitsOf tr.toNat 16 16 = body.length % 65536 ∧
    bitsOf tr.toNat 192 128 = nonce.toNat

/-- A readout changes the answer and the count of signatures. -/
theorem Wgb.readout_frame (w : Wgb) (kind : Nat) (body : List Rec64) (nonce : BitVec 128) : ∃ l,
    w.readout kind body nonce = { w with signs := w.signs + 1, answer := some (0, l) } := ⟨_, rfl⟩

theorem Wgb.readout_isReadout (w : Wgb) (kind : Nat) {body : List Rec64} (fits : body.length ≤ 65535) (nonce : BitVec 128) :
    w.IsReadout kind body nonce (w.readout kind body nonce).answer := by
  have whole : body.take 65535 = body := List.take_of_length_le fits
  unfold Wgb.readout
  rw [whole]
  refine ⟨_, _, rfl, w.signRecs_length _, fun unsealed => Wgb.signRecs_unsealed unsealed _, ?_, ?_, ?_, ?_⟩ <;>
    rw [bitsOf_pack _ (by decide)]
  · exact bitsOf_packNat (v := 0x30) (by simp) (by simp [apart])
  · exact bitsOf_packNat (by simp) (by simp [apart])
  · exact bitsOf_packNat (by simp) (by simp [apart])
  · exact (bitsOf_packNat (v := nonce.toNat) (by simp) (by simp [apart])).trans (Nat.mod_eq_of_lt nonce.isLt)

/-- The command of a range that exists is its readout. -/
theorem Wgb.readIntervals_range {w : Wgb} {source g lo hi : Nat} (group : g ≤ 15) (order : lo ≤ hi) (nonce : BitVec 128) :
    w.readIntervals source g lo hi nonce = w.readout 0 ((w.range g lo hi).flatMap w.blockRecs) nonce :=
  if_neg (by simp; omega)

theorem Wgb.readCumulative_range {w : Wgb} {source first n : Nat} (some_ : 1 ≤ n) (tenants : first + n ≤ 256)
    (nonce : BitVec 128) :
    w.readCumulative source first n nonce = w.readout 1 ((List.range n).map (fun i => w.cumRec (first + i))) nonce :=
  if_neg (by simp; omega)

/-! ## The two ports (R378, R396, R398) -/

section
variable {w : Wgb} (on : w.powered = true) {port : Nat} (exists_ : port < 2)
include on exists_

/-- A command that a port offers acts; only the verification port checks a CRC. -/
theorem Wgb.command_served {crcOk : Bool} (crc : port = 0 → crcOk = true) (cmd : Nat) (g : Wgb → Wgb) :
    w.command port crcOk true cmd g = g w := by
  have good : ¬ (port = 0 ∧ crcOk = false) := fun ⟨verification, bad⟩ => by simp [crc verification] at bad
  simp [Wgb.command, on, exists_, good]

/-- A command that a port does not offer is refused. -/
theorem Wgb.command_refused {crcOk : Bool} (crc : port = 0 → crcOk = true) (cmd : Nat) (g : Wgb → Wgb) :
    w.command port crcOk false cmd g = w.refuse port 2 cmd := by
  have good : ¬ (port = 0 ∧ crcOk = false) := fun ⟨verification, bad⟩ => by simp [crc verification] at bad
  simp [Wgb.command, on, exists_, good]

end

/-- The verification port answers status 3 to a bad CRC. -/
theorem Wgb.command_badCrc {w : Wgb} (on : w.powered = true) (offered : Bool) (cmd : Nat) (g : Wgb → Wgb) :
    w.command 0 false offered cmd g = w.reply 3 [] := by
  simp [Wgb.command, on]

/-- The detail of a refused command: on the verification port its first byte is CMD (R399). -/
def Wgb.refusedDetail (w : Wgb) (source cmd : Nat) : BitVec 384 :=
  let d := Config.auditDetail 1 (2 ^ 32 * w.audit.length + cmd)
  if source = 0 then (d >>> 8 <<< 8) ||| BitVec.ofNat 384 cmd else d

theorem Wgb.refusedDetail_cmd (w : Wgb) {cmd : Nat} (byte : cmd < 256) : bitsOf (w.refusedDetail 0 cmd).toNat 0 8 = cmd := by
  refine Nat.eq_of_testBit_eq fun i => ?_
  rw [testBit_bitsOf, Nat.zero_add, Wgb.refusedDetail, if_pos rfl, BitVec.testBit_toNat]
  by_cases hi : i < 8
  · rw [BitVec.getLsbD_or, BitVec.getLsbD_ofNat]
    simp [hi, show i < 384 by omega]
  · simp [hi, Nat.testBit_lt_two_pow (byte.trans_le (Nat.pow_le_pow_right (n := 2) (by decide) (Nat.not_lt.mp hi)))]

/-- A refused command leaves an audit record and its status, and is counted (R398, R399). -/
theorem Wgb.refuse_room {w : Wgb} (room : w.audit.length < 4095) (source st cmd : Nat) : ∃ rs, w.refuse source st cmd = { w with
    auditCnt := w.countAfter 1
    audit := w.audit ++ [{ kind := 1, source := source, cnt := w.countAfter 1, t := w.t, detail := w.refusedDetail source cmd }]
    answer := some (st, [])
    raised := w.raised ++ rs } := by
  obtain ⟨rs, recorded⟩ := Wgb.record_room room 1 source (w.refusedDetail source cmd)
  refine ⟨rs, ?_⟩
  change (w.record 1 source (w.refusedDetail source cmd)).reply st [] = _
  rw [recorded]
  rfl

end Sys2Proof.Machine
end

section
/-! SUPPORT. A command of the Weighbridge as the device sees it; the readouts of its ports (R394 to R396). -/
namespace Sys2Proof.Machine

/-- A command after which the Weighbridge is `v`: its events are raised, and the configuration, the registers and the
frames of the taps stay. -/
theorem exec_onWgb {c : Instr} {s : State} {g : Wgb → Wgb} {v : Wgb} (runs : exec c s = .next (s.onWgb g))
    (acts : g s.wgb = v) : ∃ t, exec c s = .next t ∧ t.wgb = { v with raised := [] } ∧ t.cfg = s.cfg ∧
      t.pcr = s.pcr ∧ t.fab.taps = s.fab.taps ∧       ∀ e ∈ v.raised, e ∈ t.fab.raised :=
  ⟨_, runs, by rw [State.onWgb_wgb, acts], s.onWgb_cfg g, s.onWgb_pcr g, s.onWgb_taps g,
    fun _ he => State.mem_onWgb_raised (acts ▸ he)⟩

/-- A command that the Weighbridge answers with a readout changes nothing else that it measures or keeps. -/
theorem exec_readout {c : Instr} {s : State} {g : Wgb → Wgb} {kind : Nat} {body : List Rec64} {nonce : BitVec 128}
    (runs : exec c s = .next (s.onWgb g)) (acts : g s.wgb = s.wgb.readout kind body nonce) (fits : body.length ≤ 65535) :
    ∃ t, exec c s = .next t ∧ s.wgb.IsReadout kind body nonce t.wgb.answer ∧ t.wgb.t = s.wgb.t ∧ t.wgb.cum = s.wgb.cum ∧
      t.wgb.blocks = s.wgb.blocks ∧ t.wgb.audit = s.wgb.audit ∧ t.cfg = s.cfg := by
  have answers := s.wgb.readout_isReadout kind fits nonce
  obtain ⟨l, frame⟩ := s.wgb.readout_frame kind body nonce
  obtain ⟨t, steps, wgb, cfg, -⟩ := exec_onWgb runs acts
  rw [frame] at answers wgb
  exact ⟨t, steps, by rw [wgb]; exact answers, by rw [wgb], by rw [wgb], by rw [wgb], by rw [wgb], cfg⟩

end Sys2Proof.Machine

namespace Sys2Proof
open Machine

/-- Settles O35: each readout of a port is its body, its trailer and its signature records; READ_PARAMS is offered on the
verification port alone. -/
theorem readoutsCarryBodyTrailerAndSignature : Obligations.ReadoutsCarryBodyTrailerAndSignature := by
  unfold Obligations.ReadoutsCarryBodyTrailerAndSignature
  intro s port nonce ports on w answers
  have served : ∀ (cmd : Nat) (g : Wgb → Wgb), w.command port true true cmd g = g w := fun cmd g =>
    Wgb.command_served on ports (fun _ => rfl) cmd g
  refine ⟨?id, ?params, ?refused, ?intervals, ?cumulative, ?audit⟩
  case id => exact exec_readout rfl (served _ _) (by simp [Wgb.keyRecs])
  case params =>
    rintro rfl
    exact exec_readout rfl (served _ _) (by simp)
  case refused =>
    rintro rfl room
    obtain ⟨rs, refused⟩ := Wgb.refuse_room room 1 2 2
    obtain ⟨t, runs, wgb, -⟩ := exec_onWgb (c := .readParams 1 nonce true) rfl
      ((Wgb.command_refused on ports (fun _ => rfl) 2 _).trans refused)
    exact ⟨t, runs, by rw [wgb], ⟨_, by rw [wgb], rfl, rfl⟩, by rw [wgb]⟩
  case intervals =>
    intro g lo hi group order fits
    exact exec_readout rfl ((served _ _).trans (Wgb.readIntervals_range group order nonce)) fits
  case cumulative =>
    intro first n some_ tenants
    refine exec_readout rfl ((served _ _).trans (Wgb.readCumulative_range some_ tenants nonce)) ?_
    rw [List.length_map, List.length_range]
    omega
  case audit =>
    intro first n fits
    refine exec_readout rfl (served _ _) ?_
    rw [List.length_map]
    exact (List.length_take_le _ _).trans fits

end Sys2Proof
end

section
/-! SUPPORT. Set-up, sealing and the Steward's commands (R378, R381, R397, R398, R400). -/
namespace Sys2Proof.Machine

section
variable {w : Wgb}

theorem Wgb.setParams_unsealed (unsealed : w.sealed = false) {l : Nat} (least : 1 ≤ l) (most : l ≤ 3600) : ∃ stop,
    w.setParams l = { w with len := l, tested := false, cur := { w.cur with stop := stop }, answer := some (0, []) } :=
  ⟨_, (if_neg (by simp [unsealed])).trans (if_neg (by simp; omega))⟩

theorem Wgb.loadPatch_unsealed (unsealed : w.sealed = false) (pin : w.sealEn = true) (bytes : List Nat) :
    w.loadPatch bytes = { w with patch := bytes, answer := some (0, []) } := if_neg (by simp [unsealed, pin])

/-- The Weighbridge as SEAL leaves it: the seal is blown, and every count starts at 0 (R397). -/
def Wgb.sealedBy (w : Wgb) (officer : BitVec 192) (date : Word64) : Wgb :=
  { w with
    sealed := true
    officer := officer
    sealDate := date
    t := 0
    segStart := 0
    auditCnt := 0
    audit := []
    blocks := []
    gaps := []
    ring := []
    closing := []
    checkpoint := none
    short := none
    cum := []
    ticks := 0
    auditSeg := w.auditSeg + 1
    blockSeg := w.blockSeg + 1
    cur := Interval.new 0 0 (w.nextBoundary 0) }

theorem Wgb.doSeal_permitted (unsealed : w.sealed = false) (pin : w.sealEn = true) (params : w.len ≠ 0) (tested : w.tested = true)
    (officer : BitVec 192) (date : Word64) : w.doSeal (w.serial.extractLsb' 0 32) officer date =
      (w.sealedBy officer date).reply 0 (w.sealedBy officer date).keyRecs := by
  rw [Wgb.doSeal, if_neg (by simp [unsealed, pin, params, tested]), if_neg (not_not_intro rfl)]
  rfl

theorem Wgb.nextBoundary_zero (params : w.len ≠ 0) : w.nextBoundary 0 = w.len * 10 ^ 7 := by
  simp [Wgb.nextBoundary, params]

section
variable (sealed : w.sealed = true)
include sealed

theorem Wgb.setParams_sealed (l : Nat) : w.setParams l = w.refuse 0 2 0x10 := if_pos sealed

theorem Wgb.loadPatch_sealed (bytes : List Nat) : w.loadPatch bytes = w.refuse 0 2 0x11 := if_pos (by simp [sealed])

theorem Wgb.doSeal_sealed (confirm : Word32) (officer : BitVec 192) (date : Word64) :
    w.doSeal confirm officer date = w.refuse 0 2 0x12 := if_pos (by simp [sealed])

end

section
variable (on : w.powered = true)
include on

theorem Wgb.markFailover_on : w.markFailover = { w with
    cur := { w.cur with flags := putBit w.cur.flags 2 true }, answer := some (0, []) } := if_pos on

/-- TIME_NOTE leaves a record of KIND 8 with the civil time (R381). -/
theorem Wgb.timeNote_runs (clock : w.tcxoOk = true) (room : w.audit.length < 4095) (civil : BitVec 96) : ∃ rs,
    w.timeNote civil = { w with
      audit := w.audit ++ [{ kind := 8, source := 1, cnt := w.auditCnt, t := w.t, detail := BitVec.setWidth 384 civil }]
      answer := some (0, [])
      raised := w.raised ++ rs } := by
  obtain ⟨rs, recorded⟩ := Wgb.record_room room 8 1 (BitVec.setWidth 384 civil)
  refine ⟨rs, (if_neg (by simp [on])).trans ((if_neg (by simp [clock])).trans ?_)⟩
  rw [recorded]
  rfl

end

end

/-- STATUS answers one record with the state word, the number of the open interval and AUDIT_CNT (R378). -/
theorem Wgb.status_record (w : Wgb) : ∃ r, w.status = { w with answer := some (0, [r]) } ∧
    bitsOf r.toNat 0 32 = w.stat.toNat ∧ bitsOf r.toNat 32 32 = w.cur.ino % 2 ^ 32 ∧
    bitsOf r.toNat 64 32 = w.auditCnt % 2 ^ 32 := by
  refine ⟨_, rfl, ?_, ?_, ?_⟩ <;> rw [bitsOf_pack _ (by decide)]
  · exact (bitsOf_packNat (v := w.stat.toNat) (by simp) (by simp [apart])).trans (Nat.mod_eq_of_lt w.stat.isLt)
  · exact bitsOf_packNat (by simp) (by simp [apart])
  · exact bitsOf_packNat (by simp) (by simp [apart])

end Sys2Proof.Machine

namespace Sys2Proof
open Machine

/-- Settles O36: unsealed, the commands of the verification port set what they carry; sealed, they are refused and
recorded; the Steward's commands act, and a bad CRC is answered 3. -/
theorem settingUpSealingAndStewardCommands : Obligations.SettingUpSealingAndStewardCommands := by
  unfold Obligations.SettingUpSealingAndStewardCommands
  refine ⟨?verification, ?steward⟩ <;> intro s on w
  case verification =>
    have served : ∀ (pin : Bool) (cmd : Nat) (g : Wgb → Wgb), ({ w with sealEn := pin } : Wgb).command 0 true true cmd g =
        g { w with sealEn := pin } := fun pin cmd g =>
      Wgb.command_served (w := { w with sealEn := pin }) on Nat.two_pos (fun _ => rfl) cmd g
    refine ⟨fun j k => ?selfTest, fun l unsealed least most => ?setParams, fun bytes unsealed => ?loadPatch,
      fun officer date unsealed params tested => ?seals, fun sealed room pin l bytes confirm officer date => ?sealed⟩
    case selfTest =>
      obtain ⟨t, runs, wgb, -⟩ := exec_onWgb (c := .selfTest 0 j k true) rfl (served w.sealEn _ _)
      refine ⟨t, runs, ?_⟩
      rw [wgb]
      exact ⟨rfl, by simp [Wgb.selfTest, Wgb.reply, and_assoc], rfl, rfl⟩
    case setParams =>
      obtain ⟨stop, sets⟩ := Wgb.setParams_unsealed unsealed least most
      have short : l % 2 ^ 16 = l := Nat.mod_eq_of_lt (by omega)
      obtain ⟨t, runs, wgb, -⟩ := exec_onWgb (c := .setParams 0 l true) rfl
        ((served w.sealEn _ _).trans ((congrArg w.setParams short).trans sets))
      exact ⟨t, runs, by rw [wgb], by rw [wgb], by rw [wgb], by rw [wgb]⟩
    case loadPatch =>
      obtain ⟨t, runs, wgb, -⟩ := exec_onWgb (c := .loadPatch 0 true bytes true) rfl
        ((served true _ _).trans (Wgb.loadPatch_unsealed (w := { w with sealEn := true }) unsealed rfl bytes))
      exact ⟨t, runs, by rw [wgb], by rw [wgb], by rw [wgb]⟩
    case seals =>
      have seals := Wgb.doSeal_permitted (w := { w with sealEn := true }) unsealed rfl params tested officer date
      obtain ⟨t, runs, wgb, -⟩ := exec_onWgb (c := .seal 0 true (w.serial.extractLsb' 0 32) officer date true) rfl
        ((served true _ _).trans seals)
      refine ⟨t, runs, ?_⟩
      rw [wgb, ← Wgb.nextBoundary_zero params]
      exact ⟨rfl, rfl, rfl, rfl, rfl, rfl, rfl, rfl, rfl, rfl, rfl⟩
    case sealed =>
      have refused : ∀ {c : Instr} {cmd : Nat} {g : Wgb → Wgb} (pin : Bool), cmd < 256 → exec c s = .next (s.onWgb g) →
          g w = ({ w with sealEn := pin } : Wgb).refuse 0 2 cmd → ∃ t, exec c s = .next t ∧ t.wgb.answer = some (2, []) ∧
            t.wgb.auditCnt = min (2 ^ 32 - 1) (w.auditCnt + 1) ∧ (∃ a, t.wgb.audit = w.audit ++ [a] ∧ a.kind = 1 ∧
              a.source = 0 ∧ bitsOf a.detail.toNat 0 8 = cmd) ∧ t.wgb.len = w.len ∧ t.wgb.patch = w.patch ∧
            t.wgb.sealDate = w.sealDate := by
        intro c cmd g pin byte runs acts
        obtain ⟨rs, refuses⟩ := Wgb.refuse_room (w := { w with sealEn := pin }) room 0 2 cmd
        obtain ⟨t, steps, wgb, -⟩ := exec_onWgb runs (acts.trans refuses)
        refine ⟨t, steps, ?_⟩
        rw [wgb]
        exact ⟨rfl, rfl, ⟨_, rfl, rfl, rfl, Wgb.refusedDetail_cmd _ byte⟩, rfl, rfl, rfl⟩
      refine List.forall_mem_cons.mpr ⟨?_, List.forall_mem_cons.mpr ⟨?_, List.forall_mem_cons.mpr ⟨?_, fun _ h => absurd h
        List.not_mem_nil⟩⟩⟩
      · exact refused (cmd := 0x10) w.sealEn (by decide) rfl ((served _ _ _).trans (Wgb.setParams_sealed sealed _))
      · exact refused (cmd := 0x11) pin (by decide) rfl ((served _ _ _).trans
          (Wgb.loadPatch_sealed (w := { w with sealEn := pin }) sealed _))
      · exact refused (cmd := 0x12) pin (by decide) rfl ((served _ _ _).trans
          (Wgb.doSeal_sealed (w := { w with sealEn := pin }) sealed _ _ _))
  case steward =>
    have served : ∀ (crc : Bool) (cmd : Nat) (g : Wgb → Wgb), w.command 1 crc true cmd g = g w := fun crc cmd g =>
      Wgb.command_served on (by decide) (fun h => absurd h (by decide)) cmd g
    refine ⟨fun crc => ?markFailover, fun civil crc clock room => ?timeNote, fun crc => ?status, fun nonce => ?badCrc⟩
    case markFailover =>
      obtain ⟨t, runs, wgb, cfg, -⟩ := exec_onWgb (c := .markFailover 1 crc) rfl ((served _ _ _).trans (Wgb.markFailover_on on))
      exact ⟨t, runs, by rw [wgb], by rw [wgb], by rw [wgb], by rw [wgb], cfg⟩
    case timeNote =>
      obtain ⟨rs, notes⟩ := Wgb.timeNote_runs on clock room civil
      obtain ⟨t, runs, wgb, cfg, -⟩ := exec_onWgb (c := .timeNote 1 civil crc) rfl ((served _ _ _).trans notes)
      have whole : (BitVec.setWidth 384 civil).toNat = civil.toNat := BitVec.toNat_setWidth_of_le (by decide)
      exact ⟨t, runs, ⟨_, by rw [wgb], rfl, rfl, whole⟩, by rw [wgb], by rw [wgb], cfg⟩
    case status =>
      obtain ⟨r, answers, stat, ino, cnt⟩ := w.status_record
      obtain ⟨t, runs, wgb, cfg, -⟩ := exec_onWgb (c := .status 1 crc) rfl ((served _ _ _).trans answers)
      exact ⟨t, r, runs, wgb, stat, ino, cnt, cfg⟩
    case badCrc =>
      obtain ⟨t, runs, wgb, -⟩ := exec_onWgb (c := .readId 0 nonce false) rfl (Wgb.command_badCrc on true 1 _)
      exact ⟨t, runs, wgb⟩

end Sys2Proof
end

section
/-! SUPPORT. The metering commands of the mailboxes: the Weighbridge's command port, what a readout answers, and a close that
goes on running (R387, R427, R465, R466). -/
namespace Sys2Proof.Machine

/-! ## Queries that end with a status -/

/-- A query's completion is its answer, whatever its status (R428, R439). -/
theorem State.complete_query_status (s : State) (m op st : Nat) (resp : List Nat) (hm : m < 17) (ho : (s.stw.mb m).opcode = op)
    (hk : cmdKind op = some .q) (good : (s.stw.mb m).faults = 0) (once : (s.stw.mb m).rerun = false)
    (kept : (s.stw.mb m).discard = false) : s.OnlyAnswered (s.complete m st resp) m st resp := by
  have notApply : op ≠ 0x0201 := by
    rintro rfl
    simp [cmdKind, fixedCmds, fixedCmds1] at hk
  have status := Mbox.statusOf_plain once good st
  unfold Mbox.statusOf at status
  unfold State.complete
  simp only [status, ho, hk, notApply, if_false]
  exact s.answer_only m st resp hm kept

/-- A served query answers what its body gives on the state that the body leaves. -/
theorem State.run_answered (s : State) (m op : Nat) (reserved : List (Nat × Nat))
    (body : State → Mbox → State × Nat × List Nat) (u : State) (st : Nat) (resp : List Nat)
    (h : s.serves m op = true) (hk : cmdKind op = some .q)
    (hc : (s.stw.mb m).clean reserved = true) (hb : body s (s.stw.mb m) = (u, st, resp)) (hu : u.stw.mb m = s.stw.mb m) :
    u.OnlyAnswered (s.run m op reserved body) m st resp := by
  obtain ⟨ready, -, -, good, once, kept⟩ := (s.serves_iff m op).mp h
  obtain ⟨hm, -, -, ho⟩ := State.ready_spec ready
  rw [State.run_served s m op reserved _ h hc, hb]
  exact u.complete_query_status m op st resp hm (by rw [hu, ho]) hk (by rw [hu, good]) (by rw [hu, once]) (by rw [hu, kept])

/-! ## The command port (R427, R466) -/

/-- One failure of the port is repeated and reported. -/
theorem State.meter_once {s u : State} {fails : Nat} {body : State → State × Nat × List Nat} {resp : List Nat}
    (once : fails ≤ 1) (on : s.wgb.powered = true) (acts : body s = (u, 0, resp)) :
    s.meter fails body = (u, if fails = 1 then 0x06F0 else 0, resp) := by
  have works : ¬ (2 ≤ fails || ¬ s.wgb.powered) = true := by simp [on]; omega
  rw [State.meter, if_neg works, acts]
  by_cases one : fails = 1 <;> simp [one]

/-- A port that fails twice leaves the Weighbridge alone. -/
theorem State.meter_twice (s : State) {fails : Nat} (twice : 2 ≤ fails) (body : State → State × Nat × List Nat) :
    s.meter fails body = (s, 0x0401, []) := if_pos (by simp [twice])

/-! ## Readouts (R465) -/

/-- Only what the Weighbridge becomes counts for what follows. -/
theorem State.onWgb_congr {s : State} {g h : Wgb → Wgb} (same : g s.wgb = h s.wgb) : s.onWgb g = s.onWgb h := by
  rw [State.onWgb, same]
  rfl

/-- The response of a readout: its number of records, NEXT, and the records. -/
theorem State.readoutResp_answer {u : State} {l : List Rec64} (answer : u.wgb.answer = some (0, l)) (next : Nat) :
    u.readoutResp next = (u, 0, leBytes l.length 4 ++ leBytes next 4 ++ List.replicate 8 0 ++ recBytes l) := by
  rw [State.readoutResp, answer]
  rfl

/-- Blocks whose records fit are all returned. -/
theorem Wgb.wholeBlocks_all (w : Wgb) : ∀ {l : List Block} {room : Nat}, (l.flatMap w.blockRecs).length ≤ room →
    w.wholeBlocks room l = l
  | [], _, _ => rfl
  | b :: l, room, fits => by
    rw [List.flatMap_cons, List.length_append] at fits
    have first : (w.blockRecs b).length ≤ room := by omega
    have rest := w.wholeBlocks_all (l := l) (room := room - (w.blockRecs b).length) (by omega)
    rw [Wgb.wholeBlocks, if_pos first, rest]

/-- A mailbox that no long command holds stays as the Weighbridge acts. -/
theorem State.onWgb_mb_free {s : State} {m : Nat} (free : ∀ l ∈ s.stw.longs, l.1 ≠ m) (g : Wgb → Wgb) :
    (s.onWgb g).stw.mb m = s.stw.mb m := State.onWgb_mb fun l hl e => absurd e (free l hl)

/-- A served readout returns what the Weighbridge answers, through a port that fails at most once. -/
theorem exec_meterReadout {c : Instr} {s : State} {m op fails next : Nat} {reserved : List (Nat × Nat)}
    {body : State → Mbox → State × Nat × List Nat} {inner : State → State × Nat × List Nat} {g : Wgb → Wgb}
    (free : ∀ l ∈ s.stw.longs, l.1 ≠ m) (on : s.wgb.powered = true) (once : fails ≤ 1)
    (runs : exec c s = .next (s.run m op reserved body)) (served : s.serves m op = true) (query : cmdKind op = some .q)
    (clean : (s.stw.mb m).clean reserved = true) (meters : body s (s.stw.mb m) = s.meter fails inner)
    (reads : inner s = (s.onWgb g).readoutResp next) (answers : ∃ l, (g s.wgb).answer = some (0, l)) :
    ∃ t l, exec c s = .next t ∧ (s.onWgb g).wgb.answer = some (0, l) ∧
      (s.onWgb g).Answered t m (if fails = 1 then 0x06F0 else 0)
        (leBytes l.length 4 ++ leBytes next 4 ++ List.replicate 8 0 ++ recBytes l) ∧
      t.cfg = s.cfg ∧ t.pcr = s.pcr ∧ t.wgb = (s.onWgb g).wgb := by
  obtain ⟨l, records⟩ := answers
  have answer : (s.onWgb g).wgb.answer = some (0, l) := by rw [State.onWgb_wgb]; exact records
  have gives := meters.trans (State.meter_once once on (reads.trans (State.readoutResp_answer answer next)))
  obtain ⟨answered, -, -, cfg, -, pcr, wgb, -⟩ :=
    State.run_answered s m op reserved body _ _ _ served query clean gives (State.onWgb_mb_free free g)
  exact ⟨_, l, runs, answer, answered, cfg.trans (s.onWgb_cfg g), pcr.trans (s.onWgb_pcr g), wgb⟩

/-! ## CLOSE_SHORT (R387) -/

/-- CLOSE_SHORT sets a boundary 2 µs ahead. -/
theorem Wgb.closeShort_new {w : Wgb} (on : w.powered = true) (clock : w.tcxoOk = true) (none : w.short = none) :
    w.closeShort = { w with short := some (w.t + 20), answer := some (0, []) } := by
  simp [Wgb.closeShort, Wgb.reply, on, clock, none]

/-- METER_CLOSE_SHORT runs until the open interval ends (R466). -/
theorem exec_meterCloseShort {s : State} {m : Nat} (on : s.wgb.powered = true) (clock : s.wgb.tcxoOk = true)
    (served : s.serves m 0x0907 = true) :
    exec (.meterCloseShort m 0) s = .next ((s.runs m (.short s.wgb.cur.ino)).onWgb Wgb.closeShort) := by
  refine congrArg Host.Outcome.next (State.runLong_goes_on s m 0x0907 [] _ served (by decide) rfl _ ?_)
  simp [on, clock]

end Sys2Proof.Machine

namespace Sys2Proof
open Machine

/-- Settles O29: a readout returns what the Weighbridge answers, TIME_NOTE and MARK_FAILOVER commit what they do,
CLOSE_SHORT goes on until the interval ends, and a port that fails twice gives 0x0401. -/
theorem meteringCommandsReachTheWeighbridge : Obligations.MeteringCommandsReachTheWeighbridge := by
  unfold Obligations.MeteringCommandsReachTheWeighbridge
  refine ⟨?readouts, ?commands⟩
  case readouts =>
    intro s m fails b w st answered free on once
    refine ⟨fun served => ?id, fun served clean group order fits => ?intervals, fun served clean some_ tenants => ?cumulative,
      fun served clean some_ most => ?audit⟩
    case id => exact exec_meterReadout free on once rfl served (by decide) rfl rfl rfl ⟨_, rfl⟩
    case intervals =>
      have whole := w.wholeBlocks_all fits
      have inRange : ¬ (15 < b.pay 0 1 || b.pay 8 4 < b.pay 4 4) = true := by simp; omega
      refine exec_meterReadout free on once rfl served (by decide) clean (if_neg inRange) ?_ ⟨_, rfl⟩
      dsimp only
      rw [whole, List.getElem?_eq_none le_rfl]
      exact congrArg (fun u : State => u.readoutResp ((b.pay 8 4 + 1) % 2 ^ 32)) (State.onWgb_congr rfl)
    case cumulative =>
      have inRange : ¬ (b.pay 2 2 = 0 || 256 < b.pay 0 1 + b.pay 2 2) = true := by simp; omega
      refine exec_meterReadout free on once rfl served (by decide) clean (if_neg inRange) rfl ?_
      exact ⟨_, congrArg Wgb.answer (Wgb.readCumulative_range some_ tenants _)⟩
    case audit =>
      have inRange : ¬ (b.pay 4 2 = 0 || 508 < b.pay 4 2) = true := by simp; omega
      exact exec_meterReadout free on once rfl served (by decide) clean (if_neg inRange) rfl ⟨_, rfl⟩
  case commands =>
    intro s m b w free on
    have commits : ∀ {c : Instr} {op : Nat} {reserved : List (Nat × Nat)} {body : State → Mbox → State × Nat × List Nat}
        (u : State) (st : Nat) (resp : List Nat), exec c s = .next (s.run m op reserved body) → s.serves m op = true →
        cmdKind op = some .s → op ≠ 0x0201 → b.clean reserved = true → body s b = (u, st, resp) → u.stw.mb m = b →
        ∃ t, exec c s = .next t ∧ u.Committed t m st resp := fun u st resp runs served kind other clean gives same =>
      ⟨_, runs, State.run_committed s m _ _ _ u st resp served (.inl kind) other clean gives same⟩
    have mailbox := State.onWgb_mb_free free
    refine ⟨fun served => ?status, fun served clean clock => ?timeNote, fun served clock none => ?closeShort,
      fun served pair => ?markFailover, fun served notFailover notSurvivor => ?markRefused, fun served => ?portFails⟩
    case status =>
      exact ⟨_, rfl, (State.run_answered s m 0x0905 [] _ _ 0 _ served (by decide) rfl (State.meter_once (Nat.zero_le 1) on rfl)
        (mailbox _)).1⟩
    case timeNote =>
      exact commits _ 0 _ rfl served (by decide) (by decide) clean
        (State.meter_once (Nat.zero_le 1) on (if_neg (by simpa using clock))) (mailbox _)
    case closeShort =>
      obtain ⟨ready, -⟩ := (s.serves_iff m 0x0907).mp served
      obtain ⟨hm, busy, -⟩ := State.ready_spec ready
      have closes := Wgb.closeShort_new on clock none
      have sameInterval : w.closeShort.cur.ino = w.cur.ino := by rw [closes]
      set u := s.runs m (.short w.cur.ino)
      have running : u.stw.mb m = { s.stw.mb m with phase := .running } := State.modMb_mb_same s m _ hm
      have waits : ∀ l ∈ u.stw.longs, l.1 = m → l.2 = .short u.wgb.closeShort.cur.ino := by
        intro l hl here
        rcases List.mem_append.mp hl with old | new
        · exact absurd here (free l old)
        · rw [List.mem_singleton.mp new]
          exact congrArg Long.short sameInterval.symm
      have same := (State.onWgb_mb waits).trans running
      refine ⟨_, exec_meterCloseShort on clock served, ?_, by rw [same]; exact busy, by rw [same], u.onWgb_cfg _⟩
      rw [State.onWgb_wgb]
      exact congrArg Wgb.short closes
    case markFailover =>
      refine commits _ 0 _ rfl served (by decide) (by decide) rfl ?_ (mailbox _)
      exact (if_neg (by rcases pair with pair | pair <;> simp [pair])).trans (State.meter_once (Nat.zero_le 1) on rfl)
    case markRefused =>
      exact commits s 0x0201 [] rfl served (by decide) (by decide) rfl (if_pos (by simp [notFailover, notSurvivor])) rfl
    case portFails =>
      exact ⟨_, rfl, State.run_answered s m 0x0901 [] _ s 0x0401 [] served (by decide) rfl (s.meter_twice le_rfl _) rfl⟩

end Sys2Proof
end

section
/-! SUPPORT. Ticks of metering time, the ends of segments and intervals, and short boundaries (R379, R386, R387, R389). -/
namespace Sys2Proof.Machine

/-! ## A bit that is set -/

/-- A bit that is set already stays as it is. -/
theorem putBit_of_set {x i : Nat} (set : x.testBit i = true) : putBit x i true = x := by
  have field : bitsOf x i 1 = 1 := by
    simpa [bitsOf, Nat.shiftRight_eq_div_pow, Nat.testBit_eq_decide_div_mod_eq] using set
  have least : 2 ^ i ≤ x := Nat.ge_two_pow_of_testBit set
  simp [putBit, setBits, field, b2n, Nat.shiftLeft_eq]
  omega

/-- A bit that is clear adds its weight. -/
theorem putBit_of_clear {x i : Nat} (clear : x.testBit i = false) : putBit x i true = 2 ^ i + x := by
  have field : bitsOf x i 1 = 0 := by
    refine Nat.eq_of_testBit_eq fun j => ?_
    rw [testBit_bitsOf]
    by_cases hj : j = 0 <;> simp [hj, clear]
  simp [putBit, setBits, field, b2n, Nat.shiftLeft_eq, Nat.add_comm]

theorem testBit_putBit_same (x i : Nat) : (putBit x i true).testBit i = true := by
  cases bit : x.testBit i with
  | false => exact testBit_putBit bit
  | true => rw [putBit_of_set bit, bit]

theorem testBit_putBit_below (x : Nat) {i j : Nat} (below : j < i) : (putBit x i true).testBit j = x.testBit j := by
  cases bit : x.testBit i with
  | false => rw [putBit_of_clear bit, Nat.testBit_two_pow_add_gt below]
  | true => rw [putBit_of_set bit]

/-! ## The end of a segment in the device (R386) -/

/-- The taps with power send their frames. -/
theorem State.segment_frame (s : State) (t : Nat) : ∃ tp mem,
    s.segment t = { s with fab := { s.fab with taps := tp, mem := mem } } ∧
      tp.frames = s.fab.taps.frames ++ ((List.range 18).filter s.tapOn).map (fun k => s.tapFrame k t) := by
  unfold State.segment
  extract_lets on frames tp sent seq tp'
  split
  next none =>
    have off : (List.range 18).filter s.tapOn = [] := none
    exact ⟨_, _, rfl, by rw [off, List.map_nil, List.append_nil]⟩
  next some_ => exact ⟨tp', _, rfl, rfl⟩

/-- A command at which T moves: the Weighbridge is then `v`, and the taps' frames are under way. -/
theorem exec_boundary {c : Instr} {s : State} {g : Wgb → Wgb} {v : Wgb} (runs : exec c s = .next (s.boundary g))
    (acts : g s.wgb = v) (supply : v.powered = s.wgb.powered) (moves : v.t ≠ s.wgb.t) : ∃ t, exec c s = .next t ∧
      t.wgb = { v with raised := [] } ∧ t.cfg = s.cfg ∧ t.pcr = s.pcr ∧ t.fab.taps.frames =
        s.fab.taps.frames ++ ((List.range 18).filter s.tapOn).map (fun k => s.tapFrame k v.t) := by
  obtain ⟨tp, mem, segment, frames⟩ := ({ s with wgb := v } : State).segment_frame v.t
  have sameOn : ({ s with wgb := v } : State).tapOn = s.tapOn := by
    funext k
    rw [State.tapOn, State.on, State.pdStat, supply]
    rfl
  rw [sameOn] at frames
  have leaves : s.boundary g = (({ s with wgb := v } : State).segment v.t).onWgb id := by
    rw [State.boundary, acts]
    exact if_neg moves
  refine ⟨_, runs, ?_⟩
  rw [leaves, segment, State.onWgb_wgb, State.onWgb_cfg, State.onWgb_pcr, State.onWgb_taps]
  exact ⟨rfl, rfl, rfl, frames⟩

/-! ## Ticks (R389, R390) -/

/-- The next 1 ms tick of T. -/
def Wgb.nextTick (w : Wgb) : Nat := (w.t / 10000 + 1) * 10000

theorem Wgb.lt_nextTick (w : Wgb) : w.t < w.nextTick := by
  unfold Wgb.nextTick
  omega

/-- The Weighbridge whose segment has ended at its next tick, and whose interval has ended there if it is due. -/
def Wgb.ticked (w : Wgb) : Wgb :=
  if w.cur.stop = 0 ∨ w.nextTick < w.cur.stop then w.segmentEnd w.nextTick else (w.segmentEnd w.nextTick).intervalEnd false

/-- A tick that meets no short boundary leaves a checkpoint of its instant. -/
theorem Wgb.tick_frame {w : Wgb} (none : w.short = none) : ∃ ring, w.tick = { w.ticked with
    ticks := w.ticked.ticks + 1, checkpoint := some w.ticked.snapshot, ring := ring } := by
  unfold Wgb.tick
  extract_lets next met ended closed c kept
  have noneMet : met = w := by simp only [met, none]
  have ends : ended = w.segmentEnd w.nextTick := congrArg (fun v : Wgb => v.segmentEnd w.nextTick) noneMet
  have short : ended.short = Option.none := by rw [ends]; exact none
  have stop : ended.cur.stop = w.cur.stop := by rw [ends]; rfl
  have time : ended.t = w.nextTick := by rw [ends]; rfl
  have closes : closed = w.ticked := by
    by_cases open_ : w.cur.stop = 0 ∨ w.nextTick < w.cur.stop
    · rw [Wgb.ticked, if_pos open_, ← ends]
      exact if_neg (by simp [stop, time]; omega)
    · rw [Wgb.ticked, if_neg open_, ← ends]
      exact (if_pos (by simp [stop, time]; omega)).trans (congrArg (fun v : Wgb => v.intervalEnd false) (if_neg (by simp [short])))
  simp only [kept, c, closes]
  split
  · exact ⟨_, rfl⟩
  · exact ⟨_, rfl⟩

theorem Wgb.ticked_t (w : Wgb) : w.ticked.t = w.nextTick := by
  unfold Wgb.ticked
  split <;> rfl

theorem Wgb.ticked_powered (w : Wgb) : w.ticked.powered = w.powered := by
  unfold Wgb.ticked
  split <;> rfl

theorem Wgb.ticked_short (w : Wgb) : w.ticked.short = w.short := by
  unfold Wgb.ticked
  split <;> rfl

section
variable {s : State} (on : s.wgb.powered = true) (clock : s.wgb.tcxoOk = true)
include on clock

/-- METERING_TICK without a short boundary under way. -/
theorem exec_meteringTick (none : s.wgb.short = none) : exec .meteringTick s = .next (s.boundary (fun w =>
    let w := w.tick
    if w.short = some w.t then w.shortBoundary else w)) := by
  refine congrArg Host.Outcome.next ((if_neg (by simp [Wgb.runs, on, clock])).trans ?_)
  simp only [none]
  rfl

theorem exec_shortBoundary {tc : Nat} (short : s.wgb.short = some tc) :
    exec .shortBoundary s = .next (s.boundary Wgb.shortBoundary) :=
  congrArg Host.Outcome.next (if_pos (by simp [Wgb.runs, on, clock, short]))

end

/-! ## Short boundaries (R387) -/

/-- The segment ends at a short boundary. -/
def Wgb.atShort (w : Wgb) (tc : Nat) : Wgb := ({ w with short := none } : Wgb).segmentEnd tc

/-- T reaches a short boundary: the interval ends early, with an audit record, unless the boundary is a regular one. -/
theorem Wgb.shortBoundary_eq {w : Wgb} {tc : Nat} (short : w.short = some tc) (ahead : w.t < tc) : w.shortBoundary =
    if w.len ≠ 0 ∧ tc % (w.len * 10 ^ 7) = 0 then (w.atShort tc).intervalEnd false
    else ((w.atShort tc).intervalEnd true).record 7 2 (Config.auditDetail 7 (((w.atShort tc).intervalEnd true).cur.ino - 1)) := by
  have reached : ({ w with short := none } : Wgb).segmentEnd (max w.t tc) = w.atShort tc :=
    congrArg ({ w with short := none } : Wgb).segmentEnd (Nat.max_eq_right ahead.le)
  have due : ((w.atShort tc).len ≠ 0 && (w.atShort tc).t % ((w.atShort tc).len * 10 ^ 7) = 0) =
      decide (w.len ≠ 0 ∧ tc % (w.len * 10 ^ 7) = 0) := (Bool.decide_and _ _).symm
  unfold Wgb.shortBoundary
  simp only [short, reached, due]
  by_cases regular : w.len ≠ 0 ∧ tc % (w.len * 10 ^ 7) = 0
  · rw [if_pos regular, decide_eq_true regular]
    rfl
  · rw [if_neg regular, decide_eq_false regular]
    rfl

/-- The interval that has ended, with its marks (Table 14.5). -/
theorem Wgb.intervalEnd_closing (w : Wgb) (short : Bool) : ∃ flags,
    (w.intervalEnd short).closing = w.closing ++ [{ w.cur with stop := w.t, flags := flags }] ∧
      flags.testBit 0 = (short || w.cur.flags.testBit 0) := by
  refine ⟨_, rfl, ?_⟩
  have unsealed : (if w.sealed then w.cur.flags else putBit w.cur.flags 6 true).testBit 0 = w.cur.flags.testBit 0 := by
    split
    · rfl
    · exact testBit_putBit_below _ (by decide)
  cases short with
  | false => exact unsealed
  | true => exact testBit_putBit_same _ 0

end Sys2Proof.Machine

namespace Sys2Proof
open Machine

/-- Settles O32: a tick ends the segment, and the interval that is due, and leaves a checkpoint; a short boundary ends the interval
before its time, marked and recorded, unless it is a regular one. -/
theorem meteringTicksAndShortBoundaries : Obligations.MeteringTicksAndShortBoundaries := by
  unfold Obligations.MeteringTicksAndShortBoundaries
  refine ⟨?ticks, fun s on clock => ⟨fun crc none => ?closeShort, fun tc short ahead early room => ?early,
    fun tc short ahead len regular => ?regular, fun none => ?none⟩⟩
  case ticks =>
    intro s next q4
    refine ⟨fun on clock none => ?tick, fun off => congrArg Host.Outcome.next (if_pos ?off)⟩
    case off => rcases off with off | off <;> simp [Wgb.runs, off]
    case tick =>
      obtain ⟨ring, ticks⟩ := Wgb.tick_frame none
      have stays : s.wgb.tick.short ≠ some s.wgb.tick.t := by
        rw [ticks]
        change s.wgb.ticked.short ≠ _
        simp [Wgb.ticked_short, none]
      have moves : s.wgb.ticked.t ≠ s.wgb.t := by rw [Wgb.ticked_t]; exact s.wgb.lt_nextTick.ne'
      obtain ⟨t, runs, wgb, cfg, pcr, frames⟩ := exec_boundary (exec_meteringTick on clock none) ((if_neg stays).trans ticks)
        s.wgb.ticked_powered moves
      have time : s.wgb.ticked.t = next := s.wgb.ticked_t
      refine ⟨t, runs, ?_⟩
      rw [frames, wgb]
      by_cases open_ : s.wgb.cur.stop = 0 ∨ next < s.wgb.cur.stop
      · have same : s.wgb.ticked = s.wgb.segmentEnd next := if_pos open_
        rw [same, if_pos open_]
        exact ⟨rfl, rfl, rfl, rfl, rfl, rfl, cfg, pcr, ⟨rfl, rfl⟩, _, rfl, rfl, rfl⟩
      · have ended : s.wgb.ticked = (s.wgb.segmentEnd next).intervalEnd false := if_neg open_
        rw [ended, if_neg open_]
        exact ⟨rfl, rfl, rfl, rfl, rfl, rfl, cfg, pcr, ⟨⟨_, rfl, rfl, rfl, rfl, rfl, rfl⟩, rfl⟩, _, rfl, rfl, rfl⟩
  case closeShort =>
    obtain ⟨t, runs, wgb, cfg, pcr, -⟩ := exec_onWgb (c := .closeShort 1 crc) rfl
      ((Wgb.command_served on (by decide) (fun h => absurd h (by decide)) _ _).trans (Wgb.closeShort_new on clock none))
    exact ⟨t, runs, wgb, cfg, pcr⟩
  case early =>
    obtain ⟨rs, recorded⟩ := Wgb.record_room (w := (s.wgb.atShort tc).intervalEnd true) room 7 2
      (Config.auditDetail 7 (((s.wgb.atShort tc).intervalEnd true).cur.ino - 1))
    obtain ⟨flags, closing, marked⟩ := (s.wgb.atShort tc).intervalEnd_closing true
    obtain ⟨t, runs, wgb, -⟩ := exec_boundary (exec_shortBoundary on clock short)
      ((Wgb.shortBoundary_eq short ahead).trans ((if_neg early).trans recorded)) rfl ahead.ne'
    refine ⟨t, runs, ?_⟩
    rw [wgb]
    exact ⟨rfl, rfl, ⟨_, closing, rfl, rfl, rfl, marked⟩, rfl, rfl, _, rfl, rfl, rfl⟩
  case regular =>
    obtain ⟨flags, closing, marked⟩ := (s.wgb.atShort tc).intervalEnd_closing false
    obtain ⟨t, runs, wgb, -⟩ := exec_boundary (exec_shortBoundary on clock short)
      ((Wgb.shortBoundary_eq short ahead).trans (if_pos ⟨len, regular⟩)) rfl ahead.ne'
    refine ⟨t, runs, ?_⟩
    rw [wgb]
    exact ⟨rfl, rfl, rfl, ⟨_, closing, rfl, rfl, marked⟩, rfl⟩
  case none => exact congrArg Host.Outcome.next (if_neg (by simp [none]))

end Sys2Proof
end

section
/-! SUPPORT. Frames of the taps that arrive, and intervals that close (R383, R386, R388, R391, log entry 22). -/
namespace Sys2Proof.Machine

/-! ## Frames of the taps -/

/-- A tap's next frame is awaited. -/
def Wgb.tookFrame (w : Wgb) (fr : Frame) : Wgb := { w with tapSeq := vset w.tapSeq fr.tap ((fr.seq + 1) % 2 ^ 32) }

/-- A frame whose first copy was bad is counted (R386). -/
def Wgb.counted (w : Wgb) (bad : Bool) : Wgb :=
  if bad then
    let n := w.tapFaults + 1
    let w := { w with tapTransient := BitVec.ofNat 8 (satAdd 8 w.tapTransient.toNat 1), tapFaults := n }
    if n % 1024 = 0 then w.raise 196 else w
  else w

/-- The first frame of a slice after a reset marks the open interval; the slice's counts start anew (R386). -/
def Wgb.restarted (w : Wgb) (fr : Frame) : Wgb :=
  if fr.reset && fr.tap < 8 then
    let w := { w with occ := w.occ.filter (fun p => p.1 / 256 ≠ fr.tap) }
    (w.mark 4).record 6 2 (Config.auditDetail 6 fr.tap)
  else w

/-- A controller's frame adds to its totals, and is seen in the interval that ends with it (R385, R388). -/
def Wgb.addController (w : Wgb) (fr : Frame) : Wgb :=
  let c := fr.counts.headD (0, 0, 0, 0)
  { w with
    ctl := vmod w.ctl (fr.tap - 8) (fun p => (p.1 + c.2.1, p.2 + c.2.2.1))
    closing := w.closing.map (fun i => if i.stop = fr.endT then { i with seen := addOnce fr.tap i.seen } else i) }

/-- The latest slice counts after a slice's frame, which brings all of them or the changes (R389). -/
def Wgb.sliceOcc (w : Wgb) (fr : Frame) : Tab Nat :=
  fr.occ.foldl (fun acc p => Tab.put 0 acc (fr.tap * 256 + p.1) p.2)
    (if fr.full then w.occ.filter (fun p => p.1 / 256 ≠ fr.tap) else w.occ)

/-- A slice's counts hold from the start of the present segment (R389). -/
def Wgb.sliceHolds (w : Wgb) (fr : Frame) : Wgb :=
  { w with
    occ := w.sliceOcc fr
    occSeg := ({ w with occ := w.sliceOcc fr } : Wgb).occNow }

/-- An interval with a slice's frame, the last one where the frame ends with it. -/
def Interval.addSlice (i : Interval) (fr : Frame) : Interval :=
  if i.stop = fr.endT then { i.add fr with seen := addOnce fr.tap i.seen } else i.add fr

/-- A slice's frame counts in the ended interval that it belongs to, or in the open one. -/
def Wgb.addSlice (w : Wgb) (fr : Frame) : Wgb :=
  match w.closing.find? (fun i => decide (fr.endT ≤ i.stop)) with
  | some i => { w.sliceHolds fr with closing := modFirst (fun (x : Interval) => x.ino = i.ino) (fun _ => i.addSlice fr) w.closing }
  | none => { w.sliceHolds fr with cur := w.cur.add fr }

/-- A frame that arrives, in its steps. -/
theorem Wgb.frame_eq (w : Wgb) (fr : Frame) (bad1 bad2 : Bool) : w.frame fr bad1 bad2 =
    if ¬ w.powered then w
    else if ¬ w.tcxoOk then w.tookFrame fr
    else
      let v := w.counted (bad1 && ¬ bad2)
      if bad1 && bad2 then (v.tookFrame fr).tapLoss fr.tap
      else
        let missing : Bool := ¬ fr.reset && vget v.tapSeq 0 fr.tap ≠ fr.seq
        let x := (if missing then (v.tookFrame fr).tapLoss fr.tap else v.tookFrame fr).restarted fr
        if 8 ≤ fr.tap then x.addController fr else x.addSlice fr := rfl

theorem Wgb.counted_frame (w : Wgb) (bad : Bool) : ∃ n rs, w.counted bad = { w with
    tapTransient := if bad then BitVec.ofNat 8 (min 255 (w.tapTransient.toNat + 1)) else w.tapTransient
    tapFaults := n
    raised := w.raised ++ rs } := by
  cases bad with
  | false => exact ⟨w.tapFaults, [], by rw [List.append_nil]; rfl⟩
  | true =>
    unfold Wgb.counted
    dsimp only
    rw [if_pos rfl]
    split
    · exact ⟨_, [(196, 0)], rfl⟩
    · exact ⟨_, [], by rw [List.append_nil]; rfl⟩

section
variable {w : Wgb} {fr : Frame}

/-- A frame that brings the changes of its slice leaves the other counts. -/
theorem Wgb.sliceOcc_changes (changes : fr.full = false) :
    w.sliceOcc fr = fr.occ.foldl (fun acc p => Tab.put 0 acc (fr.tap * 256 + p.1) p.2) w.occ := by
  rw [Wgb.sliceOcc, changes]
  rfl

theorem Wgb.addSlice_open (noneEnded : w.closing = []) (fr : Frame) :
    w.addSlice fr = { w.sliceHolds fr with cur := w.cur.add fr } := by
  rw [Wgb.addSlice, noneEnded]
  rfl

theorem Wgb.addSlice_ended {i : Interval} {done : List Interval} (ended : w.closing = i :: done) (belongs : fr.endT ≤ i.stop) :
    w.addSlice fr = { w.sliceHolds fr with closing := i.addSlice fr :: done } := by
  simp [Wgb.addSlice, ended, belongs, modFirst]

variable (on : w.powered = true)
include on

/-- A frame that arrives during a time fault is discarded (R380). -/
theorem Wgb.frame_fault (fault : w.tcxoOk = false) (bad1 bad2 : Bool) : w.frame fr bad1 bad2 = w.tookFrame fr := by
  simp [Wgb.frame_eq, on, fault]

variable (clock : w.tcxoOk = true)
include clock

/-- A frame both of whose copies are bad is lost (R386). -/
theorem Wgb.frame_lost : w.frame fr true true = (w.tookFrame fr).tapLoss fr.tap := by
  simp [Wgb.frame_eq, on, clock, Wgb.counted]

/-- A frame in sequence that is no first one after a reset counts once (R386). -/
theorem Wgb.frame_inSequence (running : fr.reset = false) (inSeq : vget w.tapSeq 0 fr.tap = fr.seq) (bad : Bool) :
    let v := (w.counted bad).tookFrame fr
    w.frame fr bad false = if 8 ≤ fr.tap then v.addController fr else v.addSlice fr := by
  have same : vget (w.counted bad).tapSeq 0 fr.tap = fr.seq := by
    obtain ⟨_, _, frame⟩ := w.counted_frame bad
    rw [frame]
    exact inSeq
  simp [Wgb.frame_eq, on, clock, running, same, Wgb.restarted]

end

/-- A lost frame marks the open interval and leaves an audit record (R386). -/
theorem Wgb.tapLoss_room {w : Wgb} (room : w.audit.length < 4095) (tap : Nat) : ∃ rs d, w.tapLoss tap = { w with
    cur := { w.cur with flags := putBit w.cur.flags 3 true }
    audit := w.audit ++ [{ kind := 4, source := 2, cnt := w.auditCnt, t := w.t, detail := d }]
    raised := w.raised ++ rs ++ [(196, 0)] } := by
  obtain ⟨rs, recorded⟩ := Wgb.record_room (w := w.mark 3) room 4 2 (Config.auditDetail 4 tap)
  refine ⟨rs, Config.auditDetail 4 tap, ?_⟩
  rw [Wgb.tapLoss, recorded]
  rfl

/-- TAP_FRAME_RECEIVE takes the oldest frame of its tap. -/
theorem exec_tapFrameReceive {s : State} {fr : Frame} {rest : List Frame} {v : Wgb} {bad1 bad2 : Bool}
    (frames : s.fab.taps.frames = fr :: rest) (acts : s.wgb.frame fr bad1 bad2 = v) :
    ∃ t, exec (.tapFrameReceive fr.tap bad1 bad2) s = .next t ∧ t.fab.taps.frames = rest ∧ t.wgb = { v with raised := [] } ∧
      t.cfg = s.cfg ∧ ∀ e ∈ v.raised, e ∈ t.fab.raised := by
  set u : State := { s with fab := { s.fab with taps := { s.fab.taps with frames := rest } } } with u_eq
  have takes : exec (.tapFrameReceive fr.tap bad1 bad2) s = .next (u.onWgb (fun w => w.frame fr bad1 bad2)) := by
    change execTapFrameReceive fr.tap bad1 bad2 s = _
    unfold execTapFrameReceive
    simp [frames]
    rfl
  refine ⟨_, takes, by rw [State.onWgb_taps], ?_, u.onWgb_cfg _, fun e he => State.mem_onWgb_raised (acts ▸ he)⟩
  rw [State.onWgb_wgb]
  exact congrArg (fun x : Wgb => { x with raised := [] }) acts

/-! ## Intervals that close (R388) -/

/-- The taps that an ended interval waits for. -/
def Interval.missing (i : Interval) : List Nat := (List.range 18).filter (fun k => ¬ i.seen.contains k)

theorem Interval.mem_missing (i : Interval) (k : Nat) : k ∈ i.missing ↔ k < 18 ∧ k ∉ i.seen := by simp [Interval.missing]

/-- A tap whose frame has not come by the time limit is recorded (R388). -/
def Wgb.tapMissed (w : Wgb) (tap : Nat) : Wgb := (w.record 4 2 (Config.auditDetail 4 tap)).raise 196

theorem Wgb.journals_tapMissed (w : Wgb) (tap : Nat) : w.Journals (w.tapMissed tap) :=
  (w.journals_record _ _ _).trans (Wgb.journals_raise _ 196)

/-- Taps that are missing raise source 196. -/
theorem Wgb.mem_raised_tapsMissed (w : Wgb) : ∀ {taps : List Nat}, taps ≠ [] →
    (196, 0) ∈ (taps.foldl Wgb.tapMissed w).raised
  | [], some_ => absurd rfl some_
  | k :: taps, _ => (Wgb.Journals.foldl Wgb.journals_tapMissed (w.tapMissed k) taps).raised (Wgb.mem_raised_raise _ 196)

section
variable {w : Wgb} {i : Interval} {rest : List Interval} (ended : w.closing = i :: rest)
include ended

/-- INTERVAL_CLOSE of the oldest ended interval. -/
theorem Wgb.close_eq (late : Bool) : w.close late = if i.missing ≠ [] && ¬ late then w
    else ({ i.missing.foldl Wgb.tapMissed w with closing := rest } : Wgb).commit
      (if i.missing = [] then i else { i with flags := putBit i.flags 3 true }) := by
  rw [Wgb.close, ended]
  rfl

/-- An interval that every tap has reported closes. -/
theorem Wgb.close_reported (all : ∀ k, k < 18 → k ∈ i.seen) (late : Bool) :
    w.close late = ({ w with closing := rest } : Wgb).commit i := by
  have noneMissing : i.missing = [] := List.eq_nil_iff_forall_not_mem.mpr fun k hk =>
    ((i.mem_missing k).mp hk).elim fun tap unseen => unseen (all k tap)
  simp [Wgb.close_eq ended, noneMissing]

variable (missing : ∃ k, k < 18 ∧ k ∉ i.seen)
include missing

/-- Before the time limit an interval waits for its taps. -/
theorem Wgb.close_waits : w.close false = w := by
  obtain ⟨k, unseen⟩ := missing
  have some_ := List.ne_nil_of_mem ((i.mem_missing k).mpr unseen)
  simp [Wgb.close_eq ended, some_]

/-- At the time limit each missing tap is recorded, and the interval closes with what has been counted. -/
theorem Wgb.close_late : ∃ v flags, w.Journals v ∧ (196, 0) ∈ v.raised ∧
    w.close true = ({ v with closing := rest } : Wgb).commit { i with flags := flags } := by
  obtain ⟨k, unseen⟩ := missing
  have some_ := List.ne_nil_of_mem ((i.mem_missing k).mpr unseen)
  exact ⟨_, putBit i.flags 3 true, .foldl Wgb.journals_tapMissed w i.missing, w.mem_raised_tapsMissed some_, by
    simp [Wgb.close_eq ended, some_]⟩

end

end Sys2Proof.Machine

namespace Sys2Proof
open Machine

/-- Settles O33: a frame in sequence counts once, in the interval it belongs to; a lost one marks the open interval; an interval
closes when every tap has reported, or at the time limit. -/
theorem tapFramesAndClosedIntervals : Obligations.TapFramesAndClosedIntervals := by
  unfold Obligations.TapFramesAndClosedIntervals
  refine ⟨?frames, ?closes⟩
  case frames =>
    intro s fr rest on frames occ took
    have awaits : ∀ {w : Wgb}, fr.tap < 18 → vget (w.tookFrame fr).tapSeq 0 fr.tap = (fr.seq + 1) % 2 ^ 32 := fun tap =>
      vget_vset_same _ 0 _ _ tap
    refine ⟨fun clock slice i done ended belongs running changes next => ?ended,
      fun clock controller tap noneEnded running next => ?controller, fun fault tap b1 b2 => ?fault,
      fun bad clock slice noneEnded running changes next => ?opened, fun clock tap room => ?lost⟩
    case ended =>
      have acts := (Wgb.frame_inSequence on clock running next false).trans
        ((if_neg (Nat.not_le.mpr slice)).trans (Wgb.addSlice_ended ended belongs))
      obtain ⟨t, runs, left, wgb, cfg, -⟩ := exec_tapFrameReceive frames acts
      refine ⟨t, runs, ?_⟩
      simp only [took, wgb]
      exact ⟨⟨left, awaits (Nat.lt_trans slice (by decide)), rfl, rfl, cfg⟩, rfl, rfl, Wgb.sliceOcc_changes changes⟩
    case controller =>
      have acts := (Wgb.frame_inSequence on clock running next false).trans (if_pos controller)
      obtain ⟨t, runs, left, wgb, cfg, -⟩ := exec_tapFrameReceive frames acts
      refine ⟨t, runs, ?_⟩
      simp only [took, wgb]
      exact ⟨⟨left, awaits tap, rfl, rfl, cfg⟩, rfl, vget_vmod_same _ _ _ _ (by omega)⟩
    case fault =>
      obtain ⟨t, runs, left, wgb, cfg, -⟩ := exec_tapFrameReceive frames (Wgb.frame_fault on fault b1 b2)
      refine ⟨t, runs, ?_⟩
      simp only [took, wgb]
      exact ⟨⟨left, awaits tap, rfl, rfl, cfg⟩, rfl⟩
    case opened =>
      obtain ⟨n, rs, counted⟩ := s.wgb.counted_frame bad
      have noneEnded' : ((s.wgb.counted bad).tookFrame fr).closing = [] := by rw [counted]; exact noneEnded
      have acts := (Wgb.frame_inSequence on clock running next bad).trans
        ((if_neg (Nat.not_le.mpr slice)).trans (Wgb.addSlice_open noneEnded' fr))
      rw [counted] at acts
      obtain ⟨t, runs, left, wgb, cfg, -⟩ := exec_tapFrameReceive frames acts
      refine ⟨t, runs, ?_⟩
      simp only [took, wgb]
      exact ⟨⟨left, awaits (Nat.lt_trans slice (by decide)), rfl, rfl, cfg⟩, rfl, Wgb.sliceOcc_changes changes, rfl, rfl,
        noneEnded⟩
    case lost =>
      obtain ⟨rs, d, loses⟩ := Wgb.tapLoss_room (w := s.wgb.tookFrame fr) room fr.tap
      obtain ⟨t, runs, left, wgb, cfg, raised⟩ := exec_tapFrameReceive frames ((Wgb.frame_lost on clock).trans loses)
      refine ⟨t, runs, ?_⟩
      simp only [took, wgb]
      exact ⟨⟨left, awaits tap, rfl, rfl, cfg⟩, rfl, ⟨_, rfl, rfl⟩, rfl,
        raised _ (List.mem_append_right _ (List.mem_singleton_self _))⟩
  case closes =>
    intro s i rest on ended
    have runs : ∀ late, exec (.intervalClose late) s = .next (s.onWgb (fun w => w.close late)) := fun late =>
      congrArg Host.Outcome.next (if_pos on)
    refine ⟨fun all late => ?reported, fun missing => ?late, fun missing => ?waits⟩
    case reported =>
      obtain ⟨⟨_, _, _, _, _, _, _, commits⟩, told, toldShort⟩ := ({ s.wgb with closing := rest } : Wgb).commit_journals i
      obtain ⟨t, steps, wgb, cfg, -, -, raised⟩ := exec_onWgb (runs late) (Wgb.close_reported ended all late)
      refine ⟨t, steps, ?_⟩
      rw [wgb]
      exact ⟨by rw [commits], by rw [commits], raised _ told, fun short => raised _ (toldShort short), by rw [commits],
        by rw [commits], cfg⟩
    case late =>
      obtain ⟨v, flags, ⟨_, _, _, _, _, _, _, journals⟩, lost, closes⟩ := Wgb.close_late ended missing
      obtain ⟨commits, told, -⟩ := ({ v with closing := rest } : Wgb).commit_journals { i with flags := flags }
      have lost' := commits.raised (e := (196, 0)) lost
      obtain ⟨_, _, _, _, _, _, _, committed⟩ := commits
      obtain ⟨t, steps, wgb, -, -, -, raised⟩ := exec_onWgb (runs true) closes
      refine ⟨t, steps, ?_⟩
      rw [wgb]
      exact ⟨by rw [committed], by rw [committed, journals]; rfl, raised _ lost', raised _ told⟩
    case waits =>
      obtain ⟨t, steps, wgb, -⟩ := exec_onWgb (runs false) (Wgb.close_waits ended missing)
      exact ⟨t, steps, wgb⟩

end Sys2Proof
end

section
/-! SUPPORT. The Weighbridge's supply and clock: checkpoints, the loss and the return of supply, time faults (R380, R390,
R517). -/
namespace Sys2Proof.Machine

section
variable {w : Wgb}

/-- The newest checkpoint is the last of the ring (R390). -/
theorem Wgb.toRing_last (w : Wgb) (c : Checkpoint) : (w.toRing c).ring.getLast? = some c := by
  have kept : ¬ (w.ring ++ [c]).length ≤ w.ring.length + 1 - 56 := by
    simp only [List.length_append, List.length_singleton]
    omega
  rw [Wgb.toRing, List.getLast?_drop, if_neg kept, List.getLast?_concat]

/-- The Weighbridge as its latest checkpoint left it, with the interval of that checkpoint ended and marked RECON (R390). -/
def Wgb.resumed (w : Wgb) (c : Checkpoint) : Wgb :=
  (({ w with
    powered := true
    tcxoOk := true
    t := c.t
    cur := c.cur
    occ := c.occ
    cum := c.cum
    tapSeq := c.taps
    segStart := c.t
    occSeg := []
    closing := []
    blocks := w.blocks.filter (fun b => b.lastIno < c.cur.ino || b.summary) } : Wgb).mark 1).intervalEnd false

/-- The interval of the checkpoint closes. -/
theorem Wgb.resumed_commit (w : Wgb) (c : Checkpoint) : ∃ x,
    (w.resumed c).closing.foldl Wgb.commit { w.resumed c with closing := [] } = x ∧ x.powered = true ∧ x.sealed = w.sealed ∧
      x.t = c.t ∧ x.cur = (w.resumed c).cur ∧ x.cum = addCounts c.cum c.cur.counts ∧ x.closing = [] := by
  obtain ⟨i, one, counts⟩ : ∃ i, (w.resumed c).closing = [i] ∧ i.counts = c.cur.counts := ⟨_, rfl, rfl⟩
  obtain ⟨⟨_, _, _, _, _, _, _, commits⟩, -⟩ := ({ w.resumed c with closing := [] } : Wgb).commit_journals i
  refine ⟨_, rfl, ?_⟩
  rw [one, List.foldl_cons, List.foldl_nil, commits, counts]
  exact ⟨rfl, rfl, rfl, rfl, rfl, rfl⟩

section
variable {c : Checkpoint} (off : w.powered = false) (latest : w.ring.getLast? = some c)
include off latest

/-- The supply's return, in its steps: the ended interval closes, and T counts anew before sealing. -/
theorem Wgb.powerRestore_eq : w.powerRestore =
    let x := (w.resumed c).closing.foldl Wgb.commit { w.resumed c with closing := [] }
    let y := if x.sealed then x else { x with t := 0, segStart := 0, cur := { x.cur with start := 0, stop := x.nextBoundary 0 } }
    (({ y with occSeg := y.occNow } : Wgb).record 2 2 (Config.auditDetail 2 0)).raise 194 := by
  rw [Wgb.powerRestore, if_neg (by simp [off]), latest]
  rfl

/-- The supply's return continues from the latest checkpoint, whose interval closes (R390). -/
theorem Wgb.powerRestore_sealed (sealed : w.sealed = true) : let v := w.powerRestore
    v.powered = true ∧ v.t = c.t ∧ v.cur.ino = (c.cur.ino + 1) % 2 ^ 32 ∧ v.cur.start = c.t ∧
      v.cum = addCounts c.cum c.cur.counts ∧ v.closing = [] ∧ (194, 0) ∈ v.raised ∧ v.sealed = true := by
  obtain ⟨x, commits, powered, kept, time, cur, cum, closing⟩ := w.resumed_commit c
  have restores : w.powerRestore = (({ x with occSeg := x.occNow } : Wgb).record 2 2 (Config.auditDetail 2 0)).raise 194 := by
    rw [Wgb.powerRestore_eq off latest, commits]
    exact congrArg (fun y : Wgb => (({ y with occSeg := y.occNow } : Wgb).record 2 2 (Config.auditDetail 2 0)).raise 194)
      (if_pos (kept.trans sealed))
  obtain ⟨_, _, _, _, _, _, _, records⟩ := ({ x with occSeg := x.occNow } : Wgb).journals_record 2 2 (Config.auditDetail 2 0)
  have told := Wgb.mem_raised_raise (({ x with occSeg := x.occNow } : Wgb).record 2 2 (Config.auditDetail 2 0)) 194
  rw [restores]
  refine ⟨?_, ?_, ?_, ?_, ?_, ?_, told, ?_⟩ <;> rw [records]
  · exact powered
  · exact time
  · exact congrArg Interval.ino cur
  · exact congrArg Interval.start cur
  · exact cum
  · exact closing
  · exact kept.trans sealed

end

/-- A time fault stops T, marks the open interval and leaves an audit record (R380). -/
theorem Wgb.timeFault_room (on : w.powered = true) (clock : w.tcxoOk = true) (room : w.audit.length < 4095) : ∃ rs d,
    w.timeFault = { w with
      tcxoOk := false
      cur := { w.cur with flags := putBit w.cur.flags 5 true }
      audit := w.audit ++ [{ kind := 3, source := 2, cnt := w.auditCnt, t := w.t, detail := d }]
      raised := w.raised ++ rs ++ [(197, 0)] } := by
  obtain ⟨rs, recorded⟩ := Wgb.record_room (w := ({ w with tcxoOk := false } : Wgb).mark 5) room 3 2 (Config.auditDetail 3 0)
  refine ⟨rs, Config.auditDetail 3 0, (if_neg (by simp [on, clock])).trans ?_⟩
  rw [recorded]
  rfl

end

end Sys2Proof.Machine

namespace Sys2Proof
open Machine

/-- Settles O34: what the journal holds outlasts the supply, the return continues from the latest checkpoint, and a time fault marks
the open interval. -/
theorem weighbridgeSupplyAndClock : Obligations.WeighbridgeSupplyAndClock := by
  unfold Obligations.WeighbridgeSupplyAndClock
  intro s w
  refine ⟨fun on => ?pfail, ?loss, fun c off latest sealed => ?restore, fun on clock room => ?fault, fun on fault => ?faultEnd⟩
  case pfail =>
    obtain ⟨t, runs, wgb, cfg, -⟩ := exec_onWgb (c := .wgbPfail) rfl (if_neg (not_not_intro on))
    refine ⟨t, runs, ?_⟩
    rw [wgb]
    exact ⟨rfl, Wgb.toRing_last { w with pfail := true } w.snapshot, rfl, rfl, cfg⟩
  case loss =>
    obtain ⟨t, runs, wgb, cfg, -⟩ := exec_onWgb (c := .weighbridgePowerLoss) (s := s) rfl rfl
    refine ⟨t, runs, ?_⟩
    rw [wgb]
    exact ⟨rfl, rfl, rfl, rfl, rfl, rfl, rfl, rfl, cfg⟩
  case restore =>
    obtain ⟨powered, time, ino, start, cum, closing, told, kept⟩ := Wgb.powerRestore_sealed off latest sealed
    obtain ⟨t, runs, wgb, -, -, -, raised⟩ := exec_onWgb (c := .weighbridgePowerRestore) (s := s) rfl rfl
    refine ⟨t, runs, ?_⟩
    rw [wgb]
    exact ⟨powered, time, ino, start, cum, closing, raised _ told, kept⟩
  case fault =>
    obtain ⟨rs, d, faults⟩ := Wgb.timeFault_room on clock room
    obtain ⟨t, runs, wgb, -, -, -, raised⟩ := exec_onWgb (c := .timeFault) rfl faults
    refine ⟨t, runs, ?_⟩
    rw [wgb]
    exact ⟨rfl, rfl, rfl, raised _ (List.mem_append_right _ (List.mem_singleton_self _)), _, rfl, rfl, rfl⟩
  case faultEnd =>
    have ends : w.timeFaultEnd = (({ w with tcxoOk := true } : Wgb).mark 5).raise 197 := if_neg (by simp [on, fault])
    obtain ⟨t, runs, wgb, cfg, -, -, raised⟩ := exec_onWgb (c := .timeFaultEnd) rfl ends
    refine ⟨t, runs, ?_⟩
    rw [wgb]
    exact ⟨rfl, rfl, raised _ (Wgb.mem_raised_raise _ 197), cfg⟩

end Sys2Proof
end
